-- ==== Sys2Proof/Word.lean ====
section
/-!
DEFINITION. The bit-vector types of the SNG-2418: what the manual itself treats as bits.
Everything the manual treats as a number (a level, a power, an angle) is a Nat or an Int elsewhere.
-/

namespace Sys2Proof

/-- One byte of the host link or of Roomline. -/
abbrev Byte := BitVec 8

/-- A reading of the uptime counter, in ms, which wraps at 2^32 (00_scope.md section 3.3). -/
abbrev Uptime := BitVec 32

/-- A node's 32-bit serial (R26). -/
abbrev Serial := BitVec 32

/-- A 12-bit conversion of an analog input (R106). -/
abbrev Raw := BitVec 12

/-- The gypsy counter, a signed 32-bit count that wraps (R141). -/
abbrev Count := BitVec 32

end Sys2Proof
end

