-- ==== Sys2Proof/Syntax.lean ====
section
/-!
DEFINITION. The commands the SNG-2418 takes: one constructor of `Instr` for every row of
spec/opcode_table.json, in the table's order, and the named sets their operands are drawn from.

A row that is a host request carries the request's tag and its payload fields (R184); field codes stay
the numbers the host sends, so that a code the part refuses can be sent. A row that is an event carries
what the event shows the part: the bytes received, the levels read, the raw conversions.
-/

namespace Sys2Proof

/-- What caused a hard reset (R180, R193): power-on, or RESET_N held low. -/
inductive HardCause where
  | power | pin
  deriving DecidableEq, Repr

/-- The two movers on the hydraulic power unit (chapter 7). -/
inductive MoverId where
  | hatch | platform
  deriving DecidableEq, Repr

/-- The three motion resources of the ownership table (R158). -/
inductive Resource where
  | hatch | platform | windlass
  deriving DecidableEq, Repr

/-- The two motors that hold grant records (R92). -/
inductive Motor where
  | hpu | windlass
  deriving DecidableEq, Repr

/-- The four end switches of the hatch and the platform (R117). -/
inductive DeckSwitch where
  | hatchClosed | hatchOpen | platStowed | platSubmerged
  deriving DecidableEq, Repr

/-- The direction of a count step or of a windlass run: OUT pays out and counts up, IN heaves and counts down (R141). -/
inductive RodeDir where
  | payOut | heave
  deriving DecidableEq, Repr

/-- What the target of the part's own transaction did on the wires between OPEN and CLOSE (R3).
A write uses `headAck`, `dataAck` and `checkAck`; a read uses `headAck`, `dataAck` (for its kind byte) and
`reply`, the bytes the target sent: the length byte, the data bytes and the check byte. -/
structure TargetAnswer where
  headAck  : Bool
  dataAck  : Bool
  checkAck : Bool
  reply    : List Byte
  deriving DecidableEq, Repr

/-- The nine HPU figures of SET_HPU (R118). -/
structure HpuSettings where
  rated         : Nat := 7500
  inrush        : Nat := 6000
  inrushWindow  : Nat := 2000
  readyPressure : Nat := 1200
  readyLimit    : Nat := 3000
  overpressure  : Nat := 2100
  overTime      : Nat := 500
  stallPressure : Nat := 1900
  runOn         : Nat := 10000
  deriving DecidableEq, Repr

/-- The fifteen windlass figures of SET_WINDLASS (R140), in the order of the request. -/
structure WindlassSettings where
  countsPerRev : Nat := 48
  mmPerRev     : Nat := 1120
  slipTol      : Nat := 3
  maxRode      : Nat := 110000
  slowZone     : Nat := 3000
  stopBand     : Nat := 100
  g1           : Nat := 6000
  g2           : Nat := 9500
  inrush       : Nat := 5000
  inrushWindow : Nat := 2000
  overCurrent  : Nat := 400
  overTime     : Nat := 1000
  jamTime      : Nat := 1500
  homeLimit    : Nat := 3000
  stage2Delay  : Nat := 3000
  deriving DecidableEq, Repr

/-- The commands: one constructor per row of spec/opcode_table.json. -/
inductive Instr where
  /-- HARD_RESET (R193), with the levels of the straps LR1 and LR0. -/
  | hardReset (cause : HardCause) (lr1 lr0 : Bool)
  /-- RESTART_RESET (R182), with the levels of the straps LR1 and LR0. -/
  | restartReset (lr1 lr0 : Bool)
  /-- AUTO_START (R193). -/
  | autoStart
  /-- REQUEST_FRAME (R172, R173): bytes the receiver takes one after the other. -/
  | requestFrame (bytes : List Byte)
  /-- GAP_TIMEOUT (R172). -/
  | gapTimeout
  /-- FRAMING_ERROR (R172). -/
  | framingError
  /-- REPLY_SENT (R173). -/
  | replySent
  /-- UNKNOWN_KIND (R174). -/
  | unknownKind (tag kind : Byte)
  /-- SUPERVISION_EXPIRY (R179). -/
  | supervisionExpiry
  /-- STATUS (R180). -/
  | status (tag : Byte)
  /-- READ_NOTICES (R177). -/
  | readNotices (tag : Byte) (wanted : Nat)
  /-- LINK_STATS (R181). -/
  | linkStats (tag : Byte)
  /-- SET_SUPERVISION (R178). -/
  | setSupervision (tag : Byte) (period : Nat)
  /-- RESTART (R182). -/
  | restart (tag : Byte)
  /-- START (R186). -/
  | start (tag : Byte)
  /-- STOP (R188). -/
  | stop (tag : Byte)
  /-- SAVE_SETTINGS (R191). -/
  | saveSettings (tag : Byte) (flag : Nat)
  /-- SAVE_COMPLETE (R191): whether the image read back agrees with the content taken. -/
  | saveComplete (agrees : Bool)
  /-- LOAD_SETTINGS (R192). -/
  | loadSettings (tag : Byte)
  /-- DEFAULTS (R192). -/
  | defaults (tag : Byte)
  /-- SET_ROOMLINE (R25). -/
  | setRoomline (tag : Byte) (rate silence fallback : Nat)
  /-- READ_ROOMLINE (R25). -/
  | readRoomline (tag : Byte)
  /-- OPEN_TRANSACTION (R10, R19), with the levels both lines read. -/
  | openTransaction (rckHigh rdaHigh : Bool)
  /-- TRANSACTION_END (R16, R20). -/
  | transactionEnd (answer : TargetAnswer)
  /-- BYTE_TIMEOUT (R12). -/
  | byteTimeout
  /-- TRANSACTION_TIMEOUT (R12). -/
  | transactionTimeout
  /-- ARBITRATION_LOST (R11), with the head byte that won. -/
  | arbitrationLost (head : Byte)
  /-- OTHER_OPEN (R10), with the head byte the other party sends. -/
  | otherOpen (head : Byte)
  /-- OTHER_CLOSE (R10). -/
  | otherClose
  /-- KEY_REPORT (R21): the bytes after the head, from the kind byte to the last byte before CLOSE. -/
  | keyReport (bytes : List Byte)
  /-- OVERRUN_TIMEOUT (R13). -/
  | overrunTimeout
  /-- STUCK_LINE_TIMEOUT (R14): which lines read low at the expiry. -/
  | stuckLineTimeout (rckLow rdaLow : Bool)
  /-- RECOVERY_RUN (R15), with the levels both lines read at its end. -/
  | recoveryRun (rckHigh rdaHigh : Bool)
  /-- NODE_RETRY_EXPIRY (R30, R35, R36). -/
  | nodeRetryExpiry (addr : Nat)
  /-- POLL_EXPIRY (R37). -/
  | pollExpiry (addr : Nat)
  /-- ENROL_NODE (R40). -/
  | enrolNode (tag : Byte) (addr type : Nat)
  /-- ENROL_RETRY_EXPIRY (R41). -/
  | enrolRetryExpiry
  /-- ENROL_DEFERRED_UPDATE (R42). -/
  | enrolDeferredUpdate
  /-- DECLARE_NODE (R44). -/
  | declareNode (tag : Byte) (addr type : Nat) (serial : Serial)
  /-- REMOVE_NODE (R45). -/
  | removeNode (tag : Byte) (addr : Nat)
  /-- READ_NODE (R46). -/
  | readNode (tag : Byte) (addr : Nat)
  /-- REFRESH_TICK (R52). -/
  | refreshTick
  /-- DEFINE_CHANNEL (R65). -/
  | defineChannel (tag : Byte) (num node index kind rated cls floor preset : Nat)
  /-- REMOVE_CHANNEL (R66). -/
  | removeChannel (tag : Byte) (num : Nat)
  /-- SET_LEVEL (R63). -/
  | setLevel (tag : Byte) (num level fade : Nat)
  /-- READ_CHANNEL (R64). -/
  | readChannel (tag : Byte) (num first : Nat)
  /-- DEFINE_SCENE (R69), with its payload of varying length. -/
  | defineScene (tag : Byte) (payload : List Byte)
  /-- SCENE_PART (R70), with its payload of varying length. -/
  | scenePart (tag : Byte) (payload : List Byte)
  /-- REMOVE_SCENE (R72). -/
  | removeScene (tag : Byte) (scene : Nat)
  /-- READ_SCENE (R73). -/
  | readScene (tag : Byte) (scene first : Nat)
  /-- TAKE_SCENE (R76). -/
  | takeScene (tag : Byte) (scene : Nat)
  /-- SET_BINDING (R82), with its three trigger bytes and seven action bytes. -/
  | setBinding (tag : Byte) (slot trigKind : Nat) (trig : List Byte) (actKind : Nat) (act : List Byte)
  /-- CLEAR_BINDING (R83). -/
  | clearBinding (tag : Byte) (slot : Nat)
  /-- READ_BINDING (R83). -/
  | readBinding (tag : Byte) (slot first : Nat)
  /-- SET_SUPPLY (R85). -/
  | setSupply (tag : Byte) (limit base source : Nat)
  /-- SET_ALLOCATION (R86). -/
  | setAllocation (tag : Byte) (margin hysteresis : Nat)
  /-- READ_ALLOCATION (R105). -/
  | readAllocation (tag : Byte)
  /-- REVIEW_TIMER_EXPIRY (R100). -/
  | reviewTimerExpiry
  /-- INRUSH_EXPIRY (R94). -/
  | inrushExpiry (motor : Motor)
  /-- SWEEP (R106), with the eight raw conversions, input 1 first. -/
  | sweep (raw : Vector Raw 8)
  /-- SET_SENSE (R115). -/
  | setSense (tag : Byte) (input : Nat) (low high lowLimit highLimit : Int) (hysteresis : Nat)
  /-- READ_SENSE (R116). -/
  | readSense (tag : Byte) (selector : Nat)
  /-- DECK_SWITCH_EVENT (R117): the new debounced state of a switch. -/
  | deckSwitchEvent (sw : DeckSwitch) (active : Bool)
  /-- SET_HPU (R118). -/
  | setHpu (tag : Byte) (figures : HpuSettings)
  /-- SET_MOVER (R119). -/
  | setMover (tag : Byte) (resource : Nat) (angle1 angle2 angle3 : Int) (timeout : Nat)
  /-- MOVE (R128). -/
  | move (tag : Byte) (resource target : Nat)
  /-- HPU_READY_TIMEOUT (R123). -/
  | hpuReadyTimeout
  /-- RUN_ON_EXPIRY (R122). -/
  | runOnExpiry
  /-- TRAVEL_TIMEOUT (R132). -/
  | travelTimeout (mover : MoverId)
  /-- MOVER_SETTLE_EXPIRY (R134). -/
  | moverSettleExpiry (mover : MoverId)
  /-- CLEAR_FAULT (R124, R135, R155). -/
  | clearFault (tag : Byte) (resource : Nat)
  /-- STOP_MOTION (R136, R156). -/
  | stopMotion (tag : Byte) (resource : Nat)
  /-- READ_DECK (R138, R157). -/
  | readDeck (tag : Byte) (selector : Nat)
  /-- SET_WINDLASS (R140). -/
  | setWindlass (tag : Byte) (figures : WindlassSettings)
  /-- GYPSY_STEP (R141). -/
  | gypsyStep (dir : RodeDir)
  /-- GYPSY_DECODE_ERROR (R141). -/
  | gypsyDecodeError
  /-- GYPSY_INDEX (R142). -/
  | gypsyIndex
  /-- HOME_SWITCH_EVENT (R139): the new debounced state of ANCHOR_HOME_SW. -/
  | homeSwitchEvent (active : Bool)
  /-- PAY_OUT_TO (R147). -/
  | payOutTo (tag : Byte) (target : Int)
  /-- HEAVE_TO (R147). -/
  | heaveTo (tag : Byte) (target : Int)
  /-- HEAVE_HOME (R148). -/
  | heaveHome (tag : Byte)
  /-- SET_RODE (R144). -/
  | setRode (tag : Byte) (length : Nat)
  /-- DEADBAND_EXPIRY (R146, R150). -/
  | deadbandExpiry
  /-- BRAKE_TIMER_EXPIRY (R150). -/
  | brakeTimerExpiry
  /-- STAGE2_DELAY_EXPIRY (R152). -/
  | stage2DelayExpiry
  /-- JAM_TIMEOUT (R154). -/
  | jamTimeout
  /-- WINDLASS_SETTLE_EXPIRY (R153). -/
  | windlassSettleExpiry
  /-- CONFIRM_EXPIRY (R163). -/
  | confirmExpiry (resource : Resource)
  /-- SET_STATION_MAP (R161), with the function codes of keys 1..6. -/
  | setStationMap (tag : Byte) (addr : Nat) (codes : List Nat)
  /-- READ_STATION (R161). -/
  | readStation (tag : Byte) (addr : Nat)
  deriving DecidableEq, Repr

end Sys2Proof
end

