-- ==== Sys2Proof/Decode.lean ====
section
/-!
DEFINITION. The command a word spells by the bits of spec/opcode_table.json. No row of the table has bits: the host's
requests are bytes of a frame, read by `Sys2Proof.Machine.parseRequest` (Machine/Operands.lean).
-/

namespace Sys2Proof

/-- The command a table word spells: none, since the table gives no row any bits (notes/assumptions/9.md). -/
def decodeTableWord (_nbits _w : Nat) : Option Instr := none

end Sys2Proof
end

