-- ==== Sys2Proof/Records.lean ====
section
/-!
DEFINITION. The records each block of the SNG-2418 keeps, as plain data, with the values hard reset gives
them as the fields' defaults, and the replies the part makes. `State` (Machine/State.lean) puts them together.
-/

namespace Sys2Proof.Machine

/-! ## Modes, resets, statuses -/

/-- The mode of the part (R185). -/
inductive Mode where
  | config | run | stopping
  deriving DecidableEq, Repr

/-- The last reset cause (R180). -/
inductive ResetCause where
  | power | pin | restart
  deriving DecidableEq, Repr

/-- The store state (R190). -/
inductive StoreState where
  | valid | invalid | saving
  deriving DecidableEq, Repr

/-- The reply status codes (R174). -/
inductive Status where
  | ok | unknownKind | badLength | badValue | wrongMode | busy | notFound | full | inUse
  | interlock | noBudget | notOwner | notReady | faulted | invalid | queueFull | conditionPresent
  deriving DecidableEq, Repr

/-! ## Notices (R176, section 10.4) -/

/-- The 26 notice kinds, in the order of their codes. -/
inductive NoticeKind where
  | nodeLost | nodeBack | nodeMismatch | enrolDone | enrolFailed | busFault | busRecovered
  | shed | restored | overLimit | motionDone | motionStopped | deckFault | hpuFault | slip
  | anchorHome | anchorAtTarget | senseLimit | senseFault | senseOk | hostLost | modeChanged
  | storeDone | storeFailed | storeInvalid | startFailed
  deriving DecidableEq, Repr

/-- A notice record (R176). -/
structure Notice where
  kind   : NoticeKind
  source : Nat
  data   : List Byte
  time   : Uptime
  deriving DecidableEq, Repr

/-! ## Roomline (chapter 1) -/

/-- The bus states (section 1.4). -/
inductive BusState where
  | idle | own | other | recovery
  deriving DecidableEq, Repr

/-- The kinds of transaction the part originates (section 1.3). -/
inductive TxKind where
  | identify | assign | setup | levels | lamps | status | release
  deriving DecidableEq, Repr

/-- The classes of the outbound queue (section 1.6). -/
inductive TxClass where
  | a | b | c
  deriving DecidableEq, Repr

/-- An entry of the outbound transaction queue (section 1.6). `enrol` marks a transaction of the enrolment
operation, whose outcome belongs to that operation alone (R16, R43). -/
structure Entry where
  cls      : TxClass
  kind     : TxKind
  target   : Nat
  assign   : Option (Nat × Serial) := none
  queued   : Uptime
  inFlight : Bool := false
  retry    : Bool := false
  followUp : Bool := false
  enrol    : Bool := false
  deriving DecidableEq, Repr

/-- The outcomes of section 1.5, in the order of their codes (R33). -/
inductive TxOutcome where
  | done | noAckHead | noAckData | checkFail | timeoutByte | timeoutTransaction | busFault
  deriving DecidableEq, Repr

/-- What the controller answers to a request to queue a transaction (R17, R18). -/
inductive QueueAnswer where
  | taken | refusedFull | refusedMode | refusedRecovery
  deriving DecidableEq, Repr

/-- The fallback modes of a node (R7). -/
inductive Fallback where
  | hold | preset
  deriving DecidableEq, Repr

/-- The Roomline settings (R25), with the defaults of R24. -/
structure RoomlineSettings where
  rate     : Nat := 50
  silence  : Nat := 5
  fallback : Fallback := .hold
  deriving DecidableEq, Repr

/-- The lamp states (section 1.3), in the order of their codes. -/
inductive Lamp where
  | off | steady | slow | fast
  deriving DecidableEq, Repr

/-- The values a transaction in flight carries, read when it started (R8). -/
inductive Carried where
  | none
  /-- LEVELS: the outputs of the node's channels as read at the start, by output index. -/
  | levels (outputs : List (Nat × Nat))
  /-- LAMPS: the station's eight lamp states as read at the start. -/
  | lamps (states : Vector Lamp 8)
  deriving DecidableEq, Repr

/-- The Roomline controller (chapter 1). -/
structure Bus where
  state        : BusState := .idle
  queue        : List Entry := []
  /-- Uptime of the OPEN of the transaction in progress, the part's own or another party's (R12, R13). -/
  openedAt     : Uptime := 0
  /-- The bytes the part itself sends in the transaction in flight (R3). -/
  wire         : List Byte := []
  /-- The values the transaction in flight carries (R8). -/
  carried      : Carried := .none
  /-- The rate the transaction in flight started at (R2). -/
  flightRate   : Nat := 50
  /-- The head byte of the other party's transaction, in OTHER (R10). -/
  otherHead    : Option Byte := none
  /-- The pending-RELEASE mark (R23). -/
  pendingRelease : Bool := false
  /-- Set while a RELEASE started from the pending mark is in flight, outside the queue (R23). -/
  releaseOpen  : Bool := false
  recoveryRuns : Nat := 0
  recoveryTimer : Option Uptime := none
  settings     : RoomlineSettings := ⟨50, 5, .hold⟩
  deriving DecidableEq, Repr

/-! ## Node table (chapter 2) -/

/-- The five node types (section 1.3). -/
inductive NodeType where
  | dimmer4 | switch8 | blind2 | keypad | station
  deriving DecidableEq, Repr

/-- The two steps of SETUP (R31). -/
inductive SetupStep where
  | awaitSetup | awaitStatus
  deriving DecidableEq, Repr

/-- The node states (section 2.2); SETUP with the step the record waits for (R26, R31). -/
inductive NodeState where
  | declared | identify | setup (step : SetupStep) | active | lost | mismatch
  deriving DecidableEq, Repr

/-- A node record (R26), with the values R27 gives a new one. -/
structure NodeRecord where
  addr      : Nat
  type      : NodeType
  serial    : Serial
  state     : NodeState := .declared
  misses    : Nat := 0
  lastSeen  : Uptime := 0
  firmware  : Option (Byte × Byte) := none
  faultBits : Option (BitVec 4) := none
  held      : Byte := 0
  confirmTime : Uptime := 0
  adoptionPending : Bool := false
  returnFlag : Bool := false
  retryTimer : Option Uptime := none
  pollTimer  : Option Uptime := none
  enrolHold  : Bool := false
  deriving DecidableEq, Repr

/-- The edge of a key event (section 1.3). -/
inductive Edge where
  | press | release
  deriving DecidableEq, Repr

/-- A key event (section 1.3): a key 1..8 and an edge. -/
structure KeyEvent where
  key  : Nat
  edge : Edge
  deriving DecidableEq, Repr

/-- Where the enrolment operation stands (R41, R42). -/
inductive EnrolPhase where
  | search | assign | confirm | deferred
  deriving DecidableEq, Repr

/-- The enrolment operation (R40 to R43). -/
structure Enrolment where
  addr     : Nat
  type     : NodeType
  phase    : EnrolPhase := .search
  serial   : Serial := 0
  firmware : Option (Byte × Byte) := none
  /-- The type code last reported to the operation, 0 where none was (R43). -/
  reported : Nat := 0
  retryTimer : Option Uptime := none
  deriving DecidableEq, Repr

/-! ## Channel engine (chapter 3) -/

inductive ChannelKind where
  | dim | switch | blind
  deriving DecidableEq, Repr

/-- A running fade (R47). -/
structure Fade where
  start  : Nat
  target : Nat
  step   : Nat
  total  : Nat
  deriving DecidableEq, Repr

/-- A staged target (R51): a conditioned level and fade time. -/
structure Staged where
  level : Nat
  fade  : Nat
  deriving DecidableEq, Repr

/-- A channel's configuration (R47), kept in the settings store. -/
structure ChannelConfig where
  num    : Nat
  node   : Nat
  index  : Nat
  kind   : ChannelKind
  rated  : Nat
  cls    : Nat
  floor  : Nat
  preset : Nat
  deriving DecidableEq, Repr

/-- A channel record (R47), with the working state R48 gives a new one. The output is computed (R50). -/
structure Channel where
  cfg       : ChannelConfig
  current   : Nat := 0
  target    : Nat := 0
  fade      : Option Fade := none
  staged    : Option Staged := none
  ceiling   : Nat := 1000
  lastSent  : Option Nat := none
  untouched : Bool := false
  reported  : Option Nat := none
  moving    : Bool := false
  deriving DecidableEq, Repr

/-! ## Scene engine (chapter 4) -/

/-- An entry of a scene (R67): a channel number and a level stored as given. -/
structure SceneEntry where
  channel : Nat
  level   : Nat
  deriving DecidableEq, Repr

/-- A scene (R67), its entries in ascending order of channel number. -/
structure Scene where
  num     : Nat
  fade    : Nat
  entries : List SceneEntry
  deriving DecidableEq, Repr

/-- An open scene build (R69). -/
structure SceneBuild where
  scene   : Nat
  fade    : Nat
  total   : Nat
  entries : List SceneEntry
  deriving DecidableEq, Repr

/-- The source of a take (R74): the host, or a binding slot. -/
inductive TakeSource where
  | host | slot (n : Nat)
  deriving DecidableEq, Repr

/-- The last-take record (R74). -/
structure LastTake where
  scene  : Nat
  source : TakeSource
  time   : Uptime
  count  : Nat
  deriving DecidableEq, Repr

/-- A deck resource of a DECK_FAULT event (R78). -/
inductive DeckResource where
  | hatch | platform | windlass | hpu
  deriving DecidableEq, Repr

/-- A deck event (R78). -/
inductive DeckEvent where
  | hatchOpened | hatchClosed | platformStowed | platformAtDeck | platformSubmerged
  | anchorHome | anchorAtTarget | fault (r : DeckResource)
  deriving DecidableEq, Repr

/-- A change of a load class (R78). -/
inductive ClassChange where
  | shed | restored
  deriving DecidableEq, Repr

/-- A crossing of a limit monitor (R111). -/
inductive Crossing where
  | aboveHigh | belowLow
  deriving DecidableEq, Repr

/-- A trigger, and the event that matches it: the two have the same fields (R78). -/
inductive Trigger where
  | key (addr key : Nat) (edge : Edge)
  | deck (event : DeckEvent)
  | shed (cls : Nat) (change : ClassChange)
  | sense (input : Nat) (crossing : Crossing)
  deriving DecidableEq, Repr

/-- The action of a binding (R77). -/
inductive Action where
  | takeScene (scene : Nat)
  | setChannel (channel level fade : Nat)
  | toggleChannel (channel : Nat)
  deriving DecidableEq, Repr

/-- An occupied binding slot (R77). -/
structure Binding where
  slot    : Nat
  trigger : Trigger
  action  : Action
  fires   : Nat := 0
  deriving DecidableEq, Repr

/-- The kinds of trigger (R78). -/
inductive TriggerKind where
  | key | deck | shed | sense
  deriving DecidableEq, Repr

/-- The kinds of action (R77). -/
inductive ActionKind where
  | takeScene | setChannel | toggleChannel
  deriving DecidableEq, Repr

/-- What READ_BINDING with slot 0 returns of an occupied slot: its number, its trigger kind, its action kind and its fire
count (R83). -/
structure BindingLine where
  slot    : Nat
  trigger : TriggerKind
  action  : ActionKind
  fires   : Nat
  deriving DecidableEq, Repr

/-! ## Load allocator (chapter 5) -/

inductive SupplySource where
  | shore | generator | inverter
  deriving DecidableEq, Repr

inductive ClassState where
  | normal | shed | restoring
  deriving DecidableEq, Repr

/-- A grant record (R92). -/
structure Grant where
  running : Nat
  inrush  : Nat
  time    : Uptime
  expiry  : Option Uptime
  deriving DecidableEq, Repr

/-- The requester of an admission (R97). -/
inductive Requester where
  | hpu | windlassStart | windlassStage
  deriving DecidableEq, Repr

inductive AdmissionResult where
  | granted | grantedAfterShed | refused
  deriving DecidableEq, Repr

/-- The last-admission record (R97). -/
structure Admission where
  requester : Requester
  request   : Nat
  headroom  : Int
  shortfall : Option Nat
  result    : AdmissionResult
  lowest    : Option Nat
  time      : Uptime
  deriving DecidableEq, Repr

/-- What sheds a class (R90), in the order of the codes of its notice. -/
inductive ShedCause where
  | review | hpuStart | windlassStart | windlassStage
  deriving DecidableEq, Repr

/-- The load allocator (R84). -/
structure Alloc where
  limit       : Nat := 0
  base        : Nat := 0
  source      : SupplySource := .shore
  margin      : Nat := 0
  hysteresis  : Nat := 500
  classes     : Vector ClassState 8 := .replicate 8 .normal
  hpuGrant    : Option Grant := none
  windlassGrant : Option Grant := none
  overLimit   : Nat := 0
  reviewTimer : Option Uptime := none
  lastAdmission : Option Admission := none
  deriving DecidableEq, Repr

/-! ## Sense unit (chapter 6) -/

/-- The settings record of an input (R114). -/
structure SenseSettings where
  low        : Int := 0
  high       : Int := 4095
  lowLimit   : Int := -32768
  highLimit  : Int := 32767
  hysteresis : Nat := 0
  deriving DecidableEq, Repr

/-- One analog input (R107, R111, R112). -/
structure SenseInput where
  settings    : SenseSettings := {}
  raw         : Raw := 0
  scaled      : Int := 0
  railCount   : Nat := 0
  faulted     : Bool := false
  highTripped : Bool := false
  lowTripped  : Bool := false
  deriving DecidableEq, Repr

/-- The figures of an input that READ_SENSE returns: raw and scaled value, fault state, rail count and the states of its two
monitors (R116). -/
structure SenseFigures where
  raw         : Raw
  scaled      : Int
  faulted     : Bool
  railCount   : Nat
  highTripped : Bool
  lowTripped  : Bool
  deriving DecidableEq, Repr

/-- The sense unit (chapter 6). The sweep timer runs from reset on, its first expiry at 10 ms (R106). -/
structure Sense where
  inputs     : Vector SenseInput 8 := .replicate 8 {}
  phase      : Nat := 0
  window     : List Nat := []
  sweepTimer : Uptime := 10
  deriving DecidableEq, Repr

/-! ## Deck machinery (chapters 7 and 8) -/

/-- The stop causes of R132 and R154, in the order of their codes 1..22. -/
inductive Cause where
  | target | ended | stopRequest | released | stationLost | hostLost | stationStop | modeStop
  | interlock | hpuFault | travelTimeout | stall | sensorFault | switchMissing | sensorDisagree
  | noPressure | overpressure | overload | jam | homeNotFound | supplyLow | rodeUncertain
  deriving DecidableEq, Repr

/-- A fault record, or a pending fault: the first cause and a later count (R123, R134, R155). -/
structure FaultRecord where
  cause : Cause
  later : Nat
  deriving DecidableEq, Repr

inductive HpuState where
  | off | starting | ready | runOn | fault
  deriving DecidableEq, Repr

/-- The hydraulic power unit (section 7.2). -/
structure Hpu where
  state      : HpuState := .off
  contactor  : Bool := false
  holder     : Option MoverId := none
  waiting    : Option MoverId := none
  readyTimer : Option Uptime := none
  runOnTimer : Option Uptime := none
  /-- Start time of the overpressure watch; absent while it is idle. -/
  overWatch  : Option Uptime := none
  fault      : Option FaultRecord := none
  settings   : HpuSettings := {}
  deriving DecidableEq, Repr

/-- The positions of the movers (R125), in the order of their codes 0..5. -/
inductive Position where
  | between | closed | opened | stowed | atDeck | submerged
  deriving DecidableEq, Repr

/-- The directions of the ownership records (R158). -/
inductive Direction where
  | opening | closing | up | down | out | inward
  deriving DecidableEq, Repr

inductive MotionKind where
  | target | jog
  deriving DecidableEq, Repr

inductive MoverState where
  | atRest | waitPump | moving | settling | fault
  deriving DecidableEq, Repr

/-- A mover's motion (section 7.4). The starting angle is recorded on entry to MOVING (R126). -/
structure Motion where
  kind       : MotionKind
  dir        : Direction
  goal       : Position
  stow       : Bool
  from_      : Position
  startAngle : Option Int := none
  deriving DecidableEq, Repr

/-- A stall watch that runs: its start time and its reference angle (R132). -/
structure StallWatch where
  start : Uptime
  ref   : Int
  deriving DecidableEq, Repr

/-- A mover's settings (R119). `low` and `high` are the angles of its lower and upper switch ends: closed and
open for the hatch, submerged and stowed for the platform; `deck` is the platform's deck angle (the hatch has none, 0). -/
structure MoverSettings where
  low     : Int
  deck    : Int
  high    : Int
  timeout : Nat
  deriving DecidableEq, Repr

/-- The defaults of the hatch record (R119). -/
def hatchDefaults : MoverSettings := ⟨0, 0, 1100, 60000⟩

/-- The defaults of the platform record (R119). -/
def platformDefaults : MoverSettings := ⟨-150, 0, 900, 90000⟩

/-- A mover controller (section 7.4). The outputs `raise` and `lower` are the valves OPEN and CLOSE of the
hatch, UP and DOWN of the platform; `lowSw` and `highSw` are the debounced states of its two end switches,
CLOSED and OPEN of the hatch, SUBMERGED and STOWED of the platform (R117). -/
structure Mover where
  state       : MoverState := .atRest
  position    : Position := .between
  motion      : Option Motion := none
  raise       : Bool := false
  lower       : Bool := false
  lowSw       : Bool := false
  highSw      : Bool := false
  travelTimer : Option Uptime := none
  stall       : Option StallWatch := none
  settleTimer : Option Uptime := none
  stopCause   : Option Cause := none
  /-- The later count of a stop cause that is a fault cause (R134). -/
  stopLater   : Nat := 0
  pendingFault : Option FaultRecord := none
  fault       : Option FaultRecord := none
  settings    : MoverSettings
  deriving DecidableEq, Repr

inductive WindlassState where
  | idle | starting | running | stopping | fault
  deriving DecidableEq, Repr

inductive RunKind where
  | seek | home | jog
  deriving DecidableEq, Repr

/-- A windlass run (section 8.3). `target` is the target in counts and `targetMm` the clamped target of a SEEK; a HOME or a JOG run,
which has neither, keeps 0 for both (DESIGN CHOICE, notes/assumptions/21.md). -/
structure Run where
  kind     : RunKind
  dir      : RodeDir
  target   : Int := 0
  targetMm : Int := 0
  asked    : Bool := false
  deriving DecidableEq, Repr

/-- The windlass controller (chapter 8). The stage is 2 while STAGE2 is closed and 1 otherwise. The two
deadband fields are the uptimes before which PAY_OUT and HEAVE may not close (R146), 500 at reset. -/
structure Windlass where
  state      : WindlassState := .idle
  run        : Option Run := none
  payOut     : Bool := false
  heave      : Bool := false
  stage2     : Bool := false
  brakeRelease : Bool := false
  brakeTimer : Option Uptime := none
  jamTimer   : Option Uptime := none
  delayTimer : Option Uptime := none
  overWatch  : Option Uptime := none
  lowWatch   : Option Uptime := none
  settleTimer : Option Uptime := none
  stopCause  : Option Cause := none
  /-- The later count of a stop cause that is a fault cause (R154). -/
  stopLater  : Nat := 0
  homeFlag   : Bool := false
  pendingFault : Option FaultRecord := none
  fault      : Option FaultRecord := none
  payOutFree : Uptime := 500
  heaveFree  : Uptime := 500
  count      : Count := 0
  /-- The direction of the last count step; absent until one has been seen since reset (R141). -/
  lastStep   : Option RodeDir := none
  decodeErrors : Nat := 0
  /-- The index capture FIFO, older count first (R142). -/
  fifo       : List Count := []
  rodeValid  : Bool := false
  rodeUncertain : Bool := false
  homeSw     : Bool := false
  settings   : WindlassSettings := {}
  deriving DecidableEq, Repr

/-! ## Ownership unit (chapter 9) -/

inductive Owner where
  | none | host | station (addr : Nat)
  deriving DecidableEq, Repr

/-- The target a host motion records (R158): a position, or a rode in mm. -/
inductive HostTarget where
  | position (p : Position)
  | rode (mm : Int)
  deriving DecidableEq, Repr

/-- An ownership record (R158). -/
structure OwnerRecord where
  owner    : Owner := .none
  dir      : Option Direction := none
  target   : Option HostTarget := none
  acquired : Option Uptime := none
  key      : Option Nat := none
  confirm  : Option Uptime := none
  stopDelivered : Bool := false
  deriving DecidableEq, Repr

/-- The functions of a station key (R160), in the order of their codes. -/
inductive KeyFunction where
  | none | hatchOpen | hatchClose | platformUp | platformDown | anchorOut | anchorIn
  deriving DecidableEq, Repr

/-- The mark of a spent key (R162). -/
inductive SpentMark where
  | used | denied
  deriving DecidableEq, Repr

/-- What the ownership unit keeps for one STATION record: its key map (R160), its spent set by key 1..6 (R162)
and the lamp states last delivered (R169). -/
structure Station where
  addr      : Nat
  map       : Vector KeyFunction 6 := .replicate 6 .none
  spent     : Vector (Option SpentMark) 6 := .replicate 6 Option.none
  delivered : Option (Vector Lamp 8) := Option.none
  deriving DecidableEq, Repr

/-! ## Settings store (section 11.4) -/

/-- The contents of a stored image: the configuration (R190). -/
structure Image where
  nodes     : List (Nat × NodeType × Serial) := []
  channels  : List ChannelConfig := []
  scenes    : List Scene := []
  bindings  : List (Nat × Trigger × Action) := []
  maps      : List (Nat × Vector KeyFunction 6) := []
  margin    : Nat := 0
  hysteresis : Nat := 500
  sense     : Vector SenseSettings 8 := .replicate 8 {}
  hpu       : HpuSettings := {}
  hatch     : MoverSettings := hatchDefaults
  platform  : MoverSettings := platformDefaults
  windlass  : WindlassSettings := {}
  roomline  : RoomlineSettings := {}
  autoStart : Bool := false
  deriving DecidableEq, Repr

/-- The settings store (R190, R191): the store state, the contents of the stored image, its stored CRC-32, and the content a
running save has taken. The contents are absent where the store holds no whole image: a blank store, a save under way and
one that failed (notes/assumptions/3.md). -/
structure Store where
  state  : StoreState := .invalid
  image  : Option Image := none
  crc    : BitVec 32 := 0
  saving : Option Image := none
  deriving DecidableEq, Repr

/-! ## Replies (R174) -/

/-- The number of things a removal took with it (R45, R66). -/
structure Removed where
  channels : Nat := 0
  entries  : Nat := 0
  scenes   : Nat := 0
  bindings : Nat := 0
  deriving DecidableEq, Repr

/-- The answer to READ_ROOMLINE (R25). -/
structure RoomlineView where
  settings : RoomlineSettings
  state    : BusState
  runs     : Nat
  classA   : Nat
  classB   : Nat
  classC   : Nat
  pendingRelease : Bool
  inFlight : Option (TxKind × Nat)
  deriving DecidableEq, Repr

/-- The answer to READ_ALLOCATION (R105). -/
structure AllocView where
  limit  : Nat
  base   : Nat
  source : SupplySource
  margin : Nat
  hysteresis : Nat
  committed : Nat
  measured  : Nat
  effective : Nat
  headroom  : Int
  classes   : List (ClassState × Nat × Nat)
  hpu       : Option (Nat × Nat × Nat)
  windlass  : Option (Nat × Nat × Nat)
  overLimit : Nat
  review    : Option Nat
  last      : Option Admission
  deriving DecidableEq, Repr

/-- A mover's part of READ_DECK (R138): its record, the remaining times, the stall watch's elapsed time, the
angle of the last sweep and the ownership record. -/
structure MoverView where
  mover  : Mover
  travel : Option Nat
  settle : Option Nat
  stall  : Option Nat
  angle  : Int
  owner  : OwnerRecord
  deriving DecidableEq, Repr

/-- The HPU's part of READ_DECK (R138). -/
structure HpuView where
  hpu      : Hpu
  ready    : Option Nat
  runOn    : Option Nat
  overElapsed : Option Nat
  pressure : Int
  granted  : Bool
  deriving DecidableEq, Repr

/-- The windlass's part of READ_DECK (R157). -/
structure WindlassView where
  windlass : Windlass
  stage    : Option Nat
  rode     : Int
  brake    : Option Nat
  jam      : Option Nat
  delay    : Option Nat
  settle   : Option Nat
  overElapsed : Option Nat
  lowElapsed  : Option Nat
  payOutDeadband : Nat
  heaveDeadband  : Nat
  current  : Int
  owner    : OwnerRecord
  deriving DecidableEq, Repr

/-- The data a reply carries after its status (R174), as the owning chapters give it. -/
inductive ReplyData where
  | none
  | status (mode : Mode) (cause : ResetCause) (notices overflow : Nat) (store : StoreState) (uptime : Uptime)
  | notices (overflow : Nat) (records : List Notice) (left : Nat)
  | linkStats (gap crc framing : Nat)
  | supervision (period : Nat)
  | invalid (kind index : Nat)
  | roomline (view : RoomlineView)
  | removed (counts : Removed)
  | node (record : NodeRecord) (retry poll : Option Nat)
  | nodeList (nodes : List (Nat × NodeState))
  | channelStored (floor preset : Nat)
  | staged (level fade : Nat)
  | channel (record : Channel) (output estimate full : Nat)
  | channelList (count : Nat) (channels : List (Nat × Nat × Nat × Nat))
  | sceneProgress (received total : Nat)
  | sceneStored (entries free : Nat)
  | sceneRemoved (freed free bindings : Nat)
  | scene (num fade total first : Nat) (entries : List SceneEntry)
  | sceneList (used free : Nat) (last : Option LastTake) (build : Option (Nat × Nat × Nat)) (scenes : List (Nat × Nat))
  | taken (count : Nat)
  | bindingStored (fade : Nat)
  | binding (record : Binding)
  | bindingList (count : Nat) (bindings : List BindingLine)
  | supply (limit base : Nat)
  | allocation (view : AllocView)
  | sense (inputs : List SenseFigures) (average samples phase : Nat)
  | senseOne (input : SenseFigures) (settings : SenseSettings) (average samples phase : Nat)
  | mover (view : MoverView)
  | hpu (view : HpuView)
  | windlass (view : WindlassView)
  | deckSummary (hatch platform : MoverState × Position) (hpu : HpuState) (windlass : WindlassState)
  | seek (targetMm counts : Int)
  | rode (count rode : Int)
  | station (map : Vector KeyFunction 6) (held : Byte) (confirm : Uptime) (spent : Vector (Option SpentMark) 6)
      (lamps : Vector Lamp 8) (delivered : Option (Vector Lamp 8))
  deriving DecidableEq, Repr

/-- A reply (R174): the kind byte it carries, the request's tag, the status and the data. `queued` is set when the
request it answers came in a frame of the request queue. -/
structure Reply where
  kind   : Byte
  tag    : Byte
  status : Status
  data   : ReplyData := .none
  queued : Bool := false
  deriving DecidableEq, Repr

/-! ## Link port (chapter 10) -/

/-- The phases of the receiver (R172); BODY with the number of bytes still to come. -/
inductive RxPhase where
  | hunt | length | body (left : Nat) | check
  deriving DecidableEq, Repr

/-- The frame in assembly (R172): the bytes received from the length byte on. -/
structure Receiver where
  phase : RxPhase := .hunt
  bytes : List Byte := []
  deriving DecidableEq, Repr

/-- A good frame in the request queue (R173). `served` is set when its reply has been made. -/
structure QueuedFrame where
  kind    : Byte
  tag     : Byte
  payload : List Byte
  served  : Bool := false
  deriving DecidableEq, Repr

/-- The host link rates of section 2 of the scope file. -/
inductive LinkRate where
  | r115200 | r230400 | r460800 | r921600
  deriving DecidableEq, Repr

/-- The link port (chapter 10). -/
structure Link where
  rate        : LinkRate := .r115200
  rx          : Receiver := {}
  requests    : List QueuedFrame := []
  /-- The request handed to its owning block and not yet answered, as the command that serves it (R174). -/
  handed      : Option Instr := none
  /-- Waiting QUEUE_FULL replies, oldest first: kind and tag of each (R173). -/
  fullReplies : List (Byte × Byte) := []
  /-- Replies made and waiting for the reply path (R173). -/
  replies     : List Reply := []
  /-- The reply being sent (R173). -/
  sending     : Option Reply := none
  notices     : List Notice := []
  overflow    : Nat := 0
  period      : Nat := 0
  supervision : Option Uptime := none
  gapErrors   : Nat := 0
  crcErrors   : Nat := 0
  framingErrors : Nat := 0
  /-- Set when the reply OK to RESTART has been sent: the reset is due (R182). -/
  restartDue  : Bool := false
  deriving DecidableEq, Repr

end Sys2Proof.Machine
end

