-- ==== Sys2Proof/Config.lean ====
section
/-!
DEFINITION. The free values: what the manual leaves open and the part nevertheless produces. Each is an opaque
constant with no body, applied to what it depends on, so that nothing in Lean can evaluate it or prove a value of it.
-/

namespace Sys2Proof.Config

open Sys2Proof.Machine

/-- The bytes the settings store lays an image out in, over which its CRC-32 is computed (R190): the manual gives
the CRC and what the image holds, and no byte layout (notes/assumptions/3.md). -/
opaque imageBytes : Image → List Byte

/-- The bytes of a reply whose layout the manual does not give: it names the items a read returns, and their sizes
only for STATUS, READ_NOTICES, LINK_STATS, SET_SUPERVISION, INVALID and READ_ALLOCATION (notes/assumptions/4.md). -/
opaque replyLayout : ReplyData → List Byte

/-- What a signed field of a notice or a reply of `bytes` bytes carries for a value that does not fit it (notes/assumptions/5.md). -/
opaque fieldOverflow : (bytes : Nat) → (value : Int) → BitVec (8 * bytes)

/-- What an unsigned field of a reply of `bytes` bytes carries for a figure that does not fit it (notes/assumptions/5.md). -/
opaque figureOverflow : (bytes : Nat) → (value : Nat) → BitVec (8 * bytes)

/-- The requester, request and headroom bytes of READ_ALLOCATION's last admission after a present flag of 0: the manual states
them for a record that is present only (R105; notes/assumptions/4.md). -/
opaque absentRequest : Vector Byte 9

/-- The result byte of READ_ALLOCATION's last admission after a present flag of 0 (R105; notes/assumptions/4.md). -/
opaque absentResult : Byte

end Sys2Proof.Config
end

