-- ==== Sys2Proof/Machine/Bytes.lean ====
section
/-!
DEFINITION. Byte order, the three check sums of the manual and its two rounding rules.
-/

namespace Sys2Proof.Machine

/-- The `n` low-order bytes of `v`, low byte first (section 3.1 of the scope file). -/
def leBytes : (n : Nat) → (v : Nat) → List Byte
  | 0, _ => []
  | n + 1, v => BitVec.ofNat 8 v :: leBytes n (v / 256)

/-- The number a little-endian field spells. -/
def leNat : List Byte → Nat
  | [] => 0
  | b :: bs => b.toNat + 256 * leNat bs

/-- The two's complement number a little-endian field spells (R171). -/
def leInt (bs : List Byte) : Int :=
  if 2 * leNat bs < 256 ^ bs.length then (leNat bs : Int) else (leNat bs : Int) - 256 ^ bs.length

/-- A signed field of `n` bytes, low byte first. A value outside the field's range gives a free value (notes/assumptions/5.md). -/
def leSigned (n : Nat) (v : Int) : List Byte :=
  if -(256 ^ n : Int) ≤ 2 * v ∧ 2 * v < 256 ^ n then leBytes n (v % (256 ^ n : Int)).toNat
  else leBytes n (Config.fieldOverflow n v).toNat

/-- An unsigned field of `n` bytes, low byte first. A value outside the field's range gives a free value (notes/assumptions/5.md). -/
def leFigure (n : Nat) (v : Nat) : List Byte :=
  if v < 256 ^ n then leBytes n v else leBytes n (Config.figureOverflow n v).toNat

/-! ## Check sums -/

/-- One bit of the CRC-8 of R4: polynomial 0x07, most significant bit first. -/
def crc8Bit (c : BitVec 8) : BitVec 8 := if c.msb then (c <<< 1) ^^^ 0x07 else c <<< 1

/-- One byte of the CRC-8 of R4. -/
def crc8Byte (c : BitVec 8) (b : Byte) : BitVec 8 := Nat.repeat crc8Bit 8 (c ^^^ b)

/-- The check byte of a Roomline transaction (R4): CRC-8, polynomial 0x07, initial value 0xFF. -/
def crc8 (bs : List Byte) : BitVec 8 := bs.foldl crc8Byte 0xFF

/-- One bit of the CRC-16 of R171: polynomial 0x1021, most significant bit first. -/
def crc16Bit (c : BitVec 16) : BitVec 16 := if c.msb then (c <<< 1) ^^^ 0x1021 else c <<< 1

/-- One byte of the CRC-16 of R171. -/
def crc16Byte (c : BitVec 16) (b : Byte) : BitVec 16 := Nat.repeat crc16Bit 8 (c ^^^ (b.setWidth 16 <<< 8))

/-- The CRC-16 of a host frame (R171): polynomial 0x1021, initial value 0xFFFF. -/
def crc16 (bs : List Byte) : BitVec 16 := bs.foldl crc16Byte 0xFFFF

/-- One bit of the reflected CRC-32 of R190: polynomial 0x04C11DB7 reflected, least significant bit first. -/
def crc32Bit (c : BitVec 32) : BitVec 32 := if c.getLsbD 0 then (c >>> 1) ^^^ 0xEDB88320 else c >>> 1

/-- One byte of the CRC-32 of R190. -/
def crc32Byte (c : BitVec 32) (b : Byte) : BitVec 32 := Nat.repeat crc32Bit 8 (c ^^^ b.setWidth 32)

/-- The CRC-32 of the stored image (R190): initial value 0xFFFFFFFF, bytes and result reflected, final inversion. -/
def crc32 (bs : List Byte) : BitVec 32 := ~~~ (bs.foldl crc32Byte 0xFFFFFFFF)

/-! ## Rounding (section 3.4 of the scope file) -/

/-- The quotient rounded half away from zero. -/
def roundDiv (n : Int) (d : Nat) : Int :=
  if 0 ≤ n then ((2 * n.natAbs + d) / (2 * d) : Nat) else -((2 * n.natAbs + d) / (2 * d) : Nat)

/-- The quotient truncated towards zero. -/
def truncDiv (n : Int) (d : Nat) : Int := n.tdiv d

/-- The least whole number not below the quotient. -/
def ceilDiv (n d : Nat) : Nat := (n + d - 1) / d

end Sys2Proof.Machine
end

