-- ==== Sys2Proof/Machine/State.lean ====
section
/-!
DEFINITION. The state of the SNG-2418 as plain data, the reasons a step could stop, and the state right after a hard
reset. Every field's default is its reset value; Records.lean holds the blocks' records.
-/

namespace Sys2Proof.Machine

/-- Why a step could fault. No command of this block does: every row of the table has an effect, so `exec` never
answers with it. -/
inductive Fault where
  /-- Raised by no command; it stands here because the host's interface asks for a type of fault reasons. Safe. -/
  | unused
  deriving DecidableEq, Repr

/-- Why a step could be refused. -/
inductive Refusal where
  /-- A command whose meaning is not modelled. Raised by no arm of `exec`: every row has its meaning. Safe. -/
  | notModelled (mnemonic : String)
  deriving DecidableEq, Repr

/-- The state of the part and the commands that wait for it. -/
structure State where
  /-- The commands that wait, first in, first out (the model's own field). -/
  pending    : List Instr := []
  /-- The free-running uptime counter (section 3.3 of the scope file). -/
  uptime     : Uptime := 0
  mode       : Mode := .config
  resetCause : ResetCause := .power
  autoStart  : Bool := false
  store      : Store := {}
  /-- Whether the image check of the last reset found the image valid (R193). -/
  bootValid  : Bool := false
  /-- The moment of the start attempt after a reset, uptime 30; absent once the attempt has been made (R193). -/
  bootTimer  : Option Uptime := some 30
  link       : Link := {}
  bus        : Bus := {}
  nodes      : List NodeRecord := []
  enrolment  : Option Enrolment := none
  channels   : List Channel := []
  /-- The next expiry of the refresh timer (R52); absent while it is stopped. -/
  refresh    : Option Uptime := none
  scenes     : List Scene := []
  build      : Option SceneBuild := none
  lastTake   : Option LastTake := none
  bindings   : List Binding := []
  alloc      : Alloc := {}
  sense      : Sense := {}
  hpu        : Hpu := {}
  hatch      : Mover := { settings := hatchDefaults }
  platform   : Mover := { settings := platformDefaults }
  windlass   : Windlass := {}
  hatchOwner    : OwnerRecord := {}
  platformOwner : OwnerRecord := {}
  windlassOwner : OwnerRecord := {}
  stations   : List Station := []
  deriving DecidableEq, Repr

/-- The machine right after a power-on reset that finds no valid stored image, with both straps low: R193 steps 1 to 5.
STORE_INVALID is posted, and one RELEASE waits in the Roomline queue. That the store is found invalid is the model's
choice of the two cases R193 gives (notes/assumptions/1.md). The platform's position is AT_DECK: neither switch is ACTIVE, and its angle reads 0,
the default deck angle (R108, R119, R125, R126). -/
def State.reset : State :=
  { link := { notices := [⟨.storeInvalid, 0, [], 0⟩] }
    platform := { position := .atDeck, settings := platformDefaults }
    bus := { queue := [⟨.c, .release, 0, none, 0, false, false, false, false⟩] } }

/-- What a command's meaning answers. -/
abbrev Outcome := Host.Outcome State Fault Refusal

end Sys2Proof.Machine
end

