-- ==== Sys2Proof/Machine/Ops.lean ====
section
/-!
DEFINITION. The shared operations every block uses: the uptime counter and its timers, the tables kept in ascending
order, the notice queue, the outbound transaction queue's request, and the release of an ownership record.
-/

namespace Sys2Proof.Machine

/-! ## Time (R1) -/

/-- The time elapsed from the earlier reading to the later, modulo 2^32 (R1). -/
def elapsed (earlier later : Uptime) : Nat := (later - earlier).toNat

/-- Whether the moment `e` has been reached at `now`: of the two readings the one less than 2^31 ms behind the other
is the earlier (R1; notes/assumptions/6.md). -/
def reached (e now : Uptime) : Bool := elapsed e now < 2 ^ 31

/-- The ms from `now` to the expiry `e`, 0 once it has been reached. -/
def remaining (now e : Uptime) : Nat := if reached e now then 0 else elapsed now e

/-- The reading `ms` after `t`. -/
def later (t : Uptime) (ms : Nat) : Uptime := t + BitVec.ofNat 32 ms

/-- The uptime `ms` from now. -/
def State.after (s : State) (ms : Nat) : Uptime := later s.uptime ms

/-- The state at the moment `e`: an expiry event shows that the uptime has come to its expiry. The counter never moves
back, so an expiry taken late leaves it (notes/assumptions/7.md). -/
def State.atMoment (s : State) (e : Uptime) : State := if reached e s.uptime then s else { s with uptime := e }

/-- A watch at a sweep: it starts at the first sweep at which its condition holds, goes idle at any at which it does not,
and trips at the first at least `limit` ms after its start (R123, R154). The answer is the watch after the sweep, idle once
it has tripped, and whether it tripped. -/
def watchStep (now : Uptime) (holds : Bool) (limit : Nat) (w : Option Uptime) : Option Uptime × Bool :=
  match holds, w with
  | false, _ => (none, false)
  | true, none => (some now, false)
  | true, some t => if limit ≤ elapsed t now then (none, true) else (some t, false)

/-! ## Tables in ascending order of a key -/

/-- The item of a table under a key. -/
def tableGet {α : Type} (key : α → Nat) (k : Nat) (t : List α) : Option α := t.find? fun x => key x == k

/-- The table with an item put in its place by its key, replacing an item of the same key. -/
def tablePut {α : Type} (key : α → Nat) (x : α) : List α → List α
  | [] => [x]
  | y :: ys =>
    if key x < key y then x :: y :: ys
    else if key x = key y then x :: ys
    else y :: tablePut key x ys

/-- The table with the item under a key changed in place. -/
def tableModify {α : Type} (key : α → Nat) (k : Nat) (f : α → α) (t : List α) : List α :=
  t.map fun x => if key x = k then f x else x

/-- The table without the item under a key. -/
def tableErase {α : Type} (key : α → Nat) (k : Nat) (t : List α) : List α := t.filter fun x => key x ≠ k

/-- The node record at an address (R26). -/
def State.node (s : State) (a : Nat) : Option NodeRecord := tableGet (·.addr) a s.nodes

/-- A change of one node record. -/
def State.onNode (s : State) (a : Nat) (f : NodeRecord → NodeRecord) : State :=
  { s with nodes := tableModify (·.addr) a f s.nodes }

/-- The channel record of a number (R47). -/
def State.channel (s : State) (c : Nat) : Option Channel := tableGet (·.cfg.num) c s.channels

/-- A change of one channel record. -/
def State.onChannel (s : State) (c : Nat) (f : Channel → Channel) : State :=
  { s with channels := tableModify (·.cfg.num) c f s.channels }

/-- A change of every channel record. -/
def State.onChannels (s : State) (f : Channel → Channel) : State := { s with channels := s.channels.map f }

/-- The scene of a number (R67). -/
def State.scene (s : State) (n : Nat) : Option Scene := tableGet (·.num) n s.scenes

/-- The binding in a slot (R77). -/
def State.binding (s : State) (n : Nat) : Option Binding := tableGet (·.slot) n s.bindings

/-- What the ownership unit keeps for a station (R160). -/
def State.station (s : State) (a : Nat) : Option Station := tableGet (·.addr) a s.stations

/-- A change of what the ownership unit keeps for one station. -/
def State.onStation (s : State) (a : Nat) (f : Station → Station) : State :=
  { s with stations := tableModify (·.addr) a f s.stations }

/-- The sense input of a number 1..8 (R106). -/
def State.input (s : State) (i : Nat) : SenseInput := (s.sense.inputs[i - 1]?).getD {}

/-- A change of one sense input. -/
def State.onInput (s : State) (i : Nat) (f : SenseInput → SenseInput) : State :=
  { s with sense := { s.sense with inputs := s.sense.inputs.setIfInBounds (i - 1) (f (s.input i)) } }

/-- The mover controller of a mover. -/
def State.mover (s : State) : MoverId → Mover
  | .hatch => s.hatch
  | .platform => s.platform

/-- A change of one mover controller. -/
def State.onMover (s : State) (m : MoverId) (f : Mover → Mover) : State :=
  match m with
  | .hatch => { s with hatch := f s.hatch }
  | .platform => { s with platform := f s.platform }

/-- The other mover. -/
def otherMover : MoverId → MoverId
  | .hatch => .platform
  | .platform => .hatch

/-- The motion resource of a mover. -/
def moverResource : MoverId → Resource
  | .hatch => .hatch
  | .platform => .platform

/-- The ownership record of a resource (R158). -/
def State.ownerOf (s : State) : Resource → OwnerRecord
  | .hatch => s.hatchOwner
  | .platform => s.platformOwner
  | .windlass => s.windlassOwner

/-- A change of one ownership record. -/
def State.onOwner (s : State) (r : Resource) (f : OwnerRecord → OwnerRecord) : State :=
  match r with
  | .hatch => { s with hatchOwner := f s.hatchOwner }
  | .platform => { s with platformOwner := f s.platformOwner }
  | .windlass => { s with windlassOwner := f s.windlassOwner }

/-- A resource has reported rest or FAULT: its record returns to owner NONE, every optional field absent and the
stop-delivered flag clear (R159). -/
def State.releaseOwner (s : State) (r : Resource) : State := s.onOwner r fun _ => {}

/-- A change of the link port. -/
def State.onLink (s : State) (f : Link → Link) : State := { s with link := f s.link }

/-- A change of the Roomline controller. -/
def State.onBus (s : State) (f : Bus → Bus) : State := { s with bus := f s.bus }

/-- A change of the load allocator. -/
def State.onAlloc (s : State) (f : Alloc → Alloc) : State := { s with alloc := f s.alloc }

/-- A change of the sense unit. -/
def State.onSense (s : State) (f : Sense → Sense) : State := { s with sense := f s.sense }

/-- A change of the HPU controller. -/
def State.onHpu (s : State) (f : Hpu → Hpu) : State := { s with hpu := f s.hpu }

/-- A change of the windlass controller. -/
def State.onWindlass (s : State) (f : Windlass → Windlass) : State := { s with windlass := f s.windlass }

/-! ## The notice queue (R176) -/

/-- The link port after a notice has been posted: it joins at the back, or, with 32 records held, is discarded with
the overflow count raised, saturating at 255. -/
def Link.post (l : Link) (n : Notice) : Link :=
  if l.notices.length < 32 then { l with notices := l.notices ++ [n] }
  else { l with overflow := min (l.overflow + 1) 255 }

/-- A block posts a notice with the present uptime (R176). -/
def State.post (s : State) (kind : NoticeKind) (source : Nat) (data : List Byte) : State :=
  { s with link := s.link.post ⟨kind, source, data, s.uptime⟩ }

/-! ## Requests to queue a transaction (R17, R18, R23) -/

/-- Whether a save of the settings is running (R190). -/
def State.saving (s : State) : Bool := s.store.state = .saving

/-- The class of a transaction (section 1.6): STATUS to a STATION and LAMPS are A, LEVELS is B, the rest is C. -/
def State.txClass (s : State) (kind : TxKind) (target : Nat) : TxClass :=
  match kind with
  | .lamps => .a
  | .levels => .b
  | .status => if (s.node target).any (fun r => r.type = .station) then .a else .c
  | _ => .c

/-- Whether a kind is absorbed by an entry of its own kind for the same node: LEVELS, LAMPS and STATUS (R17). -/
def TxKind.merges : TxKind → Bool
  | .levels | .lamps | .status => true
  | _ => false

/-- Whether an entry is of a kind and for a target. -/
def Entry.isFor (e : Entry) (kind : TxKind) (target : Nat) : Bool := e.kind = kind ∧ e.target = target

/-- The entry after a request of its own kind for its node: an entry in flight of a kind that carries values takes the
follow-up mark, and every other absorbs the request unchanged (R17). -/
def Entry.absorb (e : Entry) : Entry :=
  if e.inFlight ∧ e.kind ≠ .status then { e with followUp := true } else e

/-- Whether the mode lets a request into the queue: every kind in RUN and STOPPING, and in CONFIG only IDENTIFY and
ASSIGN of the enrolment operation (R23). -/
def State.modeTakes (s : State) (kind : TxKind) (enrol : Bool) : Bool :=
  s.mode ≠ .config ∨ (enrol ∧ (kind = .identify ∨ kind = .assign))

/-- A block asks the Roomline controller to queue a transaction (R17, R18). -/
def State.queueTx (s : State) (kind : TxKind) (target : Nat) (assign : Option (Nat × Serial) := none)
    (enrol : Bool := false) : State × QueueAnswer :=
  if s.bus.state = .recovery then (s, .refusedRecovery)
  else if ¬ s.modeTakes kind enrol then (s, .refusedMode)
  else if kind.merges ∧ s.bus.queue.any (fun e => e.isFor kind target) then
    (s.onBus fun b => { b with queue := b.queue.map fun e => if e.isFor kind target then e.absorb else e }, .taken)
  else if 16 ≤ s.bus.queue.length then (s, .refusedFull)
  else
    (s.onBus fun b => { b with queue := b.queue ++
      [{ cls := s.txClass kind target, kind := kind, target := target, assign := assign, queued := s.uptime,
         enrol := enrol }] }, .taken)

/-- A request whose refusal its block does not act on: LEVELS, LAMPS and polls (R18). -/
def State.askTx (s : State) (kind : TxKind) (target : Nat) : State := (s.queueTx kind target).1

/-! ## The answer to a request (R173, R174) -/

/-- A request served by its owning block: the state after it, the status and the data of its reply. -/
structure Served where
  state  : State
  status : Status
  data   : ReplyData := .none

/-- A refused request: nothing changes (R174). -/
def State.refuse (s : State) (st : Status) : Served := ⟨s, st, .none⟩

/-- An accepted request whose reply carries the status alone. -/
def State.accept (s : State) : Served := ⟨s, .ok, .none⟩

/-- A request accepted in CONFIG only, and refused with BUSY while a save runs (the table of R183). -/
def State.configEdit (s : State) (k : Served) : Served :=
  if s.mode ≠ .config then s.refuse .wrongMode
  else if s.saving then s.refuse .busy
  else k

end Sys2Proof.Machine
end

