-- ==== Sys2Proof/Machine/Operands.lean ====
section
/-!
DEFINITION. The codes of the manual's named sets, the operand forms of the requests and of the Roomline bytes, the
conditioning of levels, and the payload layouts of R184: which command serves a request frame.
-/

namespace Sys2Proof.Machine

/-! ## Codes the part sends -/

/-- The mode codes of R180. -/
def Mode.code : Mode → Nat | .config => 0 | .run => 1 | .stopping => 2

/-- The reset cause codes of R180. -/
def ResetCause.code : ResetCause → Nat | .power => 0 | .pin => 1 | .restart => 2

/-- The store state codes of R190. -/
def StoreState.code : StoreState → Nat | .valid => 0 | .invalid => 1 | .saving => 2

/-- The status codes of R174. -/
def Status.code : Status → Nat
  | .ok => 0x00 | .unknownKind => 0x01 | .badLength => 0x02 | .badValue => 0x03 | .wrongMode => 0x04 | .busy => 0x05
  | .notFound => 0x06 | .full => 0x07 | .inUse => 0x08 | .interlock => 0x09 | .noBudget => 0x0A | .notOwner => 0x0B
  | .notReady => 0x0C | .faulted => 0x0D | .invalid => 0x0E | .queueFull => 0x0F | .conditionPresent => 0x10

/-- The notice codes of section 10.4. -/
def NoticeKind.code : NoticeKind → Nat
  | .nodeLost => 1 | .nodeBack => 2 | .nodeMismatch => 3 | .enrolDone => 4 | .enrolFailed => 5 | .busFault => 6
  | .busRecovered => 7 | .shed => 8 | .restored => 9 | .overLimit => 10 | .motionDone => 11 | .motionStopped => 12
  | .deckFault => 13 | .hpuFault => 14 | .slip => 15 | .anchorHome => 16 | .anchorAtTarget => 17 | .senseLimit => 18
  | .senseFault => 19 | .senseOk => 20 | .hostLost => 21 | .modeChanged => 22 | .storeDone => 23 | .storeFailed => 24
  | .storeInvalid => 25 | .startFailed => 26

/-- The stop cause codes of R132 and R154. -/
def Cause.code : Cause → Nat
  | .target => 1 | .ended => 2 | .stopRequest => 3 | .released => 4 | .stationLost => 5 | .hostLost => 6
  | .stationStop => 7 | .modeStop => 8 | .interlock => 9 | .hpuFault => 10 | .travelTimeout => 11 | .stall => 12
  | .sensorFault => 13 | .switchMissing => 14 | .sensorDisagree => 15 | .noPressure => 16 | .overpressure => 17
  | .overload => 18 | .jam => 19 | .homeNotFound => 20 | .supplyLow => 21 | .rodeUncertain => 22

/-- Whether a stop cause is a fault cause, one that sends its resource to FAULT (R132, R154). -/
def Cause.isFault : Cause → Bool
  | .travelTimeout | .stall | .sensorFault | .switchMissing | .sensorDisagree
  | .overload | .jam | .homeNotFound | .supplyLow => true
  | _ => false

/-- The position codes of R125. -/
def Position.code : Position → Nat
  | .between => 0 | .closed => 1 | .opened => 2 | .stowed => 3 | .atDeck => 4 | .submerged => 5

/-- The resource codes of R125. -/
def DeckResource.code : DeckResource → Nat | .hatch => 1 | .platform => 2 | .windlass => 3 | .hpu => 4

/-- The deck resource of a mover. -/
def moverDeck : MoverId → DeckResource | .hatch => .hatch | .platform => .platform

/-- The outcome codes of R33. -/
def TxOutcome.code : TxOutcome → Nat
  | .done => 0 | .noAckHead => 1 | .noAckData => 2 | .checkFail => 3 | .timeoutByte => 4 | .timeoutTransaction => 5
  | .busFault => 6

/-- The node type codes of section 1.3. -/
def NodeType.code : NodeType → Nat | .dimmer4 => 1 | .switch8 => 2 | .blind2 => 3 | .keypad => 4 | .station => 5

/-- The Roomline kind codes of section 1.3. -/
def TxKind.code : TxKind → Nat
  | .identify => 0x01 | .assign => 0x02 | .setup => 0x03 | .levels => 0x04 | .lamps => 0x05 | .status => 0x06
  | .release => 0x08

/-- Whether a kind is a read: IDENTIFY and STATUS (section 1.3). -/
def TxKind.isRead : TxKind → Bool
  | .identify | .status => true
  | _ => false

/-- The lamp codes of section 1.3. -/
def Lamp.code : Lamp → Nat | .off => 0 | .steady => 1 | .slow => 2 | .fast => 3

/-- The fallback codes of SETUP (section 1.3) and SET_ROOMLINE (R184). -/
def Fallback.code : Fallback → Nat | .hold => 0 | .preset => 1

/-- The shed cause codes of R90. -/
def ShedCause.code : ShedCause → Nat | .review => 1 | .hpuStart => 2 | .windlassStart => 3 | .windlassStage => 4

/-- The supply source codes of R105. -/
def SupplySource.code : SupplySource → Nat | .shore => 0 | .generator => 1 | .inverter => 2

/-- The class state codes of R105. -/
def ClassState.code : ClassState → Nat | .normal => 0 | .shed => 1 | .restoring => 2

/-- The requester codes of R105. -/
def Requester.code : Requester → Nat | .hpu => 1 | .windlassStart => 2 | .windlassStage => 3

/-- The result codes of R105. -/
def AdmissionResult.code : AdmissionResult → Nat | .granted => 1 | .grantedAfterShed => 2 | .refused => 3

/-! ## Codes the part reads -/

/-- The node type of a code 1..5. -/
def nodeType? : Nat → Option NodeType
  | 1 => some .dimmer4 | 2 => some .switch8 | 3 => some .blind2 | 4 => some .keypad | 5 => some .station
  | _ => none

/-- The fallback of a code of SET_ROOMLINE. -/
def fallback? : Nat → Option Fallback | 0 => some .hold | 1 => some .preset | _ => none

/-- The channel kind of a code of DEFINE_CHANNEL (R184). -/
def channelKind? : Nat → Option ChannelKind | 1 => some .dim | 2 => some .switch | 3 => some .blind | _ => none

/-- The supply source of a code of SET_SUPPLY (R184). -/
def source? : Nat → Option SupplySource | 0 => some .shore | 1 => some .generator | 2 => some .inverter | _ => none

/-- The mover of a resource code. -/
def mover? : Nat → Option MoverId | 1 => some .hatch | 2 => some .platform | _ => none

/-- The deck resource of a resource code. -/
def deckResource? : Nat → Option DeckResource
  | 1 => some .hatch | 2 => some .platform | 3 => some .windlass | 4 => some .hpu
  | _ => none

/-- The target of a MOVE, when it is an end of the mover (R128). -/
def moveTarget? : MoverId → Nat → Option Position
  | .hatch, 1 => some .closed | .hatch, 2 => some .opened
  | .platform, 3 => some .stowed | .platform, 4 => some .atDeck | .platform, 5 => some .submerged
  | _, _ => none

/-- The function of a code of SET_STATION_MAP (R160). -/
def keyFunction? : Nat → Option KeyFunction
  | 0 => some .none | 1 => some .hatchOpen | 2 => some .hatchClose | 3 => some .platformUp | 4 => some .platformDown
  | 5 => some .anchorOut | 6 => some .anchorIn
  | _ => Option.none

/-- The resource and direction of a key function (R160). -/
def KeyFunction.motion : KeyFunction → Option (Resource × Direction)
  | .none => Option.none
  | .hatchOpen => some (.hatch, .opening) | .hatchClose => some (.hatch, .closing)
  | .platformUp => some (.platform, .up) | .platformDown => some (.platform, .down)
  | .anchorOut => some (.windlass, .out) | .anchorIn => some (.windlass, .inward)

/-! ## Held sets and key events (section 1.3) -/

/-- Whether a held set holds a key 1..8: bit n−1 stands for key n. -/
def holds (held : Byte) (key : Nat) : Bool := decide (1 ≤ key) && held.getLsbD (key - 1)

/-- The key event of a byte: the key 1..8 in bits 0..3 and the edge in bit 7; a key outside 1..8 or any of bits 4..6
set makes it no event (R9, R21). -/
def keyEvent? (b : Byte) : Option KeyEvent :=
  let key := (b &&& 0x0F).toNat
  if 1 ≤ key ∧ key ≤ 8 ∧ b &&& 0x70 = 0 then some ⟨key, if b.getLsbD 7 then .release else .press⟩ else none

/-- The key events of a list of bytes, when every one is an event. -/
def keyEvents? (bs : List Byte) : Option (List KeyEvent) := bs.mapM keyEvent?

/-! ## Levels (R49) -/

/-- The conditioning of a level for a channel kind (R49): clamped to 1000, and the threshold of a SWITCH. -/
def conditionLevel (kind : ChannelKind) (level : Nat) : Nat :=
  match kind with
  | .switch => if 500 ≤ level then 1000 else 0
  | _ => min level 1000

/-- The conditioning of a fade time (R49). -/
def conditionFade (fade : Nat) : Nat := min fade 600000

/-- The output indexes of a channel kind (R47). -/
def ChannelKind.outputs : ChannelKind → Nat | .dim => 4 | .switch => 8 | .blind => 2

/-- The node type a channel kind requires (R65, R186). -/
def ChannelKind.nodeType : ChannelKind → NodeType | .dim => .dimmer4 | .switch => .switch8 | .blind => .blind2

/-- The number of outputs of a node type (R186). -/
def NodeType.outputs : NodeType → Nat | .dimmer4 => 4 | .switch8 => 8 | .blind2 => 2 | .keypad => 0 | .station => 0

/-- Whether a node type has outputs, and so takes part in adoption (R28). -/
def NodeType.hasOutputs (t : NodeType) : Bool := t.outputs ≠ 0

/-! ## Scene payloads (section 4.2) -/

/-- The scene entries of a payload of three bytes each: the channel number and the level, low byte first. -/
def sceneEntries : List Byte → List SceneEntry
  | c :: lo :: hi :: rest => ⟨c.toNat, leNat [lo, hi]⟩ :: sceneEntries rest
  | _ => []

/-! ## Bindings (R82, R184) -/

/-- A byte of a list, 0 where the list is shorter. -/
def byteAt (bs : List Byte) (i : Nat) : Nat := (bs[i]?.getD 0).toNat

/-- The trigger of SET_BINDING's codes, when every field lies in its range (R78, R184). -/
def trigger? (kind : Nat) (bs : List Byte) : Option Trigger :=
  let b := byteAt bs
  match kind with
  | 1 =>
    if 1 ≤ b 0 ∧ b 0 ≤ 119 ∧ 1 ≤ b 1 ∧ b 1 ≤ 8 ∧ b 2 ≤ 1 then
      some (.key (b 0) (b 1) (if b 2 = 0 then .press else .release))
    else none
  | 2 =>
    match b 0, deckResource? (b 1) with
    | 1, none => if b 1 = 0 then some (.deck .hatchOpened) else none
    | 2, none => if b 1 = 0 then some (.deck .hatchClosed) else none
    | 3, none => if b 1 = 0 then some (.deck .platformStowed) else none
    | 4, none => if b 1 = 0 then some (.deck .platformAtDeck) else none
    | 5, none => if b 1 = 0 then some (.deck .platformSubmerged) else none
    | 6, none => if b 1 = 0 then some (.deck .anchorHome) else none
    | 7, none => if b 1 = 0 then some (.deck .anchorAtTarget) else none
    | 8, some r => some (.deck (.fault r))
    | _, _ => none
  | 3 =>
    if 1 ≤ b 0 ∧ b 0 ≤ 7 ∧ 1 ≤ b 1 ∧ b 1 ≤ 2 then some (.shed (b 0) (if b 1 = 1 then .shed else .restored)) else none
  | 4 =>
    if 1 ≤ b 0 ∧ b 0 ≤ 8 ∧ 1 ≤ b 1 ∧ b 1 ≤ 2 then some (.sense (b 0) (if b 1 = 1 then .aboveHigh else .belowLow)) else none
  | _ => none

/-- The action of SET_BINDING's codes, when its number lies in its range; a fade time above the range is clamped (R82). -/
def action? (kind : Nat) (bs : List Byte) : Option Action :=
  let b := byteAt bs
  match kind with
  | 1 => if 1 ≤ b 0 ∧ b 0 ≤ 64 then some (.takeScene (b 0)) else none
  | 2 =>
    if 1 ≤ b 0 ∧ b 0 ≤ 96 then
      some (.setChannel (b 0) (leNat [bs[1]?.getD 0, bs[2]?.getD 0])
        (conditionFade (leNat [bs[3]?.getD 0, bs[4]?.getD 0, bs[5]?.getD 0, bs[6]?.getD 0])))
    else none
  | 3 => if 1 ≤ b 0 ∧ b 0 ≤ 96 then some (.toggleChannel (b 0)) else none
  | _ => none

/-- The fade time SET_BINDING's reply carries: that of a SET_CHANNEL action (R82), and 0 for the actions that store none (DESIGN
CHOICE, notes/assumptions/33.md). -/
def Action.fade : Action → Nat
  | .setChannel _ _ f => f
  | _ => 0

/-! ## Request frames (R174, R183, R184) -/

/-- What the link port makes of a frame it begins to serve: the command that serves it, or a status of its own. -/
inductive Parsed where
  /-- The kind is one of the request kinds, and the payload fits it: handed to the owning block. -/
  | command (i : Instr)
  /-- The payload's length is not the one its kind's fields take (R174). -/
  | badLength
  deriving DecidableEq, Repr

/-- A field of a payload: the `n` bytes from offset `at`, unsigned. -/
def field (p : List Byte) (at_ n : Nat) : Nat := leNat ((p.drop at_).take n)

/-- A signed field of a payload. -/
def signedField (p : List Byte) (at_ n : Nat) : Int := leInt ((p.drop at_).take n)

/-- A command of a payload of a fixed length. -/
def sized (p : List Byte) (n : Nat) (i : Instr) : Parsed := if p.length = n then .command i else .badLength

/-- The nine figures of SET_HPU, in the order of R184. -/
def hpuFigures (p : List Byte) : HpuSettings :=
  { rated := field p 0 4, inrush := field p 4 4, inrushWindow := field p 8 2, readyPressure := field p 10 2
    readyLimit := field p 12 2, overpressure := field p 14 2, overTime := field p 16 2, stallPressure := field p 18 2
    runOn := field p 20 4 }

/-- The fifteen figures of SET_WINDLASS, in the order of R184. -/
def windlassFigures (p : List Byte) : WindlassSettings :=
  { countsPerRev := field p 0 2, mmPerRev := field p 2 2, slipTol := field p 4 1, maxRode := field p 5 4
    slowZone := field p 9 2, stopBand := field p 11 2, g1 := field p 13 4, g2 := field p 17 4, inrush := field p 21 4
    inrushWindow := field p 25 2, overCurrent := field p 27 2, overTime := field p 29 2, jamTime := field p 31 2
    homeLimit := field p 33 2, stage2Delay := field p 35 2 }

/-- The command that serves a request frame (R174, R183, R184): the kinds of the table of section 10.6, each with its
payload's length and layout. A kind outside the table is served by UNKNOWN_KIND. -/
def parseRequest (kind tag : Byte) (p : List Byte) : Parsed :=
  match kind.toNat with
  | 0x01 => sized p 0 (.status tag)
  | 0x02 => sized p 1 (.readNotices tag (field p 0 1))
  | 0x03 => sized p 0 (.linkStats tag)
  | 0x04 => sized p 2 (.setSupervision tag (field p 0 2))
  | 0x05 => sized p 0 (.restart tag)
  | 0x08 => sized p 0 (.start tag)
  | 0x09 => sized p 0 (.stop tag)
  | 0x0A => sized p 1 (.saveSettings tag (field p 0 1))
  | 0x0B => sized p 0 (.loadSettings tag)
  | 0x0C => sized p 0 (.defaults tag)
  | 0x10 => sized p 3 (.setRoomline tag (field p 0 1) (field p 1 1) (field p 2 1))
  | 0x11 => sized p 0 (.readRoomline tag)
  | 0x14 => sized p 6 (.declareNode tag (field p 0 1) (field p 1 1) (BitVec.ofNat 32 (field p 2 4)))
  | 0x15 => sized p 1 (.removeNode tag (field p 0 1))
  | 0x16 => sized p 2 (.enrolNode tag (field p 0 1) (field p 1 1))
  | 0x17 => sized p 1 (.readNode tag (field p 0 1))
  | 0x20 => sized p 11 (.defineChannel tag (field p 0 1) (field p 1 1) (field p 2 1) (field p 3 1) (field p 4 2)
      (field p 6 1) (field p 7 2) (field p 9 2))
  | 0x21 => sized p 1 (.removeChannel tag (field p 0 1))
  | 0x22 => sized p 7 (.setLevel tag (field p 0 1) (field p 1 2) (field p 3 4))
  | 0x23 => sized p 2 (.readChannel tag (field p 0 1) (field p 1 1))
  | 0x28 => .command (.defineScene tag p)
  | 0x29 => .command (.scenePart tag p)
  | 0x2A => sized p 1 (.removeScene tag (field p 0 1))
  | 0x2B => sized p 2 (.readScene tag (field p 0 1) (field p 1 1))
  | 0x2C => sized p 1 (.takeScene tag (field p 0 1))
  | 0x2D => sized p 13 (.setBinding tag (field p 0 1) (field p 1 1) ((p.drop 2).take 3) (field p 5 1) (p.drop 6))
  | 0x2E => sized p 1 (.clearBinding tag (field p 0 1))
  | 0x2F => sized p 2 (.readBinding tag (field p 0 1) (field p 1 1))
  | 0x30 => sized p 9 (.setSupply tag (field p 0 4) (field p 4 4) (field p 8 1))
  | 0x31 => sized p 4 (.setAllocation tag (field p 0 2) (field p 2 2))
  | 0x32 => sized p 0 (.readAllocation tag)
  | 0x38 => sized p 11 (.setSense tag (field p 0 1) (signedField p 1 2) (signedField p 3 2) (signedField p 5 2)
      (signedField p 7 2) (field p 9 2))
  | 0x39 => sized p 1 (.readSense tag (field p 0 1))
  | 0x40 => sized p 24 (.setHpu tag (hpuFigures p))
  | 0x41 => sized p 11 (.setMover tag (field p 0 1) (signedField p 1 2) (signedField p 3 2) (signedField p 5 2) (field p 7 4))
  | 0x42 => sized p 2 (.move tag (field p 0 1) (field p 1 1))
  | 0x43 => sized p 1 (.stopMotion tag (field p 0 1))
  | 0x44 => sized p 1 (.clearFault tag (field p 0 1))
  | 0x45 => sized p 1 (.readDeck tag (field p 0 1))
  | 0x48 => sized p 37 (.setWindlass tag (windlassFigures p))
  | 0x49 => sized p 4 (.payOutTo tag (signedField p 0 4))
  | 0x4A => sized p 4 (.heaveTo tag (signedField p 0 4))
  | 0x4B => sized p 0 (.heaveHome tag)
  | 0x4C => sized p 4 (.setRode tag (field p 0 4))
  | 0x50 => sized p 7 (.setStationMap tag (field p 0 1) ((p.drop 1).map (·.toNat)))
  | 0x51 => sized p 1 (.readStation tag (field p 0 1))
  | _ => .command (.unknownKind tag kind)

/-- The kind and tag of the request a command serves; absent for a command that is an event. -/
def requestKey : Instr → Option (Byte × Byte)
  | .unknownKind tag kind => some (kind, tag)
  | .status tag => some (0x01, tag)
  | .readNotices tag _ => some (0x02, tag)
  | .linkStats tag => some (0x03, tag)
  | .setSupervision tag _ => some (0x04, tag)
  | .restart tag => some (0x05, tag)
  | .start tag => some (0x08, tag)
  | .stop tag => some (0x09, tag)
  | .saveSettings tag _ => some (0x0A, tag)
  | .loadSettings tag => some (0x0B, tag)
  | .defaults tag => some (0x0C, tag)
  | .setRoomline tag _ _ _ => some (0x10, tag)
  | .readRoomline tag => some (0x11, tag)
  | .declareNode tag _ _ _ => some (0x14, tag)
  | .removeNode tag _ => some (0x15, tag)
  | .enrolNode tag _ _ => some (0x16, tag)
  | .readNode tag _ => some (0x17, tag)
  | .defineChannel tag _ _ _ _ _ _ _ _ => some (0x20, tag)
  | .removeChannel tag _ => some (0x21, tag)
  | .setLevel tag _ _ _ => some (0x22, tag)
  | .readChannel tag _ _ => some (0x23, tag)
  | .defineScene tag _ => some (0x28, tag)
  | .scenePart tag _ => some (0x29, tag)
  | .removeScene tag _ => some (0x2A, tag)
  | .readScene tag _ _ => some (0x2B, tag)
  | .takeScene tag _ => some (0x2C, tag)
  | .setBinding tag _ _ _ _ _ => some (0x2D, tag)
  | .clearBinding tag _ => some (0x2E, tag)
  | .readBinding tag _ _ => some (0x2F, tag)
  | .setSupply tag _ _ _ => some (0x30, tag)
  | .setAllocation tag _ _ => some (0x31, tag)
  | .readAllocation tag => some (0x32, tag)
  | .setSense tag _ _ _ _ _ _ => some (0x38, tag)
  | .readSense tag _ => some (0x39, tag)
  | .setHpu tag _ => some (0x40, tag)
  | .setMover tag _ _ _ _ _ => some (0x41, tag)
  | .move tag _ _ => some (0x42, tag)
  | .stopMotion tag _ => some (0x43, tag)
  | .clearFault tag _ => some (0x44, tag)
  | .readDeck tag _ => some (0x45, tag)
  | .setWindlass tag _ => some (0x48, tag)
  | .payOutTo tag _ => some (0x49, tag)
  | .heaveTo tag _ => some (0x4A, tag)
  | .heaveHome tag => some (0x4B, tag)
  | .setRode tag _ => some (0x4C, tag)
  | .setStationMap tag _ _ => some (0x50, tag)
  | .readStation tag _ => some (0x51, tag)
  | .hardReset _ _ _ | .restartReset _ _ | .autoStart | .requestFrame _ | .gapTimeout | .framingError | .replySent
  | .supervisionExpiry | .saveComplete _ | .openTransaction _ _ | .transactionEnd _ | .byteTimeout | .transactionTimeout
  | .arbitrationLost _ | .otherOpen _ | .otherClose | .keyReport _ | .overrunTimeout | .stuckLineTimeout _ _
  | .recoveryRun _ _ | .nodeRetryExpiry _ | .pollExpiry _ | .enrolRetryExpiry | .enrolDeferredUpdate | .refreshTick
  | .reviewTimerExpiry | .inrushExpiry _ | .sweep _ | .deckSwitchEvent _ _ | .hpuReadyTimeout | .runOnExpiry
  | .travelTimeout _ | .moverSettleExpiry _ | .gypsyStep _ | .gypsyDecodeError | .gypsyIndex | .homeSwitchEvent _
  | .deadbandExpiry | .brakeTimerExpiry | .stage2DelayExpiry | .jamTimeout | .windlassSettleExpiry
  | .confirmExpiry _ => none

end Sys2Proof.Machine
end

