-- ==== Sys2Proof/Machine/Flags.lean ====
section
/-!
DEFINITION. The figures and conditions the part computes from its state and never stores: outputs and estimates, the
supply average, rode and end distance, positions, interlocks, fault conditions, the drain condition and the lamps.
-/

namespace Sys2Proof.Machine

/-! ## Channels (R50, R60) -/

/-- The output of a channel: at every moment the smaller of its current level and its shed ceiling (R50). -/
def Channel.output (c : Channel) : Nat := min c.current c.ceiling

/-- The estimate of a channel at a level, in watts (R60). -/
def Channel.estimateAt (c : Channel) (x : Nat) : Nat :=
  match c.cfg.kind with
  | .dim => ceilDiv (c.cfg.rated * x) 1000
  | .switch => if x = 1000 then c.cfg.rated else 0
  | .blind => if c.moving then c.cfg.rated else 0

/-- A channel's estimate, at its output (R60). -/
def Channel.estimate (c : Channel) : Nat := c.estimateAt c.output

/-- A channel's full estimate, at its current level (R60). -/
def Channel.fullEstimate (c : Channel) : Nat := c.estimateAt c.current

/-- Whether a channel is unsent: its last sent is absent or differs from its output (R56). -/
def Channel.unsent (c : Channel) : Bool := c.lastSent ≠ some c.output

/-! ## The supply average (R110) -/

/-- P_avg: the floor of the mean of the window's samples, 0 when the window is empty (R110). -/
def Sense.average (u : Sense) : Nat := u.window.sum / u.window.length

/-- Whether SUPPLY_V or SUPPLY_I is FAULTED (R87, R109). -/
def State.supplyFaulted (s : State) : Bool := (s.input 1).faulted || (s.input 2).faulted

/-- The pressure of the last sweep (R108). -/
def State.pressure (s : State) : Int := (s.input 3).scaled

/-! ## Class states and draw (R87, R88) -/

/-- The state of a load class (R84). -/
def State.classState (s : State) (k : Nat) : ClassState := (s.alloc.classes[k]?).getD .normal

/-- A change of a class's state. -/
def State.setClass (s : State) (k : Nat) (c : ClassState) : State :=
  s.onAlloc fun a => { a with classes := a.classes.setIfInBounds k c }

/-- A channel's share of the committed draw: its full estimate while its class is RESTORING, its estimate otherwise (R87). -/
def State.share (s : State) (c : Channel) : Nat :=
  if s.classState c.cfg.cls = .restoring then c.fullEstimate else c.estimate

/-- G + I of a grant record, 0 for an absent one (R87). -/
def grantDraw (g : Option Grant) : Nat := (g.map fun g => g.running + g.inrush).getD 0

/-- The committed draw C (R87). -/
def State.committed (s : State) : Nat :=
  s.alloc.base + (s.channels.map s.share).sum + grantDraw s.alloc.hpuGrant + grantDraw s.alloc.windlassGrant

/-- The measured draw the allocator uses: P_avg, taken as 0 while a supply input is FAULTED (R87). -/
def State.measured (s : State) : Nat := if s.supplyFaulted then 0 else s.sense.average

/-- The effective draw E (R87). -/
def State.effective (s : State) : Nat := max s.committed s.measured

/-- The headroom H = L − M − E, signed (R87). -/
def State.headroom (s : State) : Int := (s.alloc.limit : Int) - s.alloc.margin - s.effective

/-- The channels of a class. -/
def State.classChannels (s : State) (k : Nat) : List Channel := s.channels.filter fun c => c.cfg.cls = k

/-- What a channel gives up when its class is shed: its estimate at its current level less its estimate at its floor,
for a channel whose current level is above its floor (R88). -/
def Channel.sheddable (c : Channel) : Nat :=
  if c.cfg.floor < c.current then c.fullEstimate - c.estimateAt c.cfg.floor else 0

/-- The sheddable amount of a class, which is also its restore cost (R88). -/
def State.sheddable (s : State) (k : Nat) : Nat := ((s.classChannels k).map Channel.sheddable).sum

/-- The grant record of a motor (R92). -/
def State.grant (s : State) : Motor → Option Grant
  | .hpu => s.alloc.hpuGrant
  | .windlass => s.alloc.windlassGrant

/-- The grant table with a motor's record replaced. -/
def State.setGrant (s : State) (m : Motor) (g : Option Grant) : State :=
  match m with
  | .hpu => s.onAlloc fun a => { a with hpuGrant := g }
  | .windlass => s.onAlloc fun a => { a with windlassGrant := g }

/-! ## Movers (R125, R130, R132, R134, R135) -/

/-- The sense input of a mover's angle. -/
def angleInput : MoverId → Nat | .hatch => 4 | .platform => 5

/-- The angle of a mover at the last sweep. -/
def State.angle (s : State) (m : MoverId) : Int := (s.input (angleInput m)).scaled

/-- Whether a mover's angle input is FAULTED. -/
def State.angleFaulted (s : State) (m : MoverId) : Bool := (s.input (angleInput m)).faulted

/-- Whether an angle lies within the deck angle ± 10, both ends included (R119, R125). -/
def Mover.inDeckBand (p : Mover) (angle : Int) : Bool := p.settings.deck - 10 ≤ angle ∧ angle ≤ p.settings.deck + 10

/-- The present position of a mover (R125). -/
def State.evalPosition (s : State) (m : MoverId) : Position :=
  let r := s.mover m
  match m with
  | .hatch =>
    match r.lowSw, r.highSw with
    | true, false => .closed
    | false, true => .opened
    | _, _ => .between
  | .platform =>
    match r.lowSw, r.highSw with
    | false, true => .stowed
    | true, false => .submerged
    | true, true => .between
    | false, false => if s.angleFaulted .platform = false ∧ r.inDeckBand (s.angle .platform) then .atDeck else .between

/-- Whether an angle lies beyond the end angle `e` by more than 30, on the side away from the other end (R132, R135). Where the two
end angles are equal, the lower side is taken for both (DESIGN CHOICE, notes/assumptions/35.md). -/
def beyondEnd (e other angle : Int) : Bool := if e ≤ other then angle < e - 30 else e + 30 < angle

/-- SWITCH_MISSING at the end a motion is directed toward: the angle beyond it with its switch INACTIVE (R132). -/
def Mover.switchMissing (r : Mover) (goal : Position) (angle : Int) : Bool :=
  match goal with
  | .closed | .submerged => beyondEnd r.settings.low r.settings.high angle && !r.lowSw
  | .opened | .stowed => beyondEnd r.settings.high r.settings.low angle && !r.highSw
  | .atDeck | .between => false

/-- Whether a switch of the mover is ACTIVE with the angle more than 50 from its end angle (R134). -/
def Mover.disagrees (r : Mover) (angle : Int) : Bool :=
  (r.lowSw && decide (50 < (angle - r.settings.low).natAbs)) || (r.highSw && decide (50 < (angle - r.settings.high).natAbs))

/-- Whether a fault condition of a mover is present (R135). -/
def State.moverCondition (s : State) (m : MoverId) : Bool :=
  let r := s.mover m
  s.angleFaulted m || r.disagrees (s.angle m)
    || (beyondEnd r.settings.low r.settings.high (s.angle m) && !r.lowSw)
    || (beyondEnd r.settings.high r.settings.low (s.angle m) && !r.highSw)

/-- The stow flag of a platform motion (R130). -/
def State.stowFlag (s : State) (m : MoverId) (from_ goal : Position) : Bool :=
  match m with
  | .hatch => false
  | .platform =>
    from_ = .stowed ∨ goal = .stowed ∨ (from_ = .between ∧ s.platform.settings.deck + 10 < s.angle .platform)

/-- The interlock of a motion of a mover with its stow flag (R130). -/
def State.interlock (s : State) (m : MoverId) (stow : Bool) : Bool :=
  match m with
  | .hatch => s.platform.state = .atRest ∧ (s.platform.position = .atDeck ∨ s.platform.position = .submerged)
  | .platform =>
    if stow then s.hatch.state = .atRest ∧ s.hatch.position = .closed
    else s.hatch.state ≠ .waitPump ∧ s.hatch.state ≠ .moving

/-- The interlock of the motion a mover has (R130). -/
def State.motionInterlock (s : State) (m : MoverId) : Bool := s.interlock m (((s.mover m).motion.map (·.stow)).getD false)

/-- Whether a fault condition of the HPU is present (R124). -/
def State.hpuCondition (s : State) : Bool := (s.input 3).faulted || decide ((s.hpu.settings.overpressure : Int) < s.pressure)

/-! ## The windlass (R143, R144, R151, R152, R155) -/

/-- The count as a signed number (R141). -/
def Windlass.position (w : Windlass) : Int := w.count.toInt

/-- A length in mm converted to counts (R143). -/
def Windlass.toCounts (w : Windlass) (mm : Int) : Int := roundDiv (mm * w.settings.countsPerRev) w.settings.mmPerRev

/-- The rode in mm, computed from the count (R143). -/
def Windlass.rode (w : Windlass) : Int := truncDiv (w.position * w.settings.mmPerRev) w.settings.countsPerRev

/-- The rode is trusted while rode_valid is set and rode_uncertain is clear (R144). -/
def Windlass.trusted (w : Windlass) : Bool := w.rodeValid && !w.rodeUncertain

/-- The distance to a target in counts, in a direction (R147). -/
def Windlass.distanceTo (w : Windlass) (dir : RodeDir) (target : Int) : Int :=
  match dir with
  | .payOut => target - w.position
  | .heave => w.position - target

/-- The end distance of a run, when it has one (R152). -/
def Windlass.endDistance (w : Windlass) (r : Run) : Option Int :=
  match r.kind, r.dir with
  | .seek, _ => some (w.distanceTo r.dir r.target)
  | .home, _ | .jog, .heave => if w.trusted then some w.position else none
  | .jog, .payOut => if w.rodeValid then some (w.toCounts w.settings.maxRode - w.position) else none

/-- Whether the count lies within the stop band's counts of the max rode's counts, or beyond them (R149, R151). -/
def Windlass.atMaxRode (w : Windlass) : Bool :=
  w.toCounts w.settings.maxRode - w.toCounts w.settings.stopBand ≤ w.position

/-- Whether a direction contactor is closed. -/
def Windlass.contactorClosed (w : Windlass) : Bool := w.payOut || w.heave

/-- WINDLASS_I and SUPPLY_V at the last sweep. -/
def State.windlassCurrent (s : State) : Int := (s.input 6).scaled

/-- Whether SUPPLY_V is not FAULTED and stands below the low limit of input 1 (R154, R155). -/
def State.supplyLow (s : State) : Bool :=
  !(s.input 1).faulted && decide ((s.input 1).scaled < (s.input 1).settings.lowLimit)

/-- Whether a fault condition of the windlass is present (R155). -/
def State.windlassCondition (s : State) : Bool :=
  (s.input 6).faulted || decide ((s.windlass.settings.overCurrent : Int) < s.windlassCurrent) || s.supplyLow

/-- The ms of a deadband still to run: it is at most 500, so a longer difference is one that has passed (R1, R146). -/
def deadbandLeft (now free : Uptime) : Nat := if elapsed now free ≤ 500 then elapsed now free else 0

/-- The deadband still to run for a direction (R146). -/
def State.deadband (s : State) : RodeDir → Nat
  | .payOut => deadbandLeft s.uptime s.windlass.payOutFree
  | .heave => deadbandLeft s.uptime s.windlass.heaveFree

/-! ## The drain condition (R188) -/

/-- The HPU is OFF or in FAULT, each mover AT_REST or in FAULT, and the windlass IDLE or in FAULT (R188). -/
def State.drained (s : State) : Bool :=
  (s.hpu.state = .off ∨ s.hpu.state = .fault)
    ∧ (s.hatch.state = .atRest ∨ s.hatch.state = .fault)
    ∧ (s.platform.state = .atRest ∨ s.platform.state = .fault)
    ∧ (s.windlass.state = .idle ∨ s.windlass.state = .fault)

/-! ## Ownership and lamps (R168) -/

/-- Whether a resource is in FAULT. -/
def State.resourceFault (s : State) : Resource → Bool
  | .hatch => s.hatch.state = .fault
  | .platform => s.platform.state = .fault
  | .windlass => s.windlass.state = .fault

/-- Whether a resource rests at the end a function drives it to: the table of STEADY lamps (R168). -/
def State.restsAtEnd (s : State) : KeyFunction → Bool
  | .none => false
  | .hatchOpen => s.hatch.state = .atRest ∧ s.hatch.position = .opened
  | .hatchClose => s.hatch.state = .atRest ∧ s.hatch.position = .closed
  | .platformUp => s.platform.state = .atRest ∧ s.platform.position = .stowed
  | .platformDown => s.platform.state = .atRest ∧ s.platform.position = .submerged
  | .anchorOut => s.windlass.state = .idle ∧ s.windlass.rodeValid ∧ s.windlass.atMaxRode
  | .anchorIn => s.windlass.state = .idle ∧ s.windlass.homeSw

/-- The lamp of a key 1..6 with a function and a spent mark (R168). -/
def State.keyLamp (s : State) (f : KeyFunction) (mark : Option SpentMark) : Lamp :=
  match f.motion with
  | none => .off
  | some (r, d) =>
    if mark = some .denied ∨ s.resourceFault r then .fast
    else if (s.ownerOf r).owner ≠ .none ∧ (s.ownerOf r).dir = some d then .slow
    else if s.restsAtEnd f then .steady
    else .off

/-- Whether a station owns any resource. -/
def State.stationOwns (s : State) (a : Nat) : Bool :=
  s.hatchOwner.owner = .station a ∨ s.platformOwner.owner = .station a ∨ s.windlassOwner.owner = .station a

/-- Whether any resource has an owner other than NONE. -/
def State.anyOwned (s : State) : Bool :=
  s.hatchOwner.owner ≠ .none ∨ s.platformOwner.owner ≠ .none ∨ s.windlassOwner.owner ≠ .none

/-- The eight lamp states of a station as computed (R168). -/
def State.lampsOf (s : State) (t : Station) : Vector Lamp 8 :=
  Vector.ofFn fun i : Fin 8 =>
    if h : i.val < 6 then s.keyLamp t.map[i.val] t.spent[i.val]
    else if i.val = 6 then (if s.stationOwns t.addr then .steady else .off)
    else (if s.anyOwned then .slow else .off)

/-! ## Scenes (R67) -/

/-- The pool's used count: the sum of the lengths of the entry lists (R67). -/
def State.poolUsed (s : State) : Nat := (s.scenes.map fun sc => sc.entries.length).sum

/-- The pool's free count (R67). -/
def State.poolFree (s : State) : Nat := 1024 - s.poolUsed

end Sys2Proof.Machine
end

