-- ==== Sys2Proof/Machine/Link.lean ====
section
/-!
DEFINITION. The link port (chapter 10): the receiver, the request queue, the reply path, and the meanings of the link
rows and the link's own requests.
-/

namespace Sys2Proof.Machine

/-! ## The bytes of a reply (R171, R174) -/

/-- A host frame (section 10.1): start, length, kind, tag, payload and CRC-16, low byte first. -/
def frameBytes (kind tag : Byte) (payload : List Byte) : List Byte :=
  let body := BitVec.ofNat 8 (payload.length + 2) :: kind :: tag :: payload
  0xA5 :: body ++ leBytes 2 (crc16 body).toNat

/-- A notice record as READ_NOTICES returns it (R177). -/
def noticeBytes (n : Notice) : List Byte :=
  leBytes 1 n.kind.code ++ leBytes 1 n.source ++ leBytes 1 n.data.length ++ n.data ++ leBytes 4 n.time.toNat

/-- A grant record as READ_ALLOCATION returns it: present flag, G, I and the remaining window (R105). -/
def grantBytes : Option (Nat × Nat × Nat) → List Byte
  | none => leBytes 1 0 ++ leBytes 4 0 ++ leBytes 4 0 ++ leBytes 4 0
  | some (g, i, left) => leBytes 1 1 ++ leFigure 4 g ++ leFigure 4 i ++ leFigure 4 left

/-- The last admission and its time as READ_ALLOCATION returns them: with no admission made the present flag, the shortfall and
the time are 0 and the lowest class is 0xFF (R105). -/
def admissionBytes : Option Admission → List Byte
  | none =>
    leBytes 1 0 ++ Config.absentRequest.toList ++ leBytes 4 0 ++ [Config.absentResult] ++ leBytes 1 0xFF ++ leBytes 4 0
  | some a =>
    leBytes 1 1 ++ leBytes 1 a.requester.code ++ leFigure 4 a.request ++ leSigned 4 a.headroom
      ++ leFigure 4 (a.shortfall.getD 0) ++ leBytes 1 a.result.code ++ leBytes 1 (a.lowest.getD 0xFF)
      ++ leBytes 4 a.time.toNat

/-- The data of a reply as bytes, for the replies whose layout the manual gives: STATUS (R180), READ_NOTICES (R177),
LINK_STATS (R181), SET_SUPERVISION (R178), INVALID (R186) and READ_ALLOCATION (R105). The layout of every other reply is
a free value. -/
def ReplyData.bytes (d : ReplyData) : List Byte :=
  match d with
  | .none => []
  | .status mode cause held overflow store uptime =>
    leBytes 1 mode.code ++ leBytes 1 cause.code ++ leBytes 1 held ++ leBytes 1 overflow ++ leBytes 1 store.code
      ++ leBytes 4 uptime.toNat
  | .notices overflow records left =>
    leBytes 1 overflow ++ leBytes 1 records.length ++ (records.map noticeBytes).flatten ++ leBytes 1 left
  | .linkStats gap crc framing => leBytes 2 gap ++ leBytes 2 crc ++ leBytes 2 framing
  | .supervision period => leBytes 2 period
  | .invalid kind index => leBytes 1 kind ++ leBytes 1 index
  | .allocation v =>
    leFigure 4 v.limit ++ leFigure 4 v.base ++ leBytes 1 v.source.code ++ leFigure 2 v.margin ++ leFigure 2 v.hysteresis
      ++ leFigure 4 v.committed ++ leFigure 4 v.measured ++ leFigure 4 v.effective ++ leSigned 4 v.headroom
      ++ (v.classes.map fun c => leBytes 1 c.1.code ++ leFigure 1 c.2.1 ++ leFigure 3 c.2.2).flatten
      ++ grantBytes v.hpu ++ grantBytes v.windlass ++ leBytes 1 v.overLimit ++ leBytes 2 (v.review.getD 0xFFFF)
      ++ admissionBytes v.last
  | d => Config.replyLayout d

/-- The frame of a reply: the kind with its top bit set, the tag, the status byte and the data (R174). -/
def Reply.frame (r : Reply) : List Byte := frameBytes r.kind r.tag (leBytes 1 r.status.code ++ r.data.bytes)

/-! ## The reply path and the request queue (R173) -/

/-- The request queue with its oldest unserved frame marked served. -/
def markServed : List QueuedFrame → List QueuedFrame
  | [] => []
  | f :: fs => if f.served then f :: markServed fs else { f with served := true } :: fs

/-- The request queue without its oldest served frame. -/
def dropServed : List QueuedFrame → List QueuedFrame
  | [] => []
  | f :: fs => if f.served then fs else f :: dropServed fs

/-- The link port begins to serve the oldest frame not served: it checks the kind and the payload's length, and hands
the request to its owning block or answers BAD_LENGTH itself (R174). -/
def Link.beginService (l : Link) : Link :=
  match l.requests.find? (fun f => !f.served) with
  | none => l
  | some f =>
    match parseRequest f.kind f.tag f.payload with
    | .command i => { l with handed := some i }
    | .badLength =>
      { l with requests := markServed l.requests, sending := some ⟨f.kind ||| 0x80, f.tag, .badLength, .none, true⟩ }

/-- An idle reply path goes on: the oldest waiting QUEUE_FULL reply, else the oldest reply made, else the service of the
next request (R173). Once a RESTART is due nothing more is sent or served (R182). A QUEUE_FULL reply stays among the waiting ones
until it has been sent (section 10.7); one to a frame of kind 0x80 or above keeps that kind (DESIGN CHOICE,
notes/assumptions/37.md). -/
def Link.proceed (l : Link) : Link :=
  if l.sending.isSome ∨ l.restartDue then l
  else
    match l.fullReplies, l.replies with
    | (kind, tag) :: _, _ => { l with sending := some ⟨kind ||| 0x80, tag, .queueFull, .none, false⟩ }
    | [], r :: rest => { l with replies := rest, sending := some r }
    | [], [] => if l.handed.isSome then l else l.beginService

/-- The reply of a request has been made. Where it answers the request handed over from the queue, that frame is served;
a request given without a frame is answered all the same (R173, R174; notes/assumptions/8.md). -/
def Link.answer (l : Link) (kind tag : Byte) (status : Status) (data : ReplyData) : Link :=
  if l.handed.any (fun i => requestKey i = some (kind, tag)) then
    Link.proceed { l with handed := none, requests := markServed l.requests,
                          replies := l.replies ++ [⟨kind ||| 0x80, tag, status, data, true⟩] }
  else Link.proceed { l with replies := l.replies ++ [⟨kind ||| 0x80, tag, status, data, false⟩] }

/-- The outcome of a request: the owning block's operation, and its answer as the reply (R174). -/
def answered (kind tag : Byte) (r : Served) : Outcome :=
  .next (r.state.onLink fun l => l.answer kind tag r.status r.data)

/-- A frame found good joins the request queue, or, with four frames held, gets a QUEUE_FULL reply, or is discarded when
four of those wait (R173). -/
def Link.takeFrame (l : Link) (kind tag : Byte) (payload : List Byte) : Link :=
  if l.requests.length < 4 then Link.proceed { l with requests := l.requests ++ [⟨kind, tag, payload, false⟩] }
  else if l.fullReplies.length < 4 then Link.proceed { l with fullReplies := l.fullReplies ++ [(kind, tag)] }
  else l

/-- A good frame restarts the supervision timer while the period is above 0 (R179). -/
def Link.supervise (l : Link) (now : Uptime) : Link :=
  if 0 < l.period then { l with supervision := some (later now l.period) } else l

/-! ## The receiver (R172) -/

/-- What a received byte completes. -/
inductive RxEvent where
  | nothing
  | crcError
  | good (kind tag : Byte) (payload : List Byte)
  deriving DecidableEq, Repr

/-- A whole frame, from its length byte to its last CRC byte: good when the CRC matches (R172). -/
def checkFrame (bytes : List Byte) : RxEvent :=
  match bytes.take (bytes.length - 2), bytes.drop (bytes.length - 2) with
  | len :: kind :: tag :: payload, [lo, hi] =>
    if crc16 (len :: kind :: tag :: payload) = BitVec.ofNat 16 (leNat [lo, hi]) then .good kind tag payload else .crcError
  | _, _ => .crcError

/-- The receiver takes one byte (R172). -/
def Receiver.take (r : Receiver) (b : Byte) : Receiver × RxEvent :=
  match r.phase with
  | .hunt => if b = 0xA5 then (⟨.length, []⟩, .nothing) else (r, .nothing)
  | .length => if 2 ≤ b.toNat ∧ b.toNat ≤ 250 then (⟨.body b.toNat, [b]⟩, .nothing) else ({}, .crcError)
  | .body left => (⟨if left ≤ 1 then .check else .body (left - 1), r.bytes ++ [b]⟩, .nothing)
  | .check =>
    let bytes := r.bytes ++ [b]
    if bytes.length < (bytes.headD 0).toNat + 3 then (⟨.check, bytes⟩, .nothing) else ({}, checkFrame bytes)

/-- A count of the link port raised by 1, saturating at 65,535 (R172). -/
def bump16 (n : Nat) : Nat := min (n + 1) 65535

/-- The link port takes one byte. -/
def Link.receive (now : Uptime) (l : Link) (b : Byte) : Link :=
  let (rx, e) := l.rx.take b
  let l := { l with rx := rx }
  match e with
  | .nothing => l
  | .crcError => { l with crcErrors := bump16 l.crcErrors }
  | .good kind tag payload => (l.supervise now).takeFrame kind tag payload

/-- REQUEST_FRAME (R172, R173). -/
def execRequestFrame (bytes : List Byte) (s : State) : Outcome :=
  .next (s.onLink fun l => bytes.foldl (Link.receive s.uptime) l)

/-- GAP_TIMEOUT (R172): a partial frame is discarded and a gap error counted; in HUNT there is none. -/
def execGapTimeout (s : State) : Outcome :=
  .next (s.onLink fun l =>
    if l.rx.phase = .hunt then l else { l with rx := {}, gapErrors := bump16 l.gapErrors })

/-- FRAMING_ERROR (R172): counted in every phase, and any frame in assembly is discarded. -/
def execFramingError (s : State) : Outcome :=
  .next (s.onLink fun l => { l with rx := {}, framingErrors := bump16 l.framingErrors })

/-- The reply path has sent a frame (R173): a request's frame leaves the request queue, and a QUEUE_FULL reply the waiting ones.
The reply OK to RESTART makes the reset due (R182). -/
def Link.sent (l : Link) : Link :=
  match l.sending with
  | none => l
  | some r =>
    let l := { l with sending := none, requests := if r.queued then dropServed l.requests else l.requests
                      fullReplies := if r.status = Status.queueFull then l.fullReplies.tail else l.fullReplies }
    if r.kind = 0x85 ∧ r.status = .ok then { l with restartDue := true } else l.proceed

/-- REPLY_SENT (R173). -/
def execReplySent (s : State) : Outcome := .next (s.onLink Link.sent)

/-- UNKNOWN_KIND (R174). -/
def execUnknownKind (tag kind : Byte) (s : State) : Outcome := answered kind tag (s.refuse .unknownKind)

/-! ## The link's own requests -/

/-- STATUS (R180). -/
def execStatus (tag : Byte) (s : State) : Outcome :=
  answered 0x01 tag ⟨s, .ok, .status s.mode s.resetCause s.link.notices.length s.link.overflow s.store.state s.uptime⟩

/-- The number of records READ_NOTICES takes at most: 0 and any value above 8 are taken as 8 (R177). -/
def noticesWanted (n : Nat) : Nat := if n = 0 ∨ 8 < n then 8 else n

/-- READ_NOTICES (R177): the oldest records leave the queue with the reply, and the overflow count is cleared. -/
def execReadNotices (tag : Byte) (wanted : Nat) (s : State) : Outcome :=
  let n := noticesWanted wanted
  answered 0x02 tag
    ⟨s.onLink fun l => { l with notices := l.notices.drop n, overflow := 0 }, .ok,
      .notices s.link.overflow (s.link.notices.take n) (s.link.notices.drop n).length⟩

/-- LINK_STATS (R181). -/
def execLinkStats (tag : Byte) (s : State) : Outcome :=
  answered 0x03 tag
    ⟨s.onLink fun l => { l with gapErrors := 0, crcErrors := 0, framingErrors := 0 }, .ok,
      .linkStats s.link.gapErrors s.link.crcErrors s.link.framingErrors⟩

/-- The supervision period of a given one (R178). -/
def supervisionPeriod (period : Nat) : Nat := if period = 0 then 0 else max 200 (min period 10000)

/-- SET_SUPERVISION (R178). -/
def execSetSupervision (tag : Byte) (period : Nat) (s : State) : Outcome :=
  let p := supervisionPeriod period
  answered 0x04 tag
    ⟨s.onLink fun l => { l with period := p, supervision := if p = 0 then none else some (s.after p) }, .ok,
      .supervision p⟩

/-- RESTART (R182): refused while a save runs; the reset follows the reply. -/
def execRestart (tag : Byte) (s : State) : Outcome :=
  answered 0x05 tag (if s.saving then s.refuse .busy else s.accept)

/-- ATTN_N: high while the notice queue is empty, low while it holds a record (R176). -/
def State.attnHigh (s : State) : Bool := s.link.notices.isEmpty

end Sys2Proof.Machine
end

