-- ==== Sys2Proof/Machine/Staging.lean ====
section
/-!
DEFINITION. Staging a target, taking a scene, toggling a channel, and matching an event against the binding table:
the operations through which every block reaches the lighting (R51, R74, R80, R81).
-/

namespace Sys2Proof.Machine

/-- A level and fade time are conditioned and staged on a channel: the staging replaces one that waits and clears the
untouched flag (R49, R51). -/
def State.stage (s : State) (channel level fade : Nat) : State :=
  s.onChannel channel fun c =>
    { c with staged := some ⟨conditionLevel c.cfg.kind level, conditionFade fade⟩, untouched := false }

/-- A take of a scene: every entry is staged with the scene's fade time, and the last-take record is set (R74). -/
def State.take (s : State) (scene : Nat) (source : TakeSource) : State :=
  match s.scene scene with
  | none => s
  | some sc =>
    { sc.entries.foldl (fun s e => s.stage e.channel e.level sc.fade) s with
      lastTake := some ⟨scene, source, s.uptime, sc.entries.length⟩ }

/-- The pending level of a channel: that of the staged target when one waits, and its target level otherwise (R81). -/
def Channel.pendingLevel (c : Channel) : Nat := (c.staged.map (·.level)).getD c.target

/-- TOGGLE_CHANNEL: 0 when the pending level is above 0, and the preset otherwise, with fade time 0 (R81). -/
def State.toggle (s : State) (channel : Nat) : State :=
  match s.channel channel with
  | none => s
  | some c => s.stage channel (if 0 < c.pendingLevel then 0 else c.cfg.preset) 0

/-- A binding fires: its fire count rises by 1, saturating at 65,535, and its action is carried out (R80). -/
def State.fire (s : State) (b : Binding) : State :=
  let s := { s with bindings := tableModify (·.slot) b.slot (fun b => { b with fires := min (b.fires + 1) 65535 }) s.bindings }
  match b.action with
  | .takeScene n => s.take n (.slot b.slot)
  | .setChannel c level fade => s.stage c level fade
  | .toggleChannel c => s.toggle c

/-- An event reaches the scene engine: in RUN every binding whose trigger equals it fires, in ascending order of slot;
in CONFIG and STOPPING it matches nothing (R78, R80). -/
def State.offer (s : State) (event : Trigger) : State :=
  if s.mode = .run then (s.bindings.filter fun b => b.trigger = event).foldl State.fire s else s

end Sys2Proof.Machine
end

