-- ==== Sys2Proof/Machine/Alloc.lean ====
section
/-!
DEFINITION. The load allocator (chapter 5): shedding and restoring classes, reviews, admissions, the grant table, and
the meanings of its rows.
-/

namespace Sys2Proof.Machine

/-! ## Class states (R89 to R91) -/

/-- A class becomes SHED: its ceilings drop to the floors, SHED is posted with the cause and the headroom computed before
anything was shed, and the event is offered to the scene engine (R90). -/
def State.shedClass (s : State) (k : Nat) (cause : ShedCause) (h : Int) : State :=
  let s := s.setClass k .shed
  let s := s.onChannels fun c => if c.cfg.cls = k then { c with ceiling := c.cfg.floor } else c
  let s := s.post .shed k (leBytes 1 cause.code ++ leSigned 4 h)
  s.offer (.shed k .shed)

/-- One step of a RESTORING class's ramp: its ceilings rise by 25, and when all stand at 1000 the class becomes NORMAL,
RESTORED is posted and the event is offered (R91). -/
def State.rampClass (s : State) (k : Nat) : State :=
  if s.classState k = .restoring then
    let s := s.onChannels fun c => if c.cfg.cls = k then { c with ceiling := min (c.ceiling + 25) 1000 } else c
    if (s.classChannels k).all (fun c => c.ceiling = 1000) then
      ((s.setClass k .normal).post .restored k []).offer (.shed k .restored)
    else s
  else s

/-- The restore ramp's step at a tick (R52, R91). -/
def State.ramp (s : State) : State := [1, 2, 3, 4, 5, 6, 7].foldl State.rampClass s

/-- Whether a class is RESTORING. -/
def State.anyRestoring (s : State) : Bool := [1, 2, 3, 4, 5, 6, 7].any fun k => s.classState k = .restoring

/-- The highest-numbered class among 1..k that is not SHED (R101). -/
def State.topUnshed (s : State) : Nat → Option Nat
  | 0 => none
  | k + 1 => if s.classState (k + 1) = .shed then s.topUnshed k else some (k + 1)

/-- The lowest SHED class (R103). -/
def State.lowestShed (s : State) : Option Nat := [1, 2, 3, 4, 5, 6, 7].find? fun k => s.classState k = .shed

/-! ## Reviews (R100 to R103) -/

/-- An over-limit review with nothing left to shed: the counter rises to a most of 3, and OVER_LIMIT is posted when it
reaches 3 (R102). -/
def State.countOverLimit (s : State) (h : Int) : State :=
  if s.alloc.overLimit < 3 then
    let s := s.onAlloc fun a => { a with overLimit := a.overLimit + 1 }
    if s.alloc.overLimit = 3 then s.post .overLimit 0 (leSigned 4 h) else s
  else s

/-- The restore case of a review: with no class RESTORING, the lowest SHED class becomes RESTORING when the headroom
less its cost is at least the hysteresis (R103). -/
def State.tryRestore (s : State) (h : Int) : State :=
  if s.anyRestoring then s
  else
    match s.lowestShed with
    | none => s
    | some j => if (s.alloc.hysteresis : Int) ≤ h - s.sheddable j then s.setClass j .restoring else s

/-- A review (R100): one of its three decisions, taken on the headroom as it stands. -/
def State.review (s : State) : State :=
  let h := s.headroom
  if h < 0 then
    match s.topUnshed 7 with
    | some k => s.shedClass k .review h
    | none => s.countOverLimit h
  else (s.onAlloc fun a => { a with overLimit := 0 }).tryRestore h

/-! ## Admissions (R95 to R98) -/

/-- The class walk: from class k down, SHED classes are passed over and the sheddable amount of each other is added,
until the running sum reaches the shortfall; the answer is the class it stops at (R96). -/
def State.walk (s : State) (need : Nat) : (k : Nat) → (sum : Nat) → Option Nat
  | 0, _ => none
  | k + 1, sum =>
    if s.classState (k + 1) = .shed then s.walk need k sum
    else if need ≤ sum + s.sheddable (k + 1) then some (k + 1)
    else s.walk need k (sum + s.sheddable (k + 1))

/-- Every class from k down to `low` that is not SHED becomes SHED, from the highest down (R96). -/
def State.shedDown (s : State) (low : Nat) (cause : ShedCause) (h : Int) : (k : Nat) → State
  | 0 => s
  | k + 1 =>
    if k + 1 < low then s
    else
      State.shedDown (if s.classState (k + 1) = .shed then s else s.shedClass (k + 1) cause h) low cause h k

/-- The shed cause of a requester's admission (R90). -/
def Requester.cause : Requester → ShedCause
  | .hpu => .hpuStart
  | .windlassStart => .windlassStart
  | .windlassStage => .windlassStage

/-- The last-admission record is replaced (R97). -/
def State.recordAdmission (s : State) (who : Requester) (request : Nat) (h : Int) (shortfall : Option Nat)
    (result : AdmissionResult) (lowest : Option Nat) : State :=
  s.onAlloc fun a => { a with lastAdmission := some ⟨who, request, h, shortfall, result, lowest, s.uptime⟩ }

/-- The decision on a request for watts: granted as it stands, granted after the class walk has shed, or refused with
nothing changed but the last-admission record (R95, R96). -/
def State.seekWatts (s : State) (who : Requester) (r : Nat) : State × Bool :=
  let h := s.headroom
  if (r : Int) ≤ h then (s.recordAdmission who r h none .granted none, true)
  else
    let n := ((r : Int) - h).toNat
    match s.walk n 7 0 with
    | some low => ((s.shedDown low who.cause h 7).recordAdmission who r h (some n) .grantedAfterShed (some low), true)
    | none => (s.recordAdmission who r h (some n) .refused none, false)

/-- The requester of a motor's start admission. -/
def startRequester : Motor → Requester
  | .hpu => .hpu
  | .windlass => .windlassStart

/-- A start admission of a motor with its running grant, inrush and inrush window (R95). -/
def State.startAdmission (s : State) (m : Motor) (g i window : Nat) : State × Bool :=
  if s.mode ≠ .run ∨ (s.grant m).isSome then
    (s.recordAdmission (startRequester m) (g + i) s.headroom none .refused none, false)
  else
    match s.seekWatts (startRequester m) (g + i) with
    | (s, false) => (s, false)
    | (s, true) =>
      let timed := 0 < i ∧ 0 < window
      (s.setGrant m (some ⟨g, if timed then i else 0, s.uptime, if timed then some (s.after window) else none⟩), true)

/-- The stage admission of the windlass (R98). -/
def State.stageAdmission (s : State) (g2 : Nat) : State × Bool :=
  match s.alloc.windlassGrant with
  | none => (s.recordAdmission .windlassStage g2 s.headroom none .refused none, false)
  | some g =>
    if s.mode ≠ .run then (s.recordAdmission .windlassStage (g2 - g.running) s.headroom none .refused none, false)
    else if g2 ≤ g.running then (s, true)
    else
      match s.seekWatts .windlassStage (g2 - g.running) with
      | (s, false) => (s, false)
      | (s, true) => (s.setGrant .windlass (some { g with running := g2 }), true)

/-! ## Giving watts back (R93, R94) -/

/-- A motor releases its grant record, and a review runs; an absent record changes nothing (R93). -/
def State.releaseGrant (s : State) (m : Motor) : State :=
  if (s.grant m).isSome then (s.setGrant m none).review else s

/-- The windlass lowers its grant record, and a review runs; a figure not below the present one changes nothing (R93). -/
def State.lowerGrant (s : State) (g1 : Nat) : State :=
  match s.alloc.windlassGrant with
  | none => s
  | some g => if g1 < g.running then (s.setGrant .windlass (some { g with running := g1 })).review else s

/-- INRUSH_EXPIRY (R94): the inrush window of a present record ends, and a review runs. -/
def execInrushExpiry (m : Motor) (s : State) : Outcome :=
  .next <|
    match s.grant m with
    | none => s
    | some g =>
      match g.expiry with
      | none => s
      | some e => ((s.atMoment e).setGrant m (some { g with inrush := 0, expiry := none })).review

/-- REVIEW_TIMER_EXPIRY (R100): the timer expires every 500 ms, and a review runs. -/
def execReviewTimerExpiry (s : State) : Outcome :=
  .next <|
    match s.alloc.reviewTimer with
    | none => s
    | some e => ((s.atMoment e).onAlloc fun a => { a with reviewTimer := some (later e 500) }).review

/-! ## Requests -/

/-- SET_SUPPLY (R85): accepted in every mode, while a save runs included; a review follows outside CONFIG. -/
def execSetSupply (tag : Byte) (limit base source : Nat) (s : State) : Outcome :=
  answered 0x30 tag <|
    match source? source with
    | none => s.refuse .badValue
    | some src =>
      let l := min limit 200000
      let b := min base 100000
      let t := s.onAlloc fun a => { a with limit := l, base := b, source := src }
      ⟨if s.mode = .config then t else t.review, .ok, .supply l b⟩

/-- SET_ALLOCATION (R86). -/
def execSetAllocation (tag : Byte) (margin hysteresis : Nat) (s : State) : Outcome :=
  answered 0x31 tag <| s.configEdit <|
    if 20000 < margin ∨ 10000 < hysteresis then s.refuse .badValue
    else (s.onAlloc fun a => { a with margin := margin, hysteresis := hysteresis }).accept

/-- A grant record as READ_ALLOCATION shows it: G, I and the remaining inrush window (R105). -/
def State.grantView (s : State) (m : Motor) : Option (Nat × Nat × Nat) :=
  (s.grant m).map fun g => (g.running, g.inrush, (g.expiry.map (remaining s.uptime)).getD 0)

/-- What READ_ALLOCATION returns (R105). -/
def State.allocView (s : State) : AllocView :=
  { limit := s.alloc.limit, base := s.alloc.base, source := s.alloc.source, margin := s.alloc.margin
    hysteresis := s.alloc.hysteresis, committed := s.committed, measured := s.measured, effective := s.effective
    headroom := s.headroom
    classes := (List.range 8).map fun k => (s.classState k, (s.classChannels k).length, s.sheddable k)
    hpu := s.grantView .hpu, windlass := s.grantView .windlass, overLimit := s.alloc.overLimit
    review := s.alloc.reviewTimer.map (remaining s.uptime), last := s.alloc.lastAdmission }

/-- READ_ALLOCATION (R105). -/
def execReadAllocation (tag : Byte) (s : State) : Outcome := answered 0x32 tag ⟨s, .ok, .allocation s.allocView⟩

end Sys2Proof.Machine
end

