-- ==== Sys2Proof/Machine/Scenes.lean ====
section
/-!
DEFINITION. The scene engine's requests (chapter 4): defining, removing, reading and taking scenes, and the binding table.
-/

namespace Sys2Proof.Machine

/-! ## Defining a scene (R69 to R71) -/

/-- Whether every entry names a channel 1..96. -/
def entriesInRange (es : List SceneEntry) : Bool := es.all fun e => 1 ≤ e.channel ∧ e.channel ≤ 96

/-- Whether a list of entries names a channel twice. -/
def entriesRepeat : List SceneEntry → Bool
  | [] => false
  | e :: es => es.any (fun f => f.channel = e.channel) || entriesRepeat es

/-- Entries added to a list kept in ascending order of channel number. -/
def addEntries (old new : List SceneEntry) : List SceneEntry := new.foldl (fun t e => tablePut (·.channel) e t) old

/-- A complete definition is checked against the channels and the pool, and is committed in one step or refused; either
way no build stays open (R71). -/
def State.completeScene (s : State) (b : SceneBuild) : Served :=
  let s := { s with build := none }
  let old := ((s.scene b.scene).map (·.entries.length)).getD 0
  if b.entries.any (fun e => (s.channel e.channel).isNone) then s.refuse .notFound
  else if s.poolFree + old < b.entries.length then s.refuse .full
  else
    let t := { s with scenes := tablePut (·.num) ⟨b.scene, b.fade, b.entries⟩ s.scenes }
    ⟨t, .ok, .sceneStored b.entries.length t.poolFree⟩

/-- DEFINE_SCENE's payload after its length has been checked (R69). -/
def State.defineScene (s : State) (p : List Byte) : Served :=
  let scene := field p 0 1
  let total := field p 5 1
  let es := sceneEntries (p.drop 6)
  if scene < 1 ∨ 64 < scene ∨ total = 0 ∨ 96 < total ∨ total < es.length ∨ ¬ entriesInRange es ∨ entriesRepeat es then
    s.refuse .badValue
  else
    let b : SceneBuild := ⟨scene, conditionFade (field p 1 4), total, addEntries [] es⟩
    if es.length = total then s.completeScene b
    else ⟨{ s with build := some b }, .ok, .sceneProgress es.length total⟩

/-- DEFINE_SCENE (R69). -/
def execDefineScene (tag : Byte) (payload : List Byte) (s : State) : Outcome :=
  answered 0x28 tag <|
    if s.saving then s.refuse .busy
    else if payload.length < 9 ∨ 246 < payload.length ∨ payload.length % 3 ≠ 0 then s.refuse .badLength
    else s.defineScene payload

/-- SCENE_PART for an open build of its scene (R70). -/
def State.scenePart (s : State) (b : SceneBuild) (es : List SceneEntry) : Served :=
  if b.total < b.entries.length + es.length ∨ ¬ entriesInRange es ∨ entriesRepeat es
      ∨ es.any (fun e => b.entries.any fun f => f.channel = e.channel) then
    State.refuse { s with build := none } .badValue
  else
    let b := { b with entries := addEntries b.entries es }
    if b.entries.length = b.total then s.completeScene b
    else ⟨{ s with build := some b }, .ok, .sceneProgress b.entries.length b.total⟩

/-- SCENE_PART (R70). -/
def execScenePart (tag : Byte) (payload : List Byte) (s : State) : Outcome :=
  answered 0x29 tag <|
    if s.saving then s.refuse .busy
    else if payload.length < 4 ∨ 247 < payload.length ∨ payload.length % 3 ≠ 1 then s.refuse .badLength
    else
      match s.build with
      | none => s.refuse .notReady
      | some b => if b.scene = field payload 0 1 then s.scenePart b (sceneEntries (payload.drop 1)) else s.refuse .notReady

/-! ## Removing and reading scenes (R72, R73) -/

/-- Whether a binding takes a scene. -/
def Binding.takes (b : Binding) (scene : Nat) : Bool := b.action = .takeScene scene

/-- A scene is removed with its entries and every binding that takes it (R72). -/
def State.dropScene (s : State) (n : Nat) : State :=
  { s with scenes := tableErase (·.num) n s.scenes, bindings := s.bindings.filter fun b => !b.takes n }

/-- REMOVE_SCENE (R72). -/
def execRemoveScene (tag : Byte) (n : Nat) (s : State) : Outcome :=
  answered 0x2A tag <|
    if s.saving then s.refuse .busy
    else if n < 1 ∨ 64 < n then s.refuse .badValue
    else
      match s.scene n with
      | none => s.refuse .notFound
      | some sc =>
        let t := s.dropScene n
        ⟨t, .ok, .sceneRemoved sc.entries.length t.poolFree (s.bindings.filter fun b => b.takes n).length⟩

/-- READ_SCENE (R73). -/
def execReadScene (tag : Byte) (n first : Nat) (s : State) : Outcome :=
  answered 0x2B tag <|
    if 64 < n then s.refuse .badValue
    else if n = 0 then
      ⟨s, .ok, .sceneList s.poolUsed s.poolFree s.lastTake (s.build.map fun b => (b.scene, b.entries.length, b.total))
        (s.scenes.map fun sc => (sc.num, sc.entries.length))⟩
    else
      match s.scene n with
      | none => s.refuse .notFound
      | some sc =>
        let i := max first 1
        ⟨s, .ok, .scene sc.num sc.fade sc.entries.length i ((sc.entries.drop (i - 1)).take 80)⟩

/-- TAKE_SCENE (R76). -/
def execTakeScene (tag : Byte) (n : Nat) (s : State) : Outcome :=
  answered 0x2C tag <|
    if s.mode ≠ .run then s.refuse .wrongMode
    else if n < 1 ∨ 64 < n then s.refuse .badValue
    else
      match s.scene n with
      | none => s.refuse .notFound
      | some sc => ⟨s.take n .host, .ok, .taken sc.entries.length⟩

/-! ## The binding table (R82, R83) -/

/-- Whether an action names a scene or channel with a record, and a KEY trigger an address with a node record (R82). -/
def State.bindingNamesRecords (s : State) (t : Trigger) (a : Action) : Bool :=
  (match a with
    | .takeScene n => (s.scene n).isSome
    | .setChannel c _ _ => (s.channel c).isSome
    | .toggleChannel c => (s.channel c).isSome) &&
  (match t with
    | .key addr _ _ => (s.node addr).isSome
    | _ => true)

/-- Whether a KEY trigger names a KEYPAD, or a STATION with a key other than 7 and 8 (R82). -/
def State.keyTriggerFits (s : State) (t : Trigger) : Bool :=
  match t with
  | .key addr key _ =>
    (s.node addr).any fun r => r.type = .keypad ∨ (r.type = .station ∧ key ≠ 7 ∧ key ≠ 8)
  | _ => true

/-- SET_BINDING (R82). -/
def execSetBinding (tag : Byte) (slot trigKind : Nat) (trig : List Byte) (actKind : Nat) (act : List Byte) (s : State) :
    Outcome :=
  answered 0x2D tag <|
    if s.saving then s.refuse .busy
    else if slot < 1 ∨ 64 < slot then s.refuse .badValue
    else
      match trigger? trigKind trig, action? actKind act with
      | some t, some a =>
        if ¬ s.bindingNamesRecords t a then s.refuse .notFound
        else if ¬ s.keyTriggerFits t then s.refuse .badValue
        else ⟨{ s with bindings := tablePut (·.slot) ⟨slot, t, a, 0⟩ s.bindings }, .ok, .bindingStored a.fade⟩
      | _, _ => s.refuse .badValue

/-- CLEAR_BINDING (R83). -/
def execClearBinding (tag : Byte) (slot : Nat) (s : State) : Outcome :=
  answered 0x2E tag <|
    if s.saving then s.refuse .busy
    else if slot < 1 ∨ 64 < slot then s.refuse .badValue
    else if (s.binding slot).isNone then s.refuse .notFound
    else State.accept { s with bindings := tableErase (·.slot) slot s.bindings }

/-- The kind of a trigger. -/
def Trigger.kind : Trigger → TriggerKind
  | .key _ _ _ => .key
  | .deck _ => .deck
  | .shed _ _ => .shed
  | .sense _ _ => .sense

/-- The kind of an action. -/
def Action.kind : Action → ActionKind
  | .takeScene _ => .takeScene
  | .setChannel _ _ _ => .setChannel
  | .toggleChannel _ => .toggleChannel

/-- A binding as READ_BINDING with slot 0 returns it (R83). -/
def Binding.line (b : Binding) : BindingLine := ⟨b.slot, b.trigger.kind, b.action.kind, b.fires⟩

/-- READ_BINDING (R83). That slot 0 with a first slot above 64 answers OK with an empty list is the model's choice (DESIGN CHOICE,
notes/assumptions/15.md). -/
def execReadBinding (tag : Byte) (slot first : Nat) (s : State) : Outcome :=
  answered 0x2F tag <|
    if 64 < slot then s.refuse .badValue
    else if slot = 0 then
      ⟨s, .ok, .bindingList s.bindings.length (((s.bindings.filter fun b => max first 1 ≤ b.slot).take 40).map Binding.line)⟩
    else
      match s.binding slot with
      | none => s.refuse .notFound
      | some b => ⟨s, .ok, .binding b⟩

end Sys2Proof.Machine
end

