-- ==== Sys2Proof/Machine/Channels.lean ====
section
/-!
DEFINITION. The channel engine (chapter 3): the refresh tick, fades, last-sent tracking, adoption, mode changes and the
channel requests.
-/

namespace Sys2Proof.Machine

/-! ## The refresh tick (R52 to R56) -/

/-- The number of steps of a fade time: ceil(D / 20), and 1 for 0 (R53). -/
def fadeSteps (fade : Nat) : Nat := if fade = 0 then 1 else ceilDiv fade 20

/-- Stage 1: a channel takes up its staged target by its kind (R53). -/
def Channel.takeUp (c : Channel) : Channel :=
  match c.staged with
  | none => c
  | some t =>
    match c.cfg.kind with
    | .dim => { c with staged := none, target := t.level, fade := some ⟨c.current, t.level, 0, fadeSteps t.fade⟩ }
    | _ => { c with staged := none, target := t.level, current := t.level }

/-- The level of a fade at a step: S + round((T − S) × k / N) (R54). -/
def Fade.levelAt (f : Fade) (k : Nat) : Nat :=
  ((f.start : Int) + roundDiv (((f.target : Int) - f.start) * k) f.total).toNat

/-- Stage 2: a running fade advances one step, and ends at its last (R54). -/
def Channel.advance (c : Channel) : Channel :=
  match c.fade with
  | none => c
  | some f =>
    { c with current := f.levelAt (f.step + 1)
             fade := if f.total ≤ f.step + 1 then none else some { f with step := f.step + 1 } }

/-- Whether a node has a channel that is unsent (R56). -/
def State.hasUnsent (s : State) (addr : Nat) : Bool := s.channels.any fun c => c.cfg.node = addr ∧ c.unsent

/-- Stage 4: LEVELS is requested for every ACTIVE node that has an unsent channel, in ascending order of address (R56;
the order is notes/assumptions/10.md). -/
def State.requestLevels (s : State) : State :=
  (s.nodes.filter fun r => r.state = .active ∧ s.hasUnsent r.addr).foldl (fun s r => s.askTx .levels r.addr) s

/-- One tick of the channel engine: its four stages (R52). -/
def State.tick (s : State) : State :=
  (((s.onChannels Channel.takeUp).onChannels Channel.advance).ramp).requestLevels

/-- REFRESH_TICK (R52): the timer expires every 20 ms. -/
def execRefreshTick (s : State) : Outcome :=
  .next <|
    match s.refresh with
    | none => s
    | some e => State.tick { s.atMoment e with refresh := some (later e 20) }

/-! ## Nodes coming and going (R56 to R59) -/

/-- A LEVELS transaction ended DONE: each channel of the node takes the value sent for its output as its last sent (R56). -/
def State.levelsSent (s : State) (addr : Nat) (sent : List (Nat × Nat)) : State :=
  s.onChannels fun c =>
    if c.cfg.node = addr then
      match sent.find? (fun p => p.1 == c.cfg.index) with
      | some p => { c with lastSent := some p.2 }
      | none => c
    else c

/-- The present levels of a node's bring-up read are adopted into its channels untouched since START (R57). -/
def State.adopt (s : State) (addr : Nat) (levels : List Nat) : State :=
  if s.mode = .config then s
  else
    s.onChannels fun c =>
      if c.cfg.node = addr ∧ c.untouched then
        match levels[c.cfg.index - 1]? with
        | some v =>
          { c with current := v, target := v, lastSent := some v
                   reported := if c.cfg.kind = .blind then some v else c.reported }
        | none => c
      else c

/-- A node has left ACTIVE: its BLIND channels' moving flags are cleared (R58). -/
def State.nodeLeft (s : State) (addr : Nat) : State :=
  s.onChannels fun c => if c.cfg.node = addr ∧ c.cfg.kind = .blind then { c with moving := false } else c

/-- A node has come back: the last sent of every channel of it becomes absent (R58). -/
def State.nodeReturned (s : State) (addr : Nat) : State :=
  s.onChannels fun c => if c.cfg.node = addr then { c with lastSent := none } else c

/-- The positions and moving bits of a good STATUS reply of an ACTIVE BLIND2 (R59). -/
def State.blindReport (s : State) (addr : Nat) (positions : List Nat) (moving : Byte) : State :=
  s.onChannels fun c =>
    if c.cfg.node = addr ∧ c.cfg.kind = .blind then
      { c with reported := positions[c.cfg.index - 1]?.orElse fun _ => c.reported
               moving := moving.getLsbD (c.cfg.index - 1) }
    else c

/-! ## Mode changes (R61, R62) -/

/-- The channel engine makes ready to run: every channel untouched and unsent, at its full ceiling (R61). -/
def Channel.prepare (c : Channel) : Channel :=
  { c with untouched := true, lastSent := none, ceiling := 1000, fade := none, staged := none }

/-- The channel engine enters CONFIG: staged targets and fades are dropped, and the level stands (R62). -/
def Channel.halt (c : Channel) : Channel :=
  { c with staged := none, fade := none, target := if c.fade.isSome then c.current else c.target, ceiling := 1000
           moving := if c.cfg.kind = .blind then false else c.moving }

/-! ## Requests (R63 to R66) -/

/-- SET_LEVEL (R63). -/
def execSetLevel (tag : Byte) (num level fade : Nat) (s : State) : Outcome :=
  answered 0x22 tag <|
    if s.mode ≠ .run then s.refuse .wrongMode
    else if num < 1 ∨ 96 < num then s.refuse .badValue
    else
      match s.channel num with
      | none => s.refuse .notFound
      | some c => ⟨s.stage num level fade, .ok, .staged (conditionLevel c.cfg.kind level) (conditionFade fade)⟩

/-- READ_CHANNEL (R64). -/
def execReadChannel (tag : Byte) (num first : Nat) (s : State) : Outcome :=
  answered 0x23 tag <|
    if 97 ≤ num ∨ (num = 0 ∧ 97 ≤ first) then s.refuse .badValue
    else if num = 0 then
      ⟨s, .ok, .channelList s.channels.length
        (((s.channels.filter fun c => max first 1 ≤ c.cfg.num).take 40).map fun c =>
          (c.cfg.num, c.cfg.node, c.cfg.index, c.output))⟩
    else
      match s.channel num with
      | none => s.refuse .notFound
      | some c => ⟨s, .ok, .channel c c.output c.estimate c.fullEstimate⟩

/-- The configuration DEFINE_CHANNEL stores: floor and preset conditioned, and the fixed figures of a BLIND (R65). -/
def channelConfig (num node index : Nat) (kind : ChannelKind) (rated cls floor preset : Nat) : ChannelConfig :=
  match kind with
  | .dim =>
    ⟨num, node, index, .dim, rated, cls, conditionLevel .dim floor, if preset = 0 then 1000 else conditionLevel .dim preset⟩
  | .switch => ⟨num, node, index, .switch, rated, cls, conditionLevel .switch floor, 1000⟩
  | .blind => ⟨num, node, index, .blind, rated, 0, 0, 1000⟩

/-- The channel record after DEFINE_CHANNEL: its working state is kept when node, output index and kind are unchanged,
and is that of a new record otherwise (R65). -/
def redefine (old : Option Channel) (cfg : ChannelConfig) : Channel :=
  match old with
  | some c =>
    if c.cfg.node = cfg.node ∧ c.cfg.index = cfg.index ∧ c.cfg.kind = cfg.kind then { c with cfg := cfg } else { cfg := cfg }
  | none => { cfg := cfg }

/-- DEFINE_CHANNEL (R65). -/
def execDefineChannel (tag : Byte) (num node index kind rated cls floor preset : Nat) (s : State) : Outcome :=
  answered 0x20 tag <| s.configEdit <|
    match channelKind? kind with
    | none => s.refuse .badValue
    | some k =>
      if num < 1 ∨ 96 < num ∨ node < 1 ∨ 119 < node ∨ index < 1 ∨ k.outputs < index ∨ 3000 < rated ∨ 7 < cls then
        s.refuse .badValue
      else if (s.node node).any (fun r => r.type ≠ k.nodeType) then s.refuse .badValue
      else if s.channels.any (fun c => c.cfg.num ≠ num ∧ c.cfg.node = node ∧ c.cfg.index = index) then s.refuse .inUse
      else
        let cfg := channelConfig num node index k rated cls floor preset
        ⟨{ s with channels := tablePut (·.cfg.num) (redefine (s.channel num) cfg) s.channels }, .ok,
          .channelStored cfg.floor cfg.preset⟩

/-- Whether a binding acts on a channel. -/
def Binding.actsOn (b : Binding) (c : Nat) : Bool :=
  match b.action with
  | .setChannel n _ _ => n = c
  | .toggleChannel n => n = c
  | .takeScene _ => false

/-- A channel is removed with its scene entries, the scenes this leaves empty and the bindings that act on it (R66). The
counts are added to those given. -/
def State.dropChannel (s : State) (n : Nat) (counts : Removed) : State × Removed :=
  let entries := (s.scenes.map fun sc => (sc.entries.filter fun e => e.channel = n).length).sum
  let emptied := (s.scenes.filter fun sc =>
    sc.entries.any (fun e => e.channel = n) ∧ sc.entries.all (fun e => e.channel = n)).map (·.num)
  let s₁ := { s with scenes := s.scenes.map fun sc => { sc with entries := sc.entries.filter fun e => e.channel ≠ n } }
  let s₂ := emptied.foldl State.dropScene s₁
  let s₃ := { s₂ with bindings := s₂.bindings.filter fun b => !b.actsOn n
                      channels := tableErase (·.cfg.num) n s₂.channels }
  (s₃, { counts with entries := counts.entries + entries, scenes := counts.scenes + emptied.length
                     bindings := counts.bindings + (s.bindings.length - s₃.bindings.length) })

/-- REMOVE_CHANNEL (R66). -/
def execRemoveChannel (tag : Byte) (num : Nat) (s : State) : Outcome :=
  answered 0x21 tag <| s.configEdit <|
    if num < 1 ∨ 96 < num then s.refuse .badValue
    else if (s.channel num).isNone then s.refuse .notFound
    else
      let (t, counts) := s.dropChannel num {}
      ⟨t, .ok, .removed counts⟩

end Sys2Proof.Machine
end

