-- ==== Sys2Proof/Machine/Sense.lean ====
section
/-!
DEFINITION. The sense unit (chapter 6): the conversion of a sweep, rail checks, limit monitors, supply samples and the
sense requests. What the readers of the inputs do at a sweep stands with them (Deck.lean, Windlass.lean).
-/

namespace Sys2Proof.Machine

/-- The scaled value of a raw conversion: low + round(raw × (high − low) / 4095) (R107). -/
def SenseSettings.scale (c : SenseSettings) (raw : Raw) : Int := c.low + roundDiv (raw.toNat * (c.high - c.low)) 4095

/-- All eight inputs are converted and scaled, together (R106). -/
def State.convert (s : State) (raw : Vector Raw 8) : State :=
  s.onSense fun u =>
    let converted : Fin 8 → SenseInput := fun i =>
      { u.inputs[i] with raw := raw[i], scaled := u.inputs[i].settings.scale raw[i] }
    { u with inputs := Vector.ofFn converted }

/-- The supply sample window is emptied (R110). -/
def Sense.emptyWindow (u : Sense) : Sense := { u with window := [] }

/-- The rail check of an input: five sweeps running at a rail fault it, and the first off the rails clears it (R112). A
supply input that becomes FAULTED empties the sample window (R110). -/
def State.railCheck (s : State) (i : Nat) : State :=
  let x := s.input i
  if x.raw = 0 ∨ x.raw = 4095 then
    let n := min (x.railCount + 1) 5
    let s := s.onInput i fun x => { x with railCount := n }
    if n = 5 ∧ x.faulted = false then
      let s := (s.onInput i fun x => { x with faulted := true }).post .senseFault i (leBytes 2 x.raw.toNat)
      if i ≤ 2 then s.onSense Sense.emptyWindow else s
    else s
  else
    let s := s.onInput i fun x => { x with railCount := 0 }
    if x.faulted then (s.onInput i fun x => { x with faulted := false }).post .senseOk i (leBytes 2 x.raw.toNat)
    else s

/-- A crossing of a limit: SENSE_LIMIT is posted and the event is offered (R111). -/
def State.crossing (s : State) (i : Nat) (c : Crossing) (v limit : Int) : State :=
  (s.post .senseLimit i (leBytes 1 (match c with | .aboveHigh => 1 | .belowLow => 2) ++ leSigned 2 v ++ leSigned 2 limit)).offer
    (.sense i c)

/-- The high monitor of an input at a sweep (R111). -/
def State.highMonitor (s : State) (i : Nat) : State :=
  let x := s.input i
  if x.highTripped then
    if x.scaled < x.settings.highLimit - x.settings.hysteresis then s.onInput i fun x => { x with highTripped := false } else s
  else if x.settings.highLimit < x.scaled then
    (s.onInput i fun x => { x with highTripped := true }).crossing i .aboveHigh x.scaled x.settings.highLimit
  else s

/-- The low monitor of an input at a sweep (R111). -/
def State.lowMonitor (s : State) (i : Nat) : State :=
  let x := s.input i
  if x.lowTripped then
    if x.settings.lowLimit + x.settings.hysteresis < x.scaled then s.onInput i fun x => { x with lowTripped := false } else s
  else if x.scaled < x.settings.lowLimit then
    (s.onInput i fun x => { x with lowTripped := true }).crossing i .belowLow x.scaled x.settings.lowLimit
  else s

/-- An input at a sweep: its rail check, and then its monitors, which are held while it is FAULTED (R106, R111). -/
def State.sweepInput (s : State) (i : Nat) : State :=
  let s := s.railCheck i
  if (s.input i).faulted then s else (s.highMonitor i).lowMonitor i

/-- A sample pushed into the window of eight, the oldest dropped (R109). -/
def pushSample (w : List Nat) (p : Nat) : List Nat := (w ++ [p]).drop (w.length + 1 - 8)

/-- The supply power of a sweep, in watts: round(V × I / 100), each taken as 0 below 0 (R109). -/
def State.supplyPower (s : State) : Nat :=
  (roundDiv (max (s.input 1).scaled 0 * max (s.input 2).scaled 0) 100).toNat

/-- The sample phase advances, and every fifth sweep is a sample sweep (R109). -/
def State.supplySample (s : State) : State :=
  if s.sense.phase < 4 then s.onSense fun u => { u with phase := u.phase + 1 }
  else
    let s := s.onSense fun u => { u with phase := 0 }
    if s.supplyFaulted then s else s.onSense fun u => { u with window := pushSample u.window s.supplyPower }

/-- The sense unit's own operation at a sweep (R106): conversion, then each input in order, then the sample. -/
def State.senseSweep (s : State) (raw : Vector Raw 8) : State :=
  ([1, 2, 3, 4, 5, 6, 7, 8].foldl State.sweepInput (s.convert raw)).supplySample

/-! ## Requests (R115, R116) -/

/-- SET_SENSE (R115): the record is replaced and both monitors are armed. -/
def execSetSense (tag : Byte) (input : Nat) (low high lowLimit highLimit : Int) (hysteresis : Nat) (s : State) : Outcome :=
  answered 0x38 tag <| s.configEdit <|
    if input < 1 ∨ 8 < input ∨ 32767 < hysteresis ∨ highLimit < lowLimit then s.refuse .badValue
    else
      (s.onInput input fun x =>
        { x with settings := ⟨low, high, lowLimit, highLimit, hysteresis⟩, highTripped := false, lowTripped := false }).accept

/-- The figures READ_SENSE returns of an input (R116). -/
def SenseInput.figures (x : SenseInput) : SenseFigures := ⟨x.raw, x.scaled, x.faulted, x.railCount, x.highTripped, x.lowTripped⟩

/-- READ_SENSE (R116). That the reply of one input carries P_avg, the number of samples and the sample phase too is the model's
choice (DESIGN CHOICE, notes/assumptions/34.md). -/
def execReadSense (tag : Byte) (selector : Nat) (s : State) : Outcome :=
  answered 0x39 tag <|
    if 8 < selector then s.refuse .badValue
    else if selector = 0 then
      ⟨s, .ok, .sense (s.sense.inputs.toList.map SenseInput.figures) s.sense.average s.sense.window.length s.sense.phase⟩
    else
      ⟨s, .ok, .senseOne (s.input selector).figures (s.input selector).settings s.sense.average s.sense.window.length s.sense.phase⟩

end Sys2Proof.Machine
end

