-- ==== Sys2Proof/Machine/Deck.lean ====
section
/-!
DEFINITION. The hydraulic power unit and the two mover controllers (chapter 7): the pump's states and hand-over, motions,
interlocks, watches, settling and faults.
-/

namespace Sys2Proof.Machine

/-! ## A mover's own states (R126, R127, R133) -/

/-- Whether a direction energises a mover's raising valve: hatch OPEN and platform UP (section 7.1). -/
def Direction.raises : Direction → Bool
  | .opening | .up => true
  | _ => false

/-- A mover enters MOVING: the valve of its direction is energised, the travel timer starts, the stall watch is idle and
the angle of the last sweep is the motion's starting angle (R126). -/
def State.enterMoving (s : State) (m : MoverId) : State :=
  s.onMover m fun r =>
    let up := r.motion.any (·.dir.raises)
    { r with state := .moving, raise := up, lower := !up
             travelTimer := some (s.after r.settings.timeout), stall := none
             motion := r.motion.map fun k => { k with startAngle := some (s.angle m) } }

/-- A mover leaves MOVING: its valve closes and it enters SETTLING with a stop cause, for 500 ms (R127, R132, R133). -/
def State.enterSettling (s : State) (m : MoverId) (cause : Cause) : State :=
  s.onMover m fun r =>
    { r with state := .settling, raise := false, lower := false, travelTimer := none, stall := none
             stopCause := some cause, stopLater := 0, pendingFault := none, settleTimer := some (s.after 500) }

/-- MOTION_STOPPED of a mover: the cause, the position and the angle of the last sweep (R133). -/
def State.postStopped (s : State) (m : MoverId) (cause : Cause) : State :=
  s.post .motionStopped (moverDeck m).code
    (leBytes 1 cause.code ++ leBytes 1 (s.mover m).position.code ++ leSigned 2 (s.angle m))

/-- MOTION_DONE of a mover: the position and the angle (R134). -/
def State.postDone (s : State) (m : MoverId) : State :=
  s.post .motionDone (moverDeck m).code (leBytes 1 (s.mover m).position.code ++ leSigned 2 (s.angle m))

/-- A waiting mover returns to rest with a cause: no settling, MOTION_STOPPED, its motion absent and its owner NONE (R133). -/
def State.returnToRest (s : State) (m : MoverId) (cause : Cause) : State :=
  ((s.onMover m fun r => { r with state := .atRest, motion := none }).postStopped m cause).releaseOwner (moverResource m)

/-- The interlock watch: a MOVING mover whose condition fails closes its valve and settles with cause INTERLOCK (R130). -/
def State.watchInterlockOf (s : State) (m : MoverId) : State :=
  if (s.mover m).state = .moving ∧ ¬ s.motionInterlock m then s.enterSettling m .interlock else s

/-- The interlock watch on both movers (R130). -/
def State.watchInterlock (s : State) : State := (s.watchInterlockOf .hatch).watchInterlockOf .platform

/-- A mover's position is evaluated again (R125). -/
def State.reposition (s : State) (m : MoverId) : State := s.onMover m fun r => { r with position := s.evalPosition m }

/-! ## The hydraulic power unit (R120 to R123) -/

/-- The HPU opens its contactor, enters OFF and releases its grant (R122, R137). -/
def State.hpuOff (s : State) : State :=
  State.releaseGrant
    (s.onHpu fun h => { h with state := .off, contactor := false, holder := none, waiting := none, readyTimer := none,
                               runOnTimer := none, overWatch := none }) .hpu

/-- The HPU is left with neither holder nor waiter: RUN_ON, or OFF in STOPPING; a run-on of 0 expires at once (R121, R122). -/
def State.hpuIdle (s : State) : State :=
  if s.mode = .stopping ∨ s.hpu.settings.runOn = 0 then s.hpuOff
  else s.onHpu fun h => { h with state := .runOn, holder := none, readyTimer := none,
                                 runOnTimer := some (s.after h.settings.runOn) }

/-- The pump is given to a mover whose interlock has passed: the HPU is READY and the mover MOVING (R121, R122). -/
def State.givePump (s : State) (m : MoverId) : State :=
  State.enterMoving
    (s.onHpu fun h => { h with state := .ready, holder := some m, readyTimer := none, runOnTimer := none }) m

/-- The wait slot is served: its mover takes the pump when its interlock passes, and otherwise returns to rest with cause
INTERLOCK; with no mover to serve the HPU goes idle (R121, R122). -/
def State.serveWaiter (s : State) : State :=
  match s.hpu.waiting with
  | none => s.hpuIdle
  | some w =>
    let s := s.onHpu fun h => { h with waiting := none, holder := none }
    if s.motionInterlock w then s.givePump w else (s.returnToRest w .interlock).hpuIdle

/-- The ready pressure is reached in STARTING (R121). -/
def State.hpuReady (s : State) : State :=
  match s.hpu.holder with
  | some m =>
    if s.motionInterlock m then s.givePump m
    else State.serveWaiter ((s.onHpu fun h => { h with holder := none }).returnToRest m .interlock)
  | none => s.serveWaiter

/-- The hand-over at the end of the holder's SETTLING (R122). -/
def State.handOver (s : State) (m : MoverId) : State :=
  if s.hpu.holder = some m then
    let s := s.onHpu fun h => { h with holder := none }
    if s.hpu.state = .fault then s else s.serveWaiter
  else s

/-- A mover asks for the pump with a motion: the answer is the state and, when refused, the status (R120, R122). -/
def State.pump (s : State) (m : MoverId) (k : Motion) : State × Option Status :=
  let waits := fun (s : State) => s.onMover m fun r => { r with state := .waitPump, motion := some k }
  match s.hpu.state with
  | .off =>
    if (s.input 3).faulted then (s, some .notReady)
    else
      match s.startAdmission .hpu s.hpu.settings.rated s.hpu.settings.inrush s.hpu.settings.inrushWindow with
      | (s, false) => (s, some .noBudget)
      | (s, true) =>
        (waits (s.onHpu fun h => { h with state := .starting, contactor := true, holder := some m,
                                          readyTimer := some (s.after h.settings.readyLimit) }), none)
  | .starting =>
    (waits (s.onHpu fun h => if h.holder.isSome then { h with waiting := some m } else { h with holder := some m }), none)
  | .ready => (waits (s.onHpu fun h => { h with waiting := some m }), none)
  | .runOn => ((s.onMover m fun r => { r with motion := some k }).givePump m, none)
  | .fault => (s, some .faulted)

/-- A later count raised by 1, saturating at 255. -/
def FaultRecord.again (f : FaultRecord) : FaultRecord := { f with later := min (f.later + 1) 255 }

/-- The HPU enters FAULT (R123): the contactor opens and the grant is released, HPU_FAULT is posted and the event offered,
and the holder and the waiter are stopped with cause HPU_FAULT. -/
def State.hpuFault (s : State) (cause : Cause) : State :=
  let s := State.releaseGrant
    (s.onHpu fun h => { h with state := .fault, contactor := false, fault := some ⟨cause, 0⟩, readyTimer := none,
                               runOnTimer := none }) .hpu
  let s := s.post .hpuFault 4 (leBytes 1 cause.code ++ leSigned 2 s.pressure)
  let s := s.offer (.deck (.fault .hpu))
  let s :=
    match s.hpu.holder with
    | none => s
    | some m =>
      let t := s.onHpu fun h => { h with holder := none }
      match (s.mover m).state with
      | .moving => t.enterSettling m .hpuFault
      | .waitPump => t.returnToRest m .hpuFault
      | _ => t
  match s.hpu.waiting with
  | none => s
  | some w => (s.onHpu fun h => { h with waiting := none }).returnToRest w .hpuFault

/-- A waiting mover withdraws from the HPU: the wait slot's mover takes the place of a holder that leaves (R121, R133). -/
def Hpu.withdraw (h : Hpu) (m : MoverId) : Hpu :=
  if h.holder = some m then { h with holder := h.waiting, waiting := none }
  else if h.waiting = some m then { h with waiting := none }
  else h

/-- In STOPPING, a STARTING HPU left with neither holder nor waiter enters OFF at once (R121, R137). -/
def State.dropIdleStart (s : State) : State :=
  if s.mode = .stopping ∧ s.hpu.state = .starting ∧ s.hpu.holder = none ∧ s.hpu.waiting = none then s.hpuOff else s

/-- A mover in WAIT_PUMP withdraws and returns to rest with a cause (R133). -/
def State.withdraw (s : State) (m : MoverId) (cause : Cause) : State :=
  ((s.onHpu fun h => h.withdraw m).returnToRest m cause).dropIdleStart

/-- A stop with a cause that is not a fault cause acts on the mover by its state (R133). -/
def State.moverStop (s : State) (m : MoverId) (cause : Cause) : State :=
  match (s.mover m).state with
  | .waitPump => s.withdraw m cause
  | .moving => s.enterSettling m cause
  | _ => s

/-! ## Accepting a motion (R128, R129) -/

/-- The direction of a motion to a target (R128). -/
def State.moveDirection (s : State) (m : MoverId) (goal : Position) : Direction :=
  match m, goal with
  | .hatch, .closed => .closing
  | .hatch, _ => .opening
  | .platform, .stowed => .up
  | .platform, .atDeck => if s.angle .platform < s.platform.settings.deck then .up else .down
  | .platform, _ => .down

/-- The checks of a motion after its end is known: the inputs, the interlock and the pump (R128). -/
def State.startMotion (s : State) (m : MoverId) (kind : MotionKind) (dir : Direction) (goal : Position) :
    State × Option Status :=
  let from_ := (s.mover m).position
  let stow := s.stowFlag m from_ goal
  if s.angleFaulted m ∨ (s.input 3).faulted then (s, some .notReady)
  else if ¬ s.interlock m stow then (s, some .interlock)
  else s.pump m ⟨kind, dir, goal, stow, from_, none⟩

/-- The host becomes owner of a resource (R128, R158, R166). -/
def State.hostOwns (s : State) (r : Resource) (dir : Direction) (target : Option HostTarget) : State :=
  s.onOwner r fun _ => { owner := .host, dir := some dir, target := target, acquired := some s.uptime }

/-- The ownership checks of a host motion: a station's ownership, and the host's own (R166). -/
def State.ownerRefusal (s : State) (r : Resource) : Option Status :=
  match (s.ownerOf r).owner with
  | .station _ => some .notOwner
  | .host => some .busy
  | .none => none

/-- MOVE on a mover to one of its ends (R128). -/
def State.moveTo (s : State) (m : MoverId) (goal : Position) : Served :=
  match s.ownerRefusal (moverResource m) with
  | some st => s.refuse st
  | none =>
    if (s.mover m).state = .fault then s.refuse .faulted
    else if (s.mover m).state = .atRest ∧ (s.mover m).position = goal then (s.postDone m).accept
    else if m = .platform ∧ goal = .atDeck ∧ s.platform.inDeckBand (s.angle .platform) then s.refuse .notReady
    else
      let dir := s.moveDirection m goal
      match s.startMotion m .target dir goal with
      | (t, some st) => t.refuse st
      | (t, none) => (t.hostOwns (moverResource m) dir (some (.position goal))).accept

/-- What a controller answers to a station jog (R129, R149). -/
inductive JogAnswer where
  | ok | atEnd | refused (status : Status)
  deriving DecidableEq, Repr

/-- The end of a jog from the present position, when it has one to go to; none where the direction's end is the present
position (the table of R129). -/
def State.jogGoal (s : State) (m : MoverId) (dir : Direction) : Option Position :=
  let below := s.angle .platform < s.platform.settings.deck - 10
  match m, dir.raises, (s.mover m).position with
  | .hatch, true, p => if p = .opened then none else some .opened
  | .hatch, false, p => if p = .closed then none else some .closed
  | .platform, true, .stowed => none
  | .platform, true, .submerged => some .atDeck
  | .platform, true, .between => if below then some .atDeck else some .stowed
  | .platform, true, _ => some .stowed
  | .platform, false, .submerged => none
  | .platform, false, .stowed => some .atDeck
  | .platform, false, .between => if below then some .submerged else some .atDeck
  | .platform, false, _ => some .submerged

/-- A station jog of a mover (R129). R128's check of a platform MOVE to AT_DECK, that the angle does not lie within the deck angle ± 10,
is not made for a jog from STOWED or SUBMERGED (DESIGN CHOICE, notes/assumptions/28.md). -/
def State.moverJog (s : State) (m : MoverId) (dir : Direction) : State × JogAnswer :=
  if (s.mover m).state = .fault then (s, .refused .faulted)
  else if m = .platform ∧ s.platform.position = .between
      ∧ (s.angleFaulted .platform ∨ s.platform.inDeckBand (s.angle .platform)) then (s, .refused .notReady)
  else
    match s.jogGoal m dir with
    | none => (s, .atEnd)
    | some goal =>
      match s.startMotion m .jog dir goal with
      | (t, some st) => (t, .refused st)
      | (t, none) => (t, .ok)

/-! ## Settling and faults (R132, R134, R135) -/

/-- A fault cause that arises during SETTLING: it becomes the pending fault when there is no fault cause yet, and counts
as a later one otherwise (R134). -/
def Mover.noteFault (r : Mover) (cause : Cause) : Mover :=
  match r.pendingFault with
  | some p => { r with pendingFault := some p.again }
  | none =>
    if r.stopCause.any Cause.isFault then { r with stopLater := min (r.stopLater + 1) 255 }
    else { r with pendingFault := some ⟨cause, 0⟩ }

/-- The first fault cause of a motion with the later count gathered: the stop cause when it is one, and otherwise the
pending fault (R134). -/
def winningFault (stop : Option Cause) (later : Nat) (pending : Option FaultRecord) : Option FaultRecord :=
  match stop with
  | some c => if c.isFault then some ⟨c, later⟩ else pending
  | none => pending

/-- The completion event of a position (R134). -/
def Position.event : Position → Option DeckEvent
  | .opened => some .hatchOpened
  | .closed => some .hatchClosed
  | .stowed => some .platformStowed
  | .atDeck => some .platformAtDeck
  | .submerged => some .platformSubmerged
  | .between => none

/-- SENSOR_DISAGREE at the end of settling: it becomes the pending fault when none is present, whatever the stop cause, and counts
as a later one otherwise (R134). -/
def Mover.noteDisagreement (r : Mover) : Mover :=
  { r with pendingFault := some ((r.pendingFault.map FaultRecord.again).getD ⟨.sensorDisagree, 0⟩) }

/-- The disagreement test at the end of settling (R134). -/
def State.disagreementTest (s : State) (m : MoverId) : State :=
  if s.angleFaulted m = false ∧ (s.mover m).disagrees (s.angle m) then s.onMover m Mover.noteDisagreement else s

/-- The completion event: a mover AT_REST at an end that differs from its motion's start position (R134). -/
def State.offerCompletion (s : State) (m : MoverId) (k : Option Motion) : State :=
  match (s.mover m).position.event, k with
  | some e, some k => if (s.mover m).position = k.from_ then s else s.offer (.deck e)
  | _, _ => s

/-- The outcome of a settle: FAULT with DECK_FAULT, or AT_REST with its notice and completion event (R134). -/
def State.settleOutcome (s : State) (m : MoverId) : State :=
  let r := s.mover m
  match winningFault r.stopCause r.stopLater r.pendingFault with
  | some f =>
    let s := s.onMover m fun r => { r with state := .fault, fault := some f, settleTimer := none }
    let s := s.post .deckFault (moverDeck m).code
      (leBytes 1 f.cause.code ++ leBytes 1 f.later ++ leSigned 2 (s.angle m))
    s.offer (.deck (.fault (moverDeck m)))
  | none =>
    let s := s.onMover m fun r => { r with state := .atRest, settleTimer := none }
    let s := match r.stopCause with
      | some .target | some .ended => s.postDone m
      | some c => s.postStopped m c
      | none => s
    s.offerCompletion m r.motion

/-- The settle of a mover ends (R134). -/
def State.settleEnd (s : State) (m : MoverId) : State :=
  let s := (s.disagreementTest m).settleOutcome m
  let s := s.releaseOwner (moverResource m)
  let s := s.onMover m fun r => { r with motion := none, stopCause := none, stopLater := 0, pendingFault := none }
  s.handOver m

/-! ## What the movers and the HPU do at a sweep (R113, R121, R123, R131, R132) -/

/-- HPU_PRESSURE has become FAULTED (R123). -/
def State.pressureFaulted (s : State) : State :=
  match s.hpu.state with
  | .off => s
  | .fault => s.onHpu fun h => { h with fault := h.fault.map FaultRecord.again }
  | _ => s.hpuFault .sensorFault

/-- A mover's angle input has become FAULTED (R132, R133, R134, R135). -/
def State.angleHasFaulted (s : State) (m : MoverId) : State :=
  match (s.mover m).state with
  | .atRest => s
  | .waitPump => s.withdraw m .sensorFault
  | .moving => s.enterSettling m .sensorFault
  | .settling => s.onMover m fun r => r.noteFault .sensorFault
  | .fault => s.onMover m fun r => { r with fault := r.fault.map FaultRecord.again }

/-- The cause of a motion's arrival (R131). -/
def Motion.arrival (k : Motion) : Cause := match k.kind with | .target => .target | .jog => .ended

/-- Whether a MOVING platform arrives at AT_DECK at a sweep: its angle is in the band and its starting angle was not (R131). -/
def State.arrivesAtDeck (s : State) (m : MoverId) (k : Motion) : Bool :=
  k.goal = .atDeck ∧ s.angleFaulted m = false ∧ (s.mover m).inDeckBand (s.angle m)
    ∧ k.startAngle.any (fun a => !(s.mover m).inDeckBand a)

/-- The stall watch of a MOVING mover at a sweep: the watch after it, and whether it has reached 2,000 ms (R132). -/
def State.stallStep (s : State) (m : MoverId) : Option StallWatch × Bool :=
  match (s.mover m).stall with
  | none => (if (s.hpu.settings.stallPressure : Int) ≤ s.pressure then some ⟨s.uptime, s.angle m⟩ else none, false)
  | some w =>
    if s.pressure < s.hpu.settings.stallPressure ∨ 5 ≤ (s.angle m - w.ref).natAbs then (none, false)
    else (some w, decide (2000 ≤ elapsed w.start s.uptime))

/-- A mover at a sweep: while MOVING, its arrival at the deck and its watches, the first that applies (R131, R132; the
order is notes/assumptions/13.md). -/
def State.moverSweep (s : State) (m : MoverId) : State :=
  let r := s.mover m
  match r.motion with
  | none => s
  | some k =>
    if r.state ≠ .moving then s
    else if s.arrivesAtDeck m k then s.enterSettling m k.arrival
    else
      let (w, stalled) := s.stallStep m
      let t := s.onMover m fun r => { r with stall := w }
      if stalled then t.enterSettling m .stall
      else if r.switchMissing k.goal (s.angle m) then t.enterSettling m .switchMissing
      else t

/-- The overpressure watch at a sweep: the watch after it, and whether it has reached its time (R123). -/
def State.overStep (s : State) : Option Uptime × Bool :=
  watchStep s.uptime (decide ((s.hpu.settings.overpressure : Int) < s.pressure)) s.hpu.settings.overTime s.hpu.overWatch

/-- The HPU at a sweep: its overpressure watch, and in STARTING the ready pressure (R121, R123). Where both come true at one
sweep the overpressure fault is taken first (DESIGN CHOICE, notes/assumptions/13.md). -/
def State.hpuSweep (s : State) : State :=
  if s.hpu.state = .off then s.onHpu fun h => { h with overWatch := none }
  else
    let (w, tripped) := s.overStep
    let t := s.onHpu fun h => { h with overWatch := w }
    if tripped then
      if t.hpu.state = .fault then t.onHpu fun h => { h with fault := h.fault.map FaultRecord.again }
      else t.hpuFault .overpressure
    else if t.hpu.state = .starting ∧ (t.hpu.settings.readyPressure : Int) ≤ t.pressure then t.hpuReady
    else t

/-! ## A switch event (R117, R125, R131) -/

/-- The mover that owns a switch. -/
def switchMover : DeckSwitch → MoverId
  | .hatchClosed | .hatchOpen => .hatch
  | .platStowed | .platSubmerged => .platform

/-- The end a switch marks. -/
def switchEnd : DeckSwitch → Position
  | .hatchClosed => .closed | .hatchOpen => .opened | .platStowed => .stowed | .platSubmerged => .submerged

/-- The debounced state of a switch. -/
def State.switchState (s : State) : DeckSwitch → Bool
  | .hatchClosed => s.hatch.lowSw | .hatchOpen => s.hatch.highSw
  | .platStowed => s.platform.highSw | .platSubmerged => s.platform.lowSw

/-- A mover with the debounced state of one of its switches changed. -/
def Mover.setSwitch (r : Mover) (sw : DeckSwitch) (active : Bool) : Mover :=
  match sw with
  | .hatchClosed | .platSubmerged => { r with lowSw := active }
  | .hatchOpen | .platStowed => { r with highSw := active }

/-- A MOVING mover arrives at its switch end at the event that makes the switch ACTIVE (R131). -/
def State.switchArrival (s : State) (sw : DeckSwitch) (becameActive : Bool) : State :=
  let m := switchMover sw
  match (s.mover m).motion with
  | none => s
  | some k =>
    if becameActive ∧ (s.mover m).state = .moving ∧ k.goal = switchEnd sw then s.enterSettling m k.arrival else s

/-- A switch event: the debounced state changes, the position is evaluated again, the interlock watch acts on the other
mover, and a MOVING mover may arrive (R117, R125, R130, R131). -/
def State.switchEvent (s : State) (sw : DeckSwitch) (active : Bool) : State :=
  let m := switchMover sw
  let t := (s.onMover m fun r => r.setSwitch sw active).reposition m
  (t.watchInterlockOf (otherMover m)).switchArrival sw (active && !s.switchState sw)

/-! ## Clearing a fault (R124, R135) -/

/-- CLEAR_FAULT of the HPU (R124). -/
def State.clearHpu (s : State) : Served :=
  if s.hpu.state = .fault then
    if s.hpuCondition then s.refuse .conditionPresent
    else (s.onHpu fun h => { h with state := .off, fault := none, overWatch := none }).accept
  else s.accept

/-- CLEAR_FAULT of a mover (R135). -/
def State.clearMover (s : State) (m : MoverId) : Served :=
  if (s.mover m).state = .fault then
    if s.moverCondition m then s.refuse .conditionPresent
    else (s.onMover m fun r => { r with state := .atRest, fault := none }).accept
  else s.accept

/-! ## Settings (R118, R119) -/

/-- Whether the nine HPU figures lie within their ranges (R118). -/
def hpuInRange (f : HpuSettings) : Bool :=
  f.rated ≤ 200000 ∧ f.inrush ≤ 200000 ∧ f.inrushWindow ≤ 10000 ∧ f.readyPressure ≤ 32767
    ∧ (100 ≤ f.readyLimit ∧ f.readyLimit ≤ 60000) ∧ f.overpressure ≤ 32767 ∧ (10 ≤ f.overTime ∧ f.overTime ≤ 10000)
    ∧ f.stallPressure ≤ 32767 ∧ f.runOn ≤ 600000

/-- SET_HPU (R118). -/
def execSetHpu (tag : Byte) (f : HpuSettings) (s : State) : Outcome :=
  answered 0x40 tag <| s.configEdit <|
    if hpuInRange f then (s.onHpu fun h => { h with settings := f }).accept else s.refuse .badValue

/-- Whether an angle lies within −32768..32767 (R119). -/
def angleInRange (a : Int) : Bool := -32768 ≤ a ∧ a ≤ 32767

/-- The settings record of SET_MOVER's figures: closed and open for the hatch; stowed, deck and submerged for the platform
(R119, R184). -/
def moverFigures (m : MoverId) (a1 a2 a3 : Int) (timeout : Nat) : MoverSettings :=
  match m with
  | .hatch => ⟨a1, 0, a2, timeout⟩
  | .platform => ⟨a3, a2, a1, timeout⟩

/-- SET_MOVER (R119). The hatch's third figure is not read (R184). -/
def execSetMover (tag : Byte) (resource : Nat) (a1 a2 a3 : Int) (timeout : Nat) (s : State) : Outcome :=
  answered 0x41 tag <| s.configEdit <|
    match mover? resource with
    | none => s.refuse .badValue
    | some m =>
      if ¬ angleInRange a1 ∨ ¬ angleInRange a2 ∨ (m = .platform ∧ ¬ angleInRange a3) ∨ timeout < 1000 ∨ 600000 < timeout then
        s.refuse .badValue
      else (s.onMover m fun r => { r with settings := moverFigures m a1 a2 a3 timeout }).accept

/-! ## Reading (R138) -/

/-- A mover as READ_DECK returns it (R138). -/
def State.moverView (s : State) (m : MoverId) : MoverView :=
  let r := s.mover m
  { mover := r, travel := r.travelTimer.map (remaining s.uptime), settle := r.settleTimer.map (remaining s.uptime)
    stall := r.stall.map fun w => elapsed w.start s.uptime, angle := s.angle m, owner := s.ownerOf (moverResource m) }

/-- The HPU as READ_DECK returns it (R138). -/
def State.hpuView (s : State) : HpuView :=
  { hpu := s.hpu, ready := s.hpu.readyTimer.map (remaining s.uptime), runOn := s.hpu.runOnTimer.map (remaining s.uptime)
    overElapsed := s.hpu.overWatch.map fun t => elapsed t s.uptime, pressure := s.pressure
    granted := s.alloc.hpuGrant.isSome }

end Sys2Proof.Machine
end

