-- ==== Sys2Proof/Machine/Windlass.lean ====
section
/-!
DEFINITION. The windlass controller (chapter 8): the gypsy counter and its index check, the rode and its flags, runs and
their ends, stage 2, stopping, faults and the fault watches.
-/

namespace Sys2Proof.Machine

/-! ## Stops and settling (R153 to R155) -/

/-- Whether the windlass is in STARTING or RUNNING. -/
def Windlass.underWay (w : Windlass) : Bool := w.state = .starting ∨ w.state = .running

/-- Every output de-energised; a direction contactor that opens starts the opposite one's deadband (R139, R146). -/
def Windlass.open_ (w : Windlass) (free : Uptime) : Windlass :=
  { w with payOut := false, heave := false, stage2 := false, brakeRelease := false
           heaveFree := if w.payOut then free else w.heaveFree
           payOutFree := if w.heave then free else w.payOutFree }

/-- A stop with a cause: in STARTING and RUNNING the contactors open, the brake applies and the settle timer starts; in
every other state nothing (R153). -/
def State.windlassStop (s : State) (cause : Cause) : State :=
  if s.windlass.underWay then
    s.onWindlass fun w =>
      { w.open_ (s.after 500) with
        state := .stopping, stopCause := some cause, stopLater := 0, pendingFault := none
        settleTimer := some (s.after 300), brakeTimer := none, jamTimer := none, delayTimer := none
        overWatch := none, lowWatch := none }
  else s

/-- A notice of the windlass with the present rode as its last field but for what follows it. -/
def State.postRode (s : State) (kind : NoticeKind) (before after_ : List Byte) : State :=
  s.post kind DeckResource.windlass.code (before ++ leSigned 4 s.windlass.rode ++ after_)

/-- ANCHOR_AT_TARGET: the rode and the count less the target counts (R153). -/
def State.postAtTarget (s : State) (target : Int) : State :=
  s.postRode .anchorAtTarget [] (leSigned 2 (s.windlass.position - target))

/-- The outcome of a settle: FAULT with its record, and the rode uncertain for HOME_NOT_FOUND, or IDLE (R153, R155). -/
def Windlass.settled (w : Windlass) : Windlass :=
  match winningFault w.stopCause w.stopLater w.pendingFault with
  | some f =>
    { w with state := .fault, fault := some f, settleTimer := none
             rodeUncertain := w.rodeUncertain || decide (f.cause = .homeNotFound) }
  | none => { w with state := .idle, settleTimer := none }

/-- The notice of a settle and the event offered with it (R153, R155). -/
def State.windlassNotice (s : State) : State :=
  let w := s.windlass
  match w.state, w.fault with
  | .fault, some f =>
    (s.postRode .deckFault (leBytes 1 f.cause.code ++ leBytes 1 f.later) []).offer (.deck (.fault .windlass))
  | _, _ =>
    if w.homeFlag then (s.postRode .anchorHome [] []).offer (.deck .anchorHome)
    else
      match w.stopCause, w.run.filter (fun r => r.kind = .seek) with
      | some .target, some r => (s.postAtTarget r.target).offer (.deck .anchorAtTarget)
      | some .ended, _ => s.postRode .motionDone [] []
      | some c, _ => s.postRode .motionStopped (leBytes 1 c.code) []
      | none, _ => s

/-- The settle of the windlass ends: outcome, grant, notice, completion event, ownership (R153). -/
def State.windlassSettleEnd (s : State) : State :=
  let s := (s.onWindlass Windlass.settled).releaseGrant .windlass
  let s := s.windlassNotice.releaseOwner .windlass
  s.onWindlass fun w => { w with run := none, stopCause := none, stopLater := 0, pendingFault := none, homeFlag := false }

/-! ## Starting and running (R150, R152) -/

/-- The direction contactor closes and the brake timer starts (R150). -/
def State.closeContactor (s : State) (dir : RodeDir) : State :=
  s.onWindlass fun w =>
    { w with payOut := decide (dir = .payOut), heave := decide (dir = .heave), brakeTimer := some (s.after 100) }

/-- A run's start admission; on a grant the windlass enters STARTING with it, and closes its contactor at once when its
deadband has passed (R150). -/
def State.startRun (s : State) (r : Run) : State × Option Status :=
  match s.startAdmission .windlass s.windlass.settings.g1 s.windlass.settings.inrush s.windlass.settings.inrushWindow with
  | (s, false) => (s, some .noBudget)
  | (s, true) =>
    let s := s.onWindlass fun w => { w with state := .starting, run := some r }
    (if s.deadband r.dir = 0 then s.closeContactor r.dir else s, none)

/-- The slow zone's counts. -/
def Windlass.slowCounts (w : Windlass) : Int := w.toCounts w.settings.slowZone

/-- The stop band's counts. -/
def Windlass.bandCounts (w : Windlass) : Int := w.toCounts w.settings.stopBand

/-- The home search limit's counts. -/
def Windlass.homeLimitCounts (w : Windlass) : Int := w.toCounts w.settings.homeLimit

/-- A run comes to its moment to ask for stage 2: its flag is set, and it asks unless it has an end distance that is not above
the slow zone's counts. On a grant STAGE2 closes (R152). -/
def State.askStage2 (s : State) : State :=
  match s.windlass.run with
  | none => s
  | some r =>
    let t := s.onWindlass fun w => { w with run := some { r with asked := true } }
    if (s.windlass.endDistance r).any (fun d => d ≤ s.windlass.slowCounts) then t
    else
      match t.stageAdmission s.windlass.settings.g2 with
      | (t, true) => t.onWindlass fun w => { w with stage2 := true }
      | (t, false) => t

/-- STAGE2 opens, the stage becomes 1 and the grant is lowered to G1 (R152). -/
def State.dropStage2 (s : State) : State :=
  State.lowerGrant (s.onWindlass fun w => { w with stage2 := false }) s.windlass.settings.g1

/-- The brake timer has expired: the brake is released and the windlass enters RUNNING at stage 1 (R150). -/
def State.enterRunning (s : State) : State :=
  let s := s.onWindlass fun w =>
    { w with state := .running, brakeRelease := true, brakeTimer := none
             jamTimer := some (s.after w.settings.jamTime)
             delayTimer := if w.run.any (fun r => r.kind = .jog) then some (s.after w.settings.stage2Delay) else none }
  if s.windlass.run.any (fun r => r.kind = .seek ∨ (r.kind = .home ∧ s.windlass.trusted)) then s.askStage2 else s

/-! ## The ends of a run (R151) -/

/-- The rode set from a count: the FIFO emptied, the decode errors cleared, and the rode trusted (R144). -/
def Windlass.setCount (w : Windlass) (count : Count) : Windlass :=
  { w with count := count, fifo := [], decodeErrors := 0, rodeValid := true, rodeUncertain := false }

/-- Arrival at home: the count becomes 0 and the home flag is set, before the stop (R151). -/
def State.arriveHome (s : State) (k : RunKind) : State :=
  (s.onWindlass fun w => { w.setCount 0 with homeFlag := true }).windlassStop
    (match k with | .jog => .ended | _ => .target)

/-- The tests of a run's ends, at a count step or at a home switch event; the first that applies decides (R151). -/
def State.testEnds (s : State) (becameHome : Bool) : State :=
  let w := s.windlass
  match w.run with
  | none => s
  | some r =>
    if ¬ w.underWay then s
    else if r.kind = .seek ∧ w.distanceTo r.dir r.target ≤ w.bandCounts then s.windlassStop .target
    else if r.kind = .jog ∧ r.dir = .payOut ∧ w.rodeValid ∧ w.atMaxRode then s.windlassStop .ended
    else if r.dir = .heave ∧ becameHome then s.arriveHome r.kind
    else if r.dir = .heave ∧ w.trusted ∧ w.state = .running ∧ w.position < -w.homeLimitCounts ∧ w.homeSw = false then
      s.windlassStop .homeNotFound
    else s

/-- The stage limit at a count step: STAGE2 opens when the end distance is not above the slow zone's counts (R152). -/
def State.testSlowZone (s : State) : State :=
  match s.windlass.run.bind s.windlass.endDistance with
  | none => s
  | some d =>
    if s.windlass.state = .running ∧ s.windlass.stage2 ∧ d ≤ s.windlass.slowCounts then s.dropStage2 else s

/-! ## Counting (R141, R142) -/

/-- A count step of the counter: a direction change empties the FIFO first (R141). -/
def Windlass.stepCount (w : Windlass) (dir : RodeDir) : Windlass :=
  { w with fifo := if w.lastStep.any (fun d => d ≠ dir) then [] else w.fifo
           lastStep := some dir
           count := match dir with | .payOut => w.count + 1 | .heave => w.count - 1 }

/-- GYPSY_STEP's operation: the count, the jam timer in RUNNING, the run's ends and the slow zone (R141, R151, R152, R154). Where one step meets
both an end of the run and the slow zone, the end is taken and the grant is not lowered (DESIGN CHOICE, notes/assumptions/39.md). -/
def State.gypsyStep (s : State) (dir : RodeDir) : State :=
  let s := s.onWindlass fun w =>
    let w := w.stepCount dir
    if w.state = .running then { w with jamTimer := some (s.after w.settings.jamTime) } else w
  (s.testEnds false).testSlowZone

/-- The rode has stopped being trusted during a run: a SEEK stops, and a HOME or JOG IN at stage 2 opens STAGE2 (R151, R152). -/
def State.loseTrust (s : State) : State :=
  match s.windlass.run with
  | none => s
  | some r =>
    if ¬ s.windlass.underWay then s
    else if r.kind = .seek then s.windlassStop .rodeUncertain
    else if r.dir = .heave ∧ s.windlass.stage2 then s.dropStage2
    else s

/-- SLIP: the reason, the difference saturated at ±32,767, and the rode as a three-byte value (R142). -/
def State.postSlip (s : State) (reason : Nat) (diff : Int) : State :=
  s.post .slip DeckResource.windlass.code
    (leBytes 1 reason ++ leSigned 2 (max (-32767) (min diff 32767)) ++ leSigned 3 s.windlass.rode)

/-- GYPSY_DECODE_ERROR's operation (R141): the count stands, the rode becomes uncertain, and SLIP is posted when it was not. -/
def State.decodeError (s : State) : State :=
  let w := s.windlass
  let t := s.onWindlass fun w => { w with decodeErrors := min (w.decodeErrors + 1) 255, rodeUncertain := true }
  let t := if w.rodeUncertain then t else t.postSlip 2 0
  if w.trusted then t.loseTrust else t

/-- A count pushed into the index capture FIFO, the older of two dropped first (R142). -/
def pushCount (fifo : List Count) (c : Count) : List Count := (if 2 ≤ fifo.length then fifo.drop 1 else fifo) ++ [c]

/-- Whether a difference of two index captures passes the check (R142). -/
def Windlass.indexPasses (w : Windlass) (diff : Int) : Bool :=
  (w.settings.countsPerRev : Int) - w.settings.slipTol ≤ diff.natAbs ∧
    (diff.natAbs : Int) ≤ w.settings.countsPerRev + w.settings.slipTol

/-- GYPSY_INDEX's operation: the count is pushed, and a push that leaves two is checked (R142). -/
def State.gypsyIndex (s : State) : State :=
  let was := s.windlass.trusted
  let s := s.onWindlass fun w => { w with fifo := pushCount w.fifo w.count }
  match s.windlass.fifo with
  | [older, newer] =>
    let diff := newer.toInt - older.toInt
    if s.windlass.indexPasses diff then s
    else
      let t := (s.onWindlass fun w => { w with rodeUncertain := true }).postSlip 1 diff
      let t := t.onWindlass fun w => { w with fifo := [] }
      if was then t.loseTrust else t
  | _ => s

/-- HOME_SWITCH_EVENT's operation: the debounced state changes, and a run is tested against its ends (R139, R151). -/
def State.homeSwitch (s : State) (active : Bool) : State :=
  State.testEnds (s.onWindlass fun w => { w with homeSw := active }) (active && !s.windlass.homeSw)

/-! ## The fault watches (R154, R155) -/

/-- A fault cause that arises during STOPPING (R154). -/
def Windlass.noteFault (w : Windlass) (cause : Cause) : Windlass :=
  match w.pendingFault with
  | some p => { w with pendingFault := some p.again }
  | none =>
    if w.stopCause.any Cause.isFault then { w with stopLater := min (w.stopLater + 1) 255 }
    else { w with pendingFault := some ⟨cause, 0⟩ }

/-- WINDLASS_I has become FAULTED (R154, R155). -/
def State.currentFaulted (s : State) : State :=
  match s.windlass.state with
  | .idle => s
  | .starting | .running => s.windlassStop .sensorFault
  | .stopping => s.onWindlass fun w => w.noteFault .sensorFault
  | .fault => s.onWindlass fun w => { w with fault := w.fault.map FaultRecord.again }

/-- Whether the overload and supply-low watches run: STARTING with the contactor closed, and RUNNING (R154). -/
def Windlass.watched (w : Windlass) : Bool := (w.state = .starting ∧ w.contactorClosed) ∨ w.state = .running

/-- The overload and supply-low watches at a sweep (R154; which is taken first is notes/assumptions/13.md). -/
def State.windlassSweep (s : State) : State :=
  let w := s.windlass
  if w.watched then
    let (ow, over_) := watchStep s.uptime (decide ((w.settings.overCurrent : Int) < s.windlassCurrent)) w.settings.overTime w.overWatch
    let (lw, low) := watchStep s.uptime s.supplyLow 1000 w.lowWatch
    let t := s.onWindlass fun w => { w with overWatch := ow, lowWatch := lw }
    if over_ then t.windlassStop .overload else if low then t.windlassStop .supplyLow else t
  else s

/-! ## Accepting a run (R147 to R149) -/

/-- The direction an ownership record keeps for a run (R158). -/
def rodeDirection : RodeDir → Direction
  | .payOut => .out
  | .heave => .inward

/-- The start of a run once its own checks have passed: WINDLASS_I, and the admission (R147 to R149). -/
def State.acceptRun (s : State) (r : Run) : State × Option Status :=
  if (s.input 6).faulted then (s, some .notReady) else s.startRun r

/-- PAY_OUT_TO and HEAVE_TO: a seek in a direction to a target rode in mm (R147). -/
def State.seek (s : State) (dir : RodeDir) (target : Int) : Served :=
  let w := s.windlass
  if s.mode ≠ .run then s.refuse .wrongMode
  else
    match s.ownerRefusal .windlass with
    | some st => s.refuse st
    | none =>
      if w.state = .fault then s.refuse .faulted
      else if ¬ w.trusted then s.refuse .notReady
      else
        let mm := max 0 (min target w.settings.maxRode)
        let counts := w.toCounts mm
        if w.distanceTo dir counts ≤ w.bandCounts then (s.postAtTarget counts).accept
        else
          match s.acceptRun { kind := .seek, dir := dir, target := counts, targetMm := mm } with
          | (t, some st) => t.refuse st
          | (t, none) => ⟨t.hostOwns .windlass (rodeDirection dir) (some (.rode mm)), .ok, .seek mm counts⟩

/-- HEAVE_HOME (R148). -/
def State.heaveHome (s : State) : Served :=
  if s.mode ≠ .run then s.refuse .wrongMode
  else
    match s.ownerRefusal .windlass with
    | some st => s.refuse st
    | none =>
      if s.windlass.state = .fault then s.refuse .faulted
      else if s.windlass.homeSw then ((s.onWindlass fun w => w.setCount 0).postRode .anchorHome [] []).accept
      else
        match s.acceptRun { kind := .home, dir := .heave } with
        | (t, some st) => t.refuse st
        | (t, none) => (t.hostOwns .windlass .inward none).accept

/-- A station jog of the windlass (R149). -/
def State.windlassJog (s : State) (dir : RodeDir) : State × JogAnswer :=
  let w := s.windlass
  let atEnd := match dir with
    | .payOut => w.rodeValid && w.atMaxRode
    | .heave => w.homeSw
  if w.state = .fault then (s, .refused .faulted)
  else if atEnd then (s, .atEnd)
  else
    match s.acceptRun { kind := .jog, dir := dir } with
    | (t, some st) => (t, .refused st)
    | (t, none) => (t, .ok)

/-! ## Settings, the rode and reading (R140, R144, R155, R157) -/

/-- Whether the fifteen windlass figures lie within their ranges, in the order of SET_WINDLASS (R140). -/
def windlassRanges (f : WindlassSettings) : List Bool :=
  [4 ≤ f.countsPerRev && f.countsPerRev ≤ 1024, 100 ≤ f.mmPerRev && f.mmPerRev ≤ 5000, f.slipTol ≤ 255,
   1000 ≤ f.maxRode && f.maxRode ≤ 400000, f.slowZone ≤ 50000, f.stopBand ≤ 5000, f.g1 ≤ 200000, f.g2 ≤ 200000,
   f.inrush ≤ 200000, f.inrushWindow ≤ 10000, 1 ≤ f.overCurrent && f.overCurrent ≤ 2000,
   100 ≤ f.overTime && f.overTime ≤ 10000, 200 ≤ f.jamTime && f.jamTime ≤ 10000, f.homeLimit ≤ 50000,
   f.stage2Delay ≤ 60000]

/-- The figure number 1..15 of the first windlass figure outside its range (R140, R186). -/
def windlassBadFigure (f : WindlassSettings) : Option Nat :=
  (windlassRanges f).findIdx? (fun ok => !ok) |>.map (· + 1)

/-- The windlass with its settings replaced: a change of counts_per_rev or mm_per_rev makes the rode not valid, clears
rode_uncertain and empties the FIFO (R140). -/
def Windlass.withSettings (w : Windlass) (f : WindlassSettings) : Windlass :=
  if f.countsPerRev = w.settings.countsPerRev ∧ f.mmPerRev = w.settings.mmPerRev then { w with settings := f }
  else { w with settings := f, rodeValid := false, rodeUncertain := false, fifo := [] }

/-- SET_RODE (R144). -/
def State.setRode (s : State) (length : Nat) : Served :=
  if s.windlass.state ≠ .idle then s.refuse .busy
  else if s.windlass.settings.maxRode < length then s.refuse .badValue
  else
    let t := s.onWindlass fun w => w.setCount (BitVec.ofInt 32 (w.toCounts length))
    ⟨t, .ok, .rode t.windlass.position t.windlass.rode⟩

/-- CLEAR_FAULT of the windlass (R155). -/
def State.clearWindlass (s : State) : Served :=
  if s.windlass.state = .fault then
    if s.windlassCondition then s.refuse .conditionPresent
    else (s.onWindlass fun w => { w with state := .idle, fault := none }).accept
  else s.accept

/-- The windlass as READ_DECK returns it (R157). -/
def State.windlassView (s : State) : WindlassView :=
  let w := s.windlass
  { windlass := w
    stage := if w.state = .running then some (if w.stage2 then 2 else 1) else none
    rode := w.rode
    brake := w.brakeTimer.map (remaining s.uptime), jam := w.jamTimer.map (remaining s.uptime)
    delay := w.delayTimer.map (remaining s.uptime), settle := w.settleTimer.map (remaining s.uptime)
    overElapsed := w.overWatch.map fun t => elapsed t s.uptime
    lowElapsed := w.lowWatch.map fun t => elapsed t s.uptime
    payOutDeadband := s.deadband .payOut, heaveDeadband := s.deadband .heave
    current := s.windlassCurrent, owner := s.ownerOf .windlass }

end Sys2Proof.Machine
end

