-- ==== Sys2Proof/Machine/Ownership.lean ====
section
/-!
DEFINITION. The ownership unit (chapter 9): stops it delivers, a station's update, jogs and denials, the lamps, and the
station requests.
-/

namespace Sys2Proof.Machine

/-- The three motion resources, in the order in which the unit takes them (notes/assumptions/13.md). -/
def resources : List Resource := [.hatch, .platform, .windlass]

/-! ## Stops (R163 to R167) -/

/-- A stop with a cause reaches a resource's controller (R133, R153). -/
def State.stopResource (s : State) (r : Resource) (cause : Cause) : State :=
  match r with
  | .hatch => s.moverStop .hatch cause
  | .platform => s.moverStop .platform cause
  | .windlass => s.windlassStop cause

/-- The unit delivers a stop: the record's stop-delivered flag is set, and the controller is stopped (R163). -/
def State.deliverStop (s : State) (r : Resource) (cause : Cause) : State :=
  (s.onOwner r fun o => { o with stopDelivered := true }).stopResource r cause

/-- A stop is delivered to every owned resource of a kind whose stop has not been delivered. -/
def State.stopOwned (s : State) (mine : Owner → Bool) (cause : Cause) : State :=
  resources.foldl (fun s r =>
    if (s.ownerOf r).owner ≠ .none ∧ mine (s.ownerOf r).owner ∧ (s.ownerOf r).stopDelivered = false then s.deliverStop r cause
    else s) s

/-- Whether an owner is a station. -/
def Owner.isStation : Owner → Bool
  | .station _ => true
  | _ => false

/-- STOP_ALL: every owned resource is stopped, whoever owns it (R165). -/
def State.stopAll (s : State) : State := s.stopOwned (fun _ => true) .stationStop

/-- The host is lost: every host-owned resource is stopped (R167). -/
def State.hostLost (s : State) : State := s.stopOwned (fun o => o = .host) .hostLost

/-- A station has left ACTIVE: every resource it owns is stopped (R164). -/
def State.stationLost (s : State) (addr : Nat) : State := s.stopOwned (fun o => o = .station addr) .stationLost

/-- The bus has entered RECOVERY: every resource owned by a station is stopped (R164). -/
def State.stationsUnheard (s : State) : State := s.stopOwned Owner.isStation .stationLost

/-! ## Lamps (R168, R169) -/

/-- A LAMPS transaction is requested for an ACTIVE station whose computed lamps differ from those last delivered, or that
has had none delivered (R169). -/
def State.requestLamps (s : State) (addr : Nat) : State :=
  match s.station addr with
  | none => s
  | some t =>
    if (s.node addr).any (fun r => r.state = .active) ∧ t.delivered ≠ some (s.lampsOf t) then s.askTx .lamps addr else s

/-- The node table tells that a station has become ACTIVE: its last delivered lamps become absent, and lamps are
requested (R169). -/
def State.stationActive (s : State) (addr : Nat) : State :=
  (s.onStation addr fun t => { t with delivered := none }).requestLamps addr

/-- The lamps are recomputed after an operation: a request is made for every station whose lamps it changed (R168, R169), in
ascending order of address (DESIGN CHOICE, notes/assumptions/25.md). -/
def State.lampPass (s before : State) : State :=
  s.stations.foldl (fun s t =>
    if (before.station t.addr).map before.lampsOf = (s.station t.addr).map s.lampsOf then s else s.requestLamps t.addr) s

/-! ## A station's update (R162, R163, R165) -/

/-- The six motion keys. -/
def motionKeys : List Nat := [1, 2, 3, 4, 5, 6]

/-- The function of a key 1..6 of a station. -/
def Station.function (t : Station) (key : Nat) : KeyFunction := (t.map[key - 1]?).getD .none

/-- The spent mark of a key 1..6 of a station. -/
def Station.mark (t : Station) (key : Nat) : Option SpentMark := (t.spent[key - 1]?).getD none

/-- A key of a station joins its spent set with a mark (R162). -/
def State.spend (s : State) (addr key : Nat) (m : SpentMark) : State :=
  s.onStation addr fun t => { t with spent := t.spent.setIfInBounds (key - 1) (some m) }

/-- Step 1: every spent key the new held set does not hold leaves the spent set (R162). -/
def Station.release (t : Station) (held : Byte) : Station :=
  { t with spent := t.spent.mapIdx fun i m => if holds held (i + 1) then m else none }

/-- Step 2: whether an update holds a press of key 8 (R165). -/
def pressesStop (old new : Byte) (events : List KeyEvent) : Bool :=
  events.any (fun e => e.key = 8 ∧ e.edge = .press) || (holds new 8 && !holds old 8)

/-- Step 3 on one record: a motion of this station is confirmed, or released (R163). -/
def State.confirmRecord (s : State) (addr : Nat) (held : Byte) (r : Resource) : State :=
  let o := s.ownerOf r
  if o.owner = .station addr ∧ o.stopDelivered = false then
    if holds held 7 ∧ o.key.any (fun k => holds held k) then
      s.onOwner r fun o => { o with confirm := some (s.after 150) }
    else s.deliverStop r .released
  else s

/-- A resource's controller is asked for a station jog (R129, R149). -/
def State.jog (s : State) (r : Resource) (d : Direction) : State × JogAnswer :=
  match r with
  | .hatch => s.moverJog .hatch d
  | .platform => s.moverJog .platform d
  | .windlass => s.windlassJog (if d = .out then .payOut else .heave)

/-- An acquisition attempt with a key on a resource in a direction (R162). -/
def State.attempt (s : State) (addr key : Nat) (r : Resource) (d : Direction) : State :=
  if (s.ownerOf r).owner ≠ .none then s.spend addr key .denied
  else
    match s.jog r d with
    | (t, .ok) =>
      State.spend (t.onOwner r fun _ =>
        { owner := .station addr, dir := some d, acquired := some t.uptime, key := some key
          confirm := some (t.after 150) }) addr key .used
    | (t, .atEnd) => t.spend addr key .used
    | (t, .refused _) => t.spend addr key .denied

/-- The mapped keys a held set holds. -/
def Station.heldMapped (t : Station) (held : Byte) : List Nat :=
  motionKeys.filter fun k => t.function k ≠ .none ∧ holds held k

/-- Step 4: the test for a new motion (R162). -/
def State.acquire (s : State) (addr : Nat) (held : Byte) : State :=
  match s.station addr with
  | none => s
  | some t =>
    if s.mode = .run ∧ holds held 7 ∧ holds held 8 = false then
      match t.heldMapped held with
      | [] => s
      | [k] =>
        match t.mark k, (t.function k).motion with
        | none, some (r, d) => s.attempt addr k r d
        | _, _ => s
      | ks => (ks.filter fun k => t.mark k = none).foldl (fun s k => s.spend addr k .denied) s
    else s

/-- One update of a station: release from the spent set, STOP_ALL, confirmation, acquisition, lamps (R162). Its own
LAMPS request comes before those of the other stations whose lamps it changes (DESIGN CHOICE, notes/assumptions/25.md). -/
def State.stationUpdate (s : State) (addr : Nat) (old new : Byte) (events : List KeyEvent) : State :=
  let s := s.onStation addr fun t => t.release new
  let s := if pressesStop old new events then s.stopAll else s
  let s := resources.foldl (fun s r => s.confirmRecord addr new r) s
  (s.acquire addr new).requestLamps addr

/-- Key events handed on to the scene engine, each as a separate event, in the order sent (R79). -/
def State.offerKeys (s : State) (addr : Nat) (events : List KeyEvent) : State :=
  events.foldl (fun s e => s.offer (.key addr e.key e.edge)) s

/-- The events of a station that are handed on: those of keys 1..6 whose map entry is NONE (R79). -/
def Station.handsOn (t : Station) (e : KeyEvent) : Bool := 1 ≤ e.key ∧ e.key ≤ 6 ∧ t.function e.key = .none

/-- The held set and events of an ACTIVE station reach the ownership unit: its update, and then the events it hands on
(R79, R162; the order of the two is notes/assumptions/24.md). -/
def State.stationKeys (s : State) (addr : Nat) (old new : Byte) (events : List KeyEvent) : State :=
  let t := s.stationUpdate addr old new events
  t.offerKeys addr (events.filter fun e => (s.station addr).any fun st => st.handsOn e)

/-! ## Key maps (R160, R161) -/

/-- A station's key map comes into being with every key NONE (R160). -/
def State.addStation (s : State) (addr : Nat) : State := { s with stations := tablePut (·.addr) { addr := addr } s.stations }

/-- A station's key map is removed (R160). -/
def State.dropStation (s : State) (addr : Nat) : State := { s with stations := tableErase (·.addr) addr s.stations }

/-- The six functions of SET_STATION_MAP's codes. -/
def keyMap? (codes : List Nat) : Option (Vector KeyFunction 6) :=
  match codes.mapM keyFunction? with
  | some fs => if h : fs.length = 6 then some ⟨fs.toArray, by simpa using h⟩ else none
  | none => none

/-- SET_STATION_MAP (R161). -/
def execSetStationMap (tag : Byte) (addr : Nat) (codes : List Nat) (s : State) : Outcome :=
  answered 0x50 tag <| s.configEdit <|
    match keyMap? codes with
    | none => s.refuse .badValue
    | some map =>
      if addr < 1 ∨ 119 < addr then s.refuse .badValue
      else
        match s.node addr with
        | none => s.refuse .notFound
        | some r =>
          if r.type ≠ .station then s.refuse .badValue
          else (s.onStation addr fun t => { t with map := map }).accept

/-- READ_STATION (R161). -/
def execReadStation (tag : Byte) (addr : Nat) (s : State) : Outcome :=
  answered 0x51 tag <|
    if addr < 1 ∨ 119 < addr then s.refuse .badValue
    else
      match s.node addr, s.station addr with
      | none, _ => s.refuse .notFound
      | some r, t? =>
        match r.type, t? with
        | .station, some t => ⟨s, .ok, .station t.map r.held r.confirmTime t.spent (s.lampsOf t) t.delivered⟩
        | _, _ => s.refuse .badValue

end Sys2Proof.Machine
end

