-- ==== Sys2Proof/Machine/Nodes.lean ====
section
/-!
DEFINITION. The node table and the enrolment operation (chapter 2): bring-up, outcomes, loss and return, polls, reports,
enrolment and the node requests.
-/

namespace Sys2Proof.Machine

/-! ## What a transaction brought (R6, R9) -/

/-- The contents of a good STATUS reply by the node's type (R9). -/
inductive NodeStatus where
  | dimmer (levels : List Nat) (faults : BitVec 4)
  | switch (bitmap : Byte)
  | blind (positions : List Nat) (moving : Byte)
  | keys (held : Byte) (events : List KeyEvent)
  deriving DecidableEq, Repr

/-- The reply data delivered with the outcome DONE of a read (R16). -/
inductive Delivered where
  | nothing
  | identify (type : NodeType) (serial : Serial) (firmware : Byte × Byte)
  | status (data : NodeStatus)
  deriving DecidableEq, Repr

/-- Whether an outcome is a failure for the miss count (R33). -/
def TxOutcome.isFailure : TxOutcome → Bool
  | .done | .busFault => false
  | _ => true

/-! ## Bring-up (R28 to R32) -/

/-- The retry period of a state: 5,000 ms in MISMATCH and 1,000 ms otherwise (R30, R35, R36). -/
def NodeState.retryPeriod : NodeState → Nat
  | .mismatch => 5000
  | _ => 1000

/-- A record's retry timer starts afresh for the period of its state. -/
def State.startRetry (s : State) (addr : Nat) : State :=
  s.onNode addr fun r => { r with retryTimer := some (s.after r.state.retryPeriod) }

/-- A record asks for an IDENTIFY at its own address; a refusal starts its retry timer (R28, R30, R35, R36). -/
def State.askIdentify (s : State) (addr : Nat) : State :=
  match s.queueTx .identify addr with
  | (s, .taken) => s
  | (s, _) => s.startRetry addr

/-- A record enters IDENTIFY and asks for an IDENTIFY at once (R28, R42, R43). -/
def State.enterIdentify (s : State) (addr : Nat) : State :=
  (s.onNode addr fun r => { r with state := .identify, retryTimer := none, pollTimer := none }).askIdentify addr

/-- A failed step of SETUP: the record returns to LOST or IDENTIFY with its retry timer started (R31). -/
def State.leaveSetup (s : State) (addr : Nat) : State :=
  s.onNode addr fun r =>
    { r with state := if r.returnFlag then .lost else .identify, retryTimer := some (s.after 1000) }

/-- A record enters SETUP and asks for a SETUP transaction (R31). -/
def State.enterSetup (s : State) (addr : Nat) : State :=
  let s := s.onNode addr fun r => { r with state := .setup .awaitSetup, retryTimer := none }
  match s.queueTx .setup addr with
  | (s, .taken) => s
  | (s, _) => s.leaveSetup addr

/-- The SETUP has ended DONE: the record asks for the bring-up STATUS read (R31). -/
def State.askBringUpRead (s : State) (addr : Nat) : State :=
  let s := s.onNode addr fun r => { r with state := .setup .awaitStatus }
  match s.queueTx .status addr with
  | (s, .taken) => s
  | (s, _) => s.leaveSetup addr

/-- Whether an IDENTIFY reply matches a record (R29). -/
def NodeRecord.agrees (r : NodeRecord) (type : NodeType) (serial : Serial) : Bool :=
  type = r.type ∧ (r.serial = 0 ∨ r.serial = serial)

/-- An IDENTIFY reply that ended DONE for a record in IDENTIFY, LOST or MISMATCH (R29). -/
def State.identified (s : State) (r : NodeRecord) (type : NodeType) (serial : Serial) (fw : Byte × Byte) : State :=
  if r.agrees type serial then
    (s.onNode r.addr fun r => { r with serial := serial, firmware := some fw }).enterSetup r.addr
  else
    let t := (s.onNode r.addr fun r => { r with state := .mismatch }).startRetry r.addr
    if r.state = .mismatch then t
    else t.post .nodeMismatch r.addr (leBytes 1 type.code ++ leBytes 4 serial.toNat)

/-- The poll period of a type (R37). -/
def NodeType.pollPeriod : NodeType → Nat
  | .station => 50
  | _ => 250

/-- The present levels or positions of a bring-up read, in the order of the outputs (R57). -/
def NodeStatus.levels : NodeStatus → List Nat
  | .dimmer levels _ => levels
  | .switch bitmap => (List.range 8).map fun i => if bitmap.getLsbD i then 1000 else 0
  | .blind positions _ => positions
  | .keys _ _ => []

/-- What a good STATUS reply says of a node's fault bits or blinds, kept or handed on (R9, R38, R59). -/
def State.takeStatus (s : State) (addr : Nat) (d : NodeStatus) : State :=
  match d with
  | .dimmer _ faults => s.onNode addr fun r => { r with faultBits := some faults }
  | .blind positions moving => s.blindReport addr positions moving
  | _ => s

/-- The bring-up flags of a record that has entered ACTIVE: adoption, or the return of a lost node (R32). -/
def State.bringUpFlags (s : State) (r : NodeRecord) (d : NodeStatus) : State :=
  let s :=
    if r.adoptionPending then
      (s.adopt r.addr d.levels).onNode r.addr fun r => { r with adoptionPending := false }
    else s
  if r.returnFlag then
    ((s.nodeReturned r.addr).post .nodeBack r.addr []).onNode r.addr fun r => { r with returnFlag := false }
  else s

/-- The bring-up STATUS read has ended DONE: the record enters ACTIVE (R32). A keypad's or station's held set replaces the
empty set, its events are discarded, and the ownership unit is told. -/
def State.enterActive (s : State) (r : NodeRecord) (d : NodeStatus) : State :=
  let s := s.onNode r.addr fun n =>
    { n with state := .active, misses := 0, retryTimer := none, pollTimer := some (s.after n.type.pollPeriod) }
  let s := (s.takeStatus r.addr d).bringUpFlags r d
  match d with
  | .keys held _ =>
    let s := s.onNode r.addr fun n =>
      { n with held := held, confirmTime := if n.type = .station then s.uptime else n.confirmTime }
    if r.type = .station then (s.stationUpdate r.addr 0 held []).stationActive r.addr else s
  | _ => s

/-! ## Polls and reports (R37, R38) -/

/-- A good poll or report of an ACTIVE keypad or station: the held set, and for a station the confirm time, are replaced,
and both go on to the ownership unit with the events (R38, R79). -/
def State.takeKeys (s : State) (r : NodeRecord) (held : Byte) (events : List KeyEvent) : State :=
  match r.type with
  | .keypad => (s.onNode r.addr fun n => { n with held := held }).offerKeys r.addr events
  | .station =>
    (s.onNode r.addr fun n => { n with held := held, confirmTime := s.uptime }).stationKeys r.addr r.held held events
  | _ => s

/-- A STATUS reply that ended DONE for an ACTIVE record (R38). -/
def State.polled (s : State) (r : NodeRecord) (d : NodeStatus) : State :=
  match d with
  | .keys held events => s.takeKeys r held events
  | _ => s.takeStatus r.addr d

/-- A success sets last seen, and in ACTIVE the miss count to 0 (R33). -/
def State.seen (s : State) (addr : Nat) : State :=
  s.onNode addr fun r => { r with lastSeen := s.uptime, misses := if r.state = .active then 0 else r.misses }

/-- A report taken from a keypad or station, handed on by its originator's address (R22, R33, R38). -/
def State.report (s : State) (addr : Nat) (held : Byte) (events : List KeyEvent) : State :=
  match s.node addr with
  | none => s
  | some r =>
    if r.type ≠ .keypad ∧ r.type ≠ .station then s
    else if r.state = .active then (s.seen addr).takeKeys r held events
    else s.seen addr

/-! ## Misses and loss (R33, R34) -/

/-- An ACTIVE record enters LOST at its third miss (R34). -/
def State.enterLost (s : State) (r : NodeRecord) (outcome : TxOutcome) : State :=
  let s := s.onNode r.addr fun n =>
    { n with state := .lost, misses := 3, returnFlag := true, pollTimer := none, retryTimer := some (s.after 1000), held := 0 }
  let s := s.nodeLeft r.addr
  let s := if r.type = .station then s.stationLost r.addr else s
  s.post .nodeLost r.addr (leBytes 1 outcome.code)

/-- A failure of a transaction to a record: a miss in ACTIVE (R33, R34). -/
def State.missed (s : State) (r : NodeRecord) (outcome : TxOutcome) : State :=
  if r.state = .active then
    if 3 ≤ r.misses + 1 then s.enterLost r outcome else s.onNode r.addr fun n => { n with misses := r.misses + 1 }
  else s

/-! ## The outcome of a transaction to a record (R30 to R36) -/

/-- What an outcome does beyond last seen and misses, by the record's state and the step it waits for. -/
def State.applyStep (s : State) (r : NodeRecord) (kind : TxKind) (outcome : TxOutcome) (d : Delivered) : State :=
  match r.state, kind, d with
  | .identify, .identify, .identify type serial fw | .lost, .identify, .identify type serial fw
  | .mismatch, .identify, .identify type serial fw => s.identified r type serial fw
  | .identify, .identify, _ | .lost, .identify, _ | .mismatch, .identify, _ => s.startRetry r.addr
  | .setup .awaitSetup, .setup, _ => if outcome = .done then s.askBringUpRead r.addr else s.leaveSetup r.addr
  | .setup .awaitStatus, .status, .status data => s.enterActive r data
  | .setup .awaitStatus, .status, _ => s.leaveSetup r.addr
  | .active, .status, .status data => s.polled r data
  | _, _, _ => s

/-- An outcome reaches the record of the target address (R33). A record with its enrolment hold set, and one in DECLARED,
takes it for last seen only (R39, R40). -/
def State.nodeOutcome (s : State) (kind : TxKind) (addr : Nat) (outcome : TxOutcome) (d : Delivered) : State :=
  match s.node addr with
  | none => s
  | some r =>
    let t := if outcome = .done then s.seen addr else s
    if r.enrolHold ∨ r.state = .declared then t
    else if outcome.isFailure then (t.missed r outcome).applyStep r kind outcome d
    else t.applyStep r kind outcome d

/-! ## Entry to RUN and to CONFIG (R28, R39) -/

/-- START in the node table (R28, R57): adoption pending is set on every record with outputs, one held by an enrolment among them, and
every DECLARED record enters IDENTIFY, except one whose enrolment hold is set. That those records ask for their IDENTIFY in
ascending order of their addresses, which settles whose request a full queue refuses, is the model's choice (DESIGN CHOICE,
notes/assumptions/10.md). -/
def State.bringUpAll (s : State) : State :=
  let s : State := { s with nodes := s.nodes.map fun n => { n with adoptionPending := n.type.hasOutputs || n.adoptionPending } }
  (s.nodes.filter fun r => r.state = .declared ∧ r.enrolHold = false).foldl (fun s r =>
    (s.onNode r.addr fun n => { n with misses := 0, held := 0, returnFlag := false }).enterIdentify r.addr) s

/-- A record at entry to CONFIG (R39). -/
def NodeRecord.rest (r : NodeRecord) : NodeRecord :=
  { r with state := .declared, misses := 0, held := 0, returnFlag := false, retryTimer := none, pollTimer := none }

/-! ## Enrolment (R40 to R43) -/

/-- A failed enrolment's reasons, in the order of their codes (R43). -/
inductive EnrolFailure where
  | noneFound | conflict | typeMismatch | noConfirm | busFault
  deriving DecidableEq, Repr

/-- The reason codes of R43. -/
def EnrolFailure.code : EnrolFailure → Nat
  | .noneFound => 1 | .conflict => 2 | .typeMismatch => 3 | .noConfirm => 4 | .busFault => 5

/-- A record goes on after an enrolment that failed (R43). -/
def State.resume (s : State) (r : NodeRecord) : State :=
  let s := s.onNode r.addr fun n => { n with enrolHold := false }
  if s.mode = .config then s
  else
    match r.state with
    | .declared => s.enterIdentify r.addr
    | .identify | .lost | .mismatch => s.startRetry r.addr
    | .setup _ => s.leaveSetup r.addr
    | .active => s

/-- The enrolment operation fails (R43). -/
def State.enrolFail (s : State) (e : Enrolment) (why : EnrolFailure) : State :=
  let s := { s with enrolment := none }
  let s := s.post .enrolFailed e.addr (leBytes 1 why.code ++ leBytes 1 e.reported)
  match s.node e.addr with
  | none => s
  | some r => s.resume r

/-- A change of the running enrolment. -/
def State.onEnrolment (s : State) (f : Enrolment → Enrolment) : State := { s with enrolment := s.enrolment.map f }

/-- The transaction an enrolment asks for at its step (R41, R42). -/
def State.queueEnrolment (s : State) (e : Enrolment) : State × QueueAnswer :=
  match e.phase with
  | .search => s.queueTx .identify 120 none true
  | .assign => s.queueTx .assign 120 (some (e.addr, e.serial)) true
  | .confirm => s.queueTx .identify e.addr none true
  | .deferred => (s, .taken)

/-- The operation asks for its step's transaction: a full queue is asked again 100 ms later, and a bus in RECOVERY fails
the operation (R41, R42). -/
def State.enrolAsk (s : State) : State :=
  match s.enrolment with
  | none => s
  | some e =>
    match s.queueEnrolment e with
    | (s, .taken) => s.onEnrolment fun e => { e with retryTimer := none }
    | (s, .refusedRecovery) => s.enrolFail e (if e.phase = .search then .busFault else .noConfirm)
    | (s, _) => s.onEnrolment fun e => { e with retryTimer := some (s.after 100) }

/-- The record an enrolment leaves: the one at its address with serial and firmware revision taken and its hold cleared, or
a new one in the held place (R42). -/
def State.enrolRecord (s : State) (e : Enrolment) : State :=
  match s.node e.addr with
  | some _ => s.onNode e.addr fun r => { r with serial := e.serial, firmware := e.firmware, enrolHold := false }
  | none =>
    let s := { s with nodes := tablePut (·.addr)
                        { addr := e.addr, type := e.type, serial := e.serial, firmware := e.firmware
                          adoptionPending := decide (s.mode ≠ .config) && e.type.hasOutputs } s.nodes }
    if e.type = .station then s.addStation e.addr else s

/-- The operation updates the table, ends, and posts ENROL_DONE (R42). -/
def State.enrolCommit (s : State) (e : Enrolment) : State :=
  let s := State.enrolRecord { s with enrolment := none } e
  let s := if s.mode = .config then s else s.enterIdentify e.addr
  s.post .enrolDone e.addr (leBytes 1 e.type.code ++ leBytes 4 e.serial.toNat)

/-- The operation reaches its update, which waits for a running save to end (R42). -/
def State.enrolUpdate (s : State) (e : Enrolment) : State :=
  if s.saving then { s with enrolment := some { e with phase := .deferred } } else s.enrolCommit e

/-- The failure an outcome of the search means (R41). -/
def searchFailure : TxOutcome → EnrolFailure
  | .noAckHead => .noneFound
  | .checkFail | .noAckData => .conflict
  | _ => .busFault

/-- The outcome of one of the operation's own transactions (R41, R42). -/
def State.enrolOutcome (s : State) (outcome : TxOutcome) (d : Delivered) : State :=
  match s.enrolment with
  | none => s
  | some e =>
    match e.phase, d with
    | .search, .identify type serial _ =>
      let e := { e with reported := type.code }
      if type = e.type then State.enrolAsk { s with enrolment := some { e with phase := .assign, serial := serial } }
      else s.enrolFail e .typeMismatch
    | .search, _ => s.enrolFail e (searchFailure outcome)
    | .assign, _ =>
      if outcome = .done then State.enrolAsk { s with enrolment := some { e with phase := .confirm } }
      else s.enrolFail e .noConfirm
    | .confirm, .identify type serial fw =>
      let e := { e with reported := type.code, firmware := some fw }
      if type = e.type ∧ serial = e.serial then s.enrolUpdate e else s.enrolFail e .noConfirm
    | .confirm, _ => s.enrolFail e .noConfirm
    | .deferred, _ => s

/-- ENROL_NODE (R40). -/
def execEnrolNode (tag : Byte) (addr type : Nat) (s : State) : Outcome :=
  answered 0x16 tag <|
    match nodeType? type with
    | none => s.refuse .badValue
    | some ty =>
      if addr < 1 ∨ 119 < addr then s.refuse .badValue
      else if s.enrolment.isSome ∨ s.saving then s.refuse .busy
      else if (s.node addr).any (fun r => r.state = .active ∨ r.type ≠ ty) then s.refuse .inUse
      else if (s.node addr).isNone ∧ 48 ≤ s.nodes.length then s.refuse .full
      else
        let t := s.onNode addr fun r => { r with enrolHold := true, retryTimer := none }
        (State.enrolAsk { t with enrolment := some { addr := addr, type := ty } }).accept

/-- ENROL_RETRY_EXPIRY (R41, R42): the refused step is asked for again. -/
def execEnrolRetryExpiry (s : State) : Outcome :=
  .next <|
    match s.enrolment.bind (·.retryTimer) with
    | none => s
    | some e => ((s.atMoment e).onEnrolment fun n => { n with retryTimer := none }).enrolAsk

/-- ENROL_DEFERRED_UPDATE (R42): the update that waited for a save is made once the save has ended. -/
def execEnrolDeferredUpdate (s : State) : Outcome :=
  .next <|
    match s.enrolment with
    | none => s
    | some e => if e.phase = .deferred ∧ ¬ s.saving then s.enrolCommit e else s

/-! ## Timers (R30, R35 to R37) -/

/-- NODE_RETRY_EXPIRY (R30, R35, R36): the record asks for an IDENTIFY again. -/
def execNodeRetryExpiry (addr : Nat) (s : State) : Outcome :=
  .next <|
    match (s.node addr).bind (·.retryTimer) with
    | none => s
    | some e => ((s.atMoment e).onNode addr fun r => { r with retryTimer := none }).askIdentify addr

/-- POLL_EXPIRY (R37): one STATUS is asked for, and the timer starts again for the period. -/
def execPollExpiry (addr : Nat) (s : State) : Outcome :=
  .next <|
    match (s.node addr).bind (·.pollTimer) with
    | none => s
    | some e =>
      ((s.atMoment e).onNode addr fun r => { r with pollTimer := some (later e r.type.pollPeriod) }).askTx .status addr

/-! ## Table requests (R44 to R46) -/

/-- Whether the enrolment operation holds an address (R44, R45). -/
def State.enrolHolds (s : State) (addr : Nat) : Bool := s.enrolment.any fun e => e.addr = addr

/-- Whether a binding's KEY trigger names an address. -/
def Binding.keyedBy (b : Binding) (addr : Nat) : Bool :=
  match b.trigger with
  | .key a _ _ => a = addr
  | _ => false

/-- Whether a record is named by a channel, by a key map with a mapped key, or by a KEY trigger (R44). -/
def State.nodeNamed (s : State) (addr : Nat) : Bool :=
  s.channels.any (fun c => c.cfg.node = addr)
    || (s.station addr).any (fun t => motionKeys.any fun k => t.function k ≠ .none)
    || s.bindings.any (fun b => b.keyedBy addr)

/-- The places taken in the node table, counting the one an enrolment holds (R44). -/
def State.placesTaken (s : State) : Nat :=
  s.nodes.length + (if s.enrolment.any (fun e => (s.node e.addr).isNone) then 1 else 0)

/-- The key maps after a record at an address has taken a type (R44, R160). -/
def State.mapForType (s : State) (addr : Nat) (was : Option NodeType) (ty : NodeType) : State :=
  if ty = .station then (if was = some .station then s else s.addStation addr)
  else if was = some .station then s.dropStation addr
  else s

/-- DECLARE_NODE (R44). -/
def execDeclareNode (tag : Byte) (addr type : Nat) (serial : Serial) (s : State) : Outcome :=
  answered 0x14 tag <| s.configEdit <|
    match nodeType? type with
    | none => s.refuse .badValue
    | some ty =>
      if addr < 1 ∨ 119 < addr then s.refuse .badValue
      else if s.enrolHolds addr then s.refuse .busy
      else
        match s.node addr with
        | some r =>
          if r.type = ty then (s.onNode addr fun r => { r with serial := serial }).accept
          else if s.nodeNamed addr then s.refuse .inUse
          else
            let t := s.onNode addr fun r => { r with type := ty, serial := serial, firmware := none, faultBits := none }
            (t.mapForType addr (some r.type) ty).accept
        | none =>
          if 48 ≤ s.placesTaken then s.refuse .full
          else
            let t := { s with nodes := tablePut (·.addr) { addr := addr, type := ty, serial := serial } s.nodes }
            (t.mapForType addr none ty).accept

/-- A node is removed with its channels, its key map and the bindings its keys trigger (R45). -/
def State.removeNode (s : State) (addr : Nat) : State × Removed :=
  let nums := (s.channels.filter fun c => c.cfg.node = addr).map (·.cfg.num)
  let (t, counts) := nums.foldl (fun (p : State × Removed) n => p.1.dropChannel n p.2) (s, {})
  let keyed := (t.bindings.filter fun b => b.keyedBy addr).length
  let t := t.dropStation addr
  ({ t with bindings := t.bindings.filter (fun b => !b.keyedBy addr), nodes := tableErase (·.addr) addr t.nodes },
    { counts with channels := nums.length, bindings := counts.bindings + keyed })

/-- REMOVE_NODE (R45). -/
def execRemoveNode (tag : Byte) (addr : Nat) (s : State) : Outcome :=
  answered 0x15 tag <| s.configEdit <|
    if addr < 1 ∨ 119 < addr then s.refuse .badValue
    else if (s.node addr).isNone then s.refuse .notFound
    else if s.enrolHolds addr then s.refuse .busy
    else ⟨(s.removeNode addr).1, .ok, .removed (s.removeNode addr).2⟩

/-- READ_NODE (R46). -/
def execReadNode (tag : Byte) (addr : Nat) (s : State) : Outcome :=
  answered 0x17 tag <|
    if 120 ≤ addr then s.refuse .badValue
    else if addr = 0 then ⟨s, .ok, .nodeList (s.nodes.map fun r => (r.addr, r.state))⟩
    else
      match s.node addr with
      | none => s.refuse .notFound
      | some r =>
        ⟨s, .ok, .node r (r.retryTimer.map (remaining s.uptime)) (r.pollTimer.map (remaining s.uptime))⟩

end Sys2Proof.Machine
end

