-- ==== Sys2Proof/Machine/Roomline.lean ====
section
/-!
DEFINITION. The Roomline controller (chapter 1): opening a transaction and the bytes it sends, the arbiter, outcomes,
reports, arbitration, RECOVERY, entry to CONFIG and the Roomline requests.
-/

namespace Sys2Proof.Machine

/-! ## The bytes of a transaction (R3 to R8) -/

/-- The head byte of the part's transaction: the direction in the top bit, the target below it (R5). -/
def headByte (read : Bool) (target : Nat) : Byte := BitVec.ofNat 8 ((if read then 128 else 0) + target)

/-- The bytes of a write: head, kind, data and check byte (R3, R4). -/
def writeBytes (target : Nat) (kind : TxKind) (data : List Byte) : List Byte :=
  let body := headByte false target :: BitVec.ofNat 8 kind.code :: data
  body ++ [crc8 body]

/-- The bytes the part sends in a read: head and kind (R3). -/
def readBytes (target : Nat) (kind : TxKind) : List Byte := [headByte true target, BitVec.ofNat 8 kind.code]

/-- The outputs of a node by output index, 0 for an output with no channel (R8). -/
def State.nodeOutputs (s : State) (addr n : Nat) : List (Nat × Nat) :=
  (List.range n).map fun i =>
    (i + 1, ((s.channels.find? fun c => c.cfg.node = addr ∧ c.cfg.index = i + 1).map Channel.output).getD 0)

/-- A bitmap of flags, bit i for the i-th (section 1.3). -/
def bitmap (flags : List Bool) : Byte :=
  BitVec.ofNat 8 (leNatBits flags)
where
  /-- The number whose bits, lowest first, are the flags. -/
  leNatBits : List Bool → Nat
    | [] => 0
    | b :: bs => (if b then 1 else 0) + 2 * leNatBits bs

/-- The data of a LEVELS for a node type: levels or positions, or for a SWITCH8 one bitmap byte (R8). -/
def levelBytes (type : NodeType) (outputs : List (Nat × Nat)) : List Byte :=
  match type with
  | .switch8 => [bitmap (outputs.map fun p => decide (p.2 = 1000))]
  | _ => (outputs.map fun p => leBytes 2 p.2).flatten

/-- The data of a LAMPS: two bits for each key, four keys to a byte (section 1.3). -/
def lampBytes (lamps : Vector Lamp 8) : List Byte :=
  [BitVec.ofNat 8 (lamps[0].code + 4 * lamps[1].code + 16 * lamps[2].code + 64 * lamps[3].code),
   BitVec.ofNat 8 (lamps[4].code + 4 * lamps[5].code + 16 * lamps[6].code + 64 * lamps[7].code)]

/-- The values a transaction carries, read from their owning block at its start (R8). Those of a target whose record or key map is gone,
or whose type is another by then, are what its record then gives (DESIGN CHOICE, notes/assumptions/38.md). -/
def State.carriedBy (s : State) (e : Entry) : Carried :=
  match e.kind with
  | .levels => .levels (s.nodeOutputs e.target (((s.node e.target).map (·.type.outputs)).getD 0))
  | .lamps => match s.station e.target with
    | some t => .lamps (s.lampsOf t)
    | none => .none
  | _ => .none

/-- The data bytes of a write of an entry (R6 to R8). A LEVELS or LAMPS opened again in CONFIG, after its target's record or key map has been
removed or retyped, has no data bytes or the form of the new type (DESIGN CHOICE, notes/assumptions/38.md). -/
def State.writeData (s : State) (e : Entry) : List Byte :=
  match e.kind, s.carriedBy e with
  | .assign, _ => (e.assign.map fun p => leBytes 1 p.1 ++ leBytes 4 p.2.toNat).getD []
  | .setup, _ => leBytes 1 s.bus.settings.silence ++ leBytes 1 s.bus.settings.fallback.code
  | .levels, .levels outputs => levelBytes (((s.node e.target).map (·.type)).getD .dimmer4) outputs
  | .lamps, .lamps lamps => lampBytes lamps
  | _, _ => []

/-- The bytes the part sends for an entry. -/
def State.wireOf (s : State) (e : Entry) : List Byte :=
  if e.kind.isRead then readBytes e.target e.kind else writeBytes e.target e.kind (s.writeData e)

/-! ## The arbiter (R19) -/

/-- The index of the first entry of a kind of choice. -/
def firstIndex (p : Entry → Bool) (q : List Entry) : Option Nat := q.findIdx? fun e => p e && !e.inFlight

/-- Whether a class C entry has waited more than 500 ms (R19). -/
def Entry.aged (now : Uptime) (e : Entry) : Bool := e.cls = .c ∧ 500 < elapsed e.queued now

/-- The entry the arbiter picks: the retry mark, class A, an aged class C, class B, class C, the oldest of each (R19). -/
def arbitrate (now : Uptime) (q : List Entry) : Option Nat :=
  firstIndex (·.retry) q <|> firstIndex (fun e => e.cls = .a) q <|> firstIndex (Entry.aged now) q
    <|> firstIndex (fun e => e.cls = .b) q <|> firstIndex (fun e => e.cls = .c) q

/-- A queue with one entry changed in place. -/
def changeAt (i : Nat) (f : Entry → Entry) (q : List Entry) : List Entry := q.modify i f

/-- The entry in flight. -/
def Bus.flying (b : Bus) : Option Entry := b.queue.find? (·.inFlight)

/-- A transaction is opened: the bus is OWN, and its bytes and values are fixed at the settings of this moment (R2, R8, R10). -/
def State.open_ (s : State) (wire : List Byte) (carried : Carried) (f : Bus → Bus) : State :=
  s.onBus fun b =>
    f { b with state := .own, openedAt := s.uptime, wire := wire, carried := carried, flightRate := b.settings.rate }

/-- OPEN_TRANSACTION (R10, R19, R23): in IDLE with both lines high, a pending RELEASE, or the entry the arbiter picks. -/
def execOpenTransaction (rckHigh rdaHigh : Bool) (s : State) : Outcome :=
  .next <|
    if s.bus.state ≠ .idle ∨ rckHigh = false ∨ rdaHigh = false then s
    else if s.bus.pendingRelease then
      s.open_ (writeBytes 0 .release []) .none fun b => { b with pendingRelease := false, releaseOpen := true }
    else
      match arbitrate s.uptime s.bus.queue with
      | none => s
      | some i =>
        match s.bus.queue[i]? with
        | none => s
        | some e =>
          s.open_ (s.wireOf e) (s.carriedBy e) fun b =>
            { b with queue := changeAt i (fun e => { e with inFlight := true }) b.queue }

/-! ## Outcomes (R6, R9, R16) -/

/-- The IDENTIFY reply of seven data bytes with a type code 1..5 (R6). -/
def identifyReply (data : List Byte) : Option Delivered :=
  match data with
  | [ty, a, b, c, d, major, minor] =>
    (nodeType? ty.toNat).map fun t => .identify t (BitVec.ofNat 32 (leNat [a, b, c, d])) (major, minor)
  | _ => none

/-- The two-byte values of a list of bytes, when every one is at most 1000 (R9). -/
def levelValues : List Byte → Option (List Nat)
  | [] => some []
  | lo :: hi :: rest =>
    if leNat [lo, hi] ≤ 1000 then (levelValues rest).map (leNat [lo, hi] :: ·) else none
  | [_] => none

/-- The STATUS reply of a node type, when its length and contents pass (R9). -/
def statusReply (type : NodeType) (data : List Byte) : Option NodeStatus :=
  match type with
  | .dimmer4 =>
    if data.length = 9 then
      (levelValues (data.take 8)).map fun ls => .dimmer ls (BitVec.ofNat 4 (byteAt data 8))
    else none
  | .switch8 => if data.length = 1 then some (.switch (data.headD 0)) else none
  | .blind2 =>
    if data.length = 5 then (levelValues (data.take 4)).map fun ps => .blind ps (data[4]?.getD 0) else none
  | .keypad | .station =>
    match data with
    | held :: events => if events.length ≤ 4 then (keyEvents? events).map fun es => .keys held es else none
    | [] => none

/-- The contents of a read's reply for its kind and target, when they pass the checks of R6 and R9. A node without a record
has no recorded type to check against, and its STATUS reply passes (DESIGN CHOICE, notes/assumptions/38.md). -/
def State.replyContents (s : State) (kind : TxKind) (target : Nat) (data : List Byte) : Option Delivered :=
  match kind with
  | .identify => identifyReply data
  | .status =>
    match s.node target with
    | some r => (statusReply r.type data).map .status
    | none => some .nothing
  | _ => some .nothing

/-- The outcome of a read with its head and kind acknowledged, from the bytes the target sent; a byte it did not drive reads
0xFF (R3, R16; notes/assumptions/18.md). -/
def State.readOutcome (s : State) (kind : TxKind) (target : Nat) (reply : List Byte) : TxOutcome × Delivered :=
  let at_ := fun i : Nat => reply[i]?.getD 0xFF
  let len := at_ 0
  if 16 < len.toNat then (.checkFail, .nothing)
  else
    let data := (List.range len.toNat).map fun i => at_ (i + 1)
    if crc8 (readBytes target kind ++ len :: data) ≠ at_ (len.toNat + 1) then (.checkFail, .nothing)
    else
      match s.replyContents kind target data with
      | some d => (.done, d)
      | none => (.checkFail, .nothing)

/-- The outcome of the part's transaction from what the target did (R16). The answers to a broadcast are not examined (R3). -/
def State.outcomeOf (s : State) (kind : TxKind) (target : Nat) (a : TargetAnswer) : TxOutcome × Delivered :=
  if target = 0 then (.done, .nothing)
  else if a.headAck = false then (.noAckHead, .nothing)
  else if a.dataAck = false then (.noAckData, .nothing)
  else if kind.isRead then s.readOutcome kind target a.reply
  else if a.checkAck = false then (.checkFail, .nothing)
  else (.done, .nothing)

/-- The values sent are delivered with the outcome DONE to the block that asked: LEVELS to the channel engine, LAMPS to the
ownership unit (R8, R16). -/
def State.deliverValues (s : State) (target : Nat) (outcome : TxOutcome) (carried : Carried) : State :=
  if outcome = .done then
    match carried with
    | .levels outputs => s.levelsSent target outputs
    | .lamps lamps => s.onStation target fun t => { t with delivered := some lamps }
    | .none => s
  else s

/-- An outcome is delivered to the node table, or to the enrolment operation, and to the block that asked (R16). A RELEASE
that ends with BUS_FAULT is marked pending again (R23). -/
def State.deliver (s : State) (e : Entry) (outcome : TxOutcome) (d : Delivered) (carried : Carried) : State :=
  let s := if e.enrol then s.enrolOutcome outcome d else s.nodeOutcome e.kind e.target outcome d
  let s := s.deliverValues e.target outcome carried
  if e.kind = .release ∧ outcome = .busFault then s.onBus fun b => { b with pendingRelease := true } else s

/-- The bus after the part's transaction: IDLE, with nothing in flight (R10). -/
def Bus.close (b : Bus) : Bus := { b with state := .idle, wire := [], carried := .none, releaseOpen := false }

/-- The entry that was in flight leaves the queue, or rejoins at the back when its follow-up mark is set (R20). -/
def retireEntry (now : Uptime) (q : List Entry) : List Entry :=
  match q.find? (·.inFlight) with
  | none => q
  | some e =>
    let rest := q.filter fun e => !e.inFlight
    if e.followUp then
      rest ++ [{ e with inFlight := false, retry := false, followUp := false, queued := now }]
    else rest

/-- The part's transaction ends with an outcome: it is delivered, and the entry leaves or rejoins (R20). -/
def State.endTransaction (s : State) (outcome : TxOutcome) (d : Delivered) : State :=
  let s :=
    match s.bus.flying with
    | none => s
    | some e => s.deliver e outcome d s.bus.carried
  s.onBus fun b => { b.close with queue := retireEntry s.uptime b.queue }

/-- TRANSACTION_END's operation (R16, R20). A RELEASE started from the pending mark stands outside the queue (R23). -/
def State.transactionEnd (s : State) (a : TargetAnswer) : State :=
  if s.bus.state ≠ .own then s
  else
    match s.bus.flying with
    | none => s.onBus Bus.close
    | some e =>
      let (outcome, d) := s.outcomeOf e.kind e.target a
      s.endTransaction outcome d

/-- BYTE_TIMEOUT's operation (R12). -/
def State.byteTimeout (s : State) : State :=
  if s.bus.state = .own then s.endTransaction .timeoutByte .nothing else s

/-- TRANSACTION_TIMEOUT's operation: 20 ms after the OPEN (R12). -/
def State.transactionTimeout (s : State) : State :=
  if s.bus.state = .own then (s.atMoment (later s.bus.openedAt 20)).endTransaction .timeoutTransaction .nothing else s

/-! ## Other parties on the bus (R10, R11, R13, R21) -/

/-- ARBITRATION_LOST (R11): the entry is marked for retry and the bus is OTHER; a RELEASE from the pending mark is pending
again (notes/assumptions/19.md). -/
def execArbitrationLost (head : Byte) (s : State) : Outcome :=
  .next <|
    if s.bus.state ≠ .own then s
    else
      s.onBus fun b =>
        { b with state := .other, otherHead := some head, wire := [], carried := .none, releaseOpen := false
                 pendingRelease := b.pendingRelease || b.releaseOpen
                 queue := b.queue.map fun e => if e.inFlight then { e with inFlight := false, retry := true } else e }

/-- OTHER_OPEN (R10): in IDLE the bus becomes OTHER. -/
def execOtherOpen (head : Byte) (s : State) : Outcome :=
  .next <|
    if s.bus.state = .idle then
      s.onBus fun b => { b with state := .other, otherHead := some head, openedAt := s.uptime }
    else s

/-- The bus returns from OTHER to IDLE (R10). -/
def State.otherDone (s : State) : State := s.onBus fun b => { b with state := .idle, otherHead := none }

/-- OTHER_CLOSE (R10, R21): a report cut short is discarded. -/
def execOtherClose (s : State) : Outcome := .next (if s.bus.state = .other then s.otherDone else s)

/-- A report's address, held set and events, when it passes the checks of R21: kind KEY_REPORT, at most four events, no byte
too few or too many, a good check byte, an address 1..119 and events that are events. -/
def reportOf (bytes : List Byte) : Option (Nat × Byte × List KeyEvent) :=
  match bytes with
  | kind :: addr :: held :: count :: rest =>
    let n := count.toNat
    if kind = 0x07 ∧ n ≤ 4 ∧ rest.length = n + 1 ∧ rest.getLast? = some (crc8 (0x7F :: bytes.dropLast))
        ∧ 1 ≤ addr.toNat ∧ addr.toNat ≤ 119 then
      (keyEvents? (rest.take n)).map fun es => (addr.toNat, held, es)
    else none
  | _ => none

/-- KEY_REPORT's operation: the report closes and is taken, or is discarded (R21, R22). It may be given whole in IDLE, its
OPEN with it (notes/assumptions/17.md). -/
def State.keyReport (s : State) (bytes : List Byte) : State :=
  if s.bus.state = .idle ∨ (s.bus.state = .other ∧ s.bus.otherHead = some 0x7F) then
    let s := s.otherDone
    match reportOf bytes with
    | some (addr, held, events) => s.report addr held events
    | none => s
  else s

/-! ## RECOVERY (R14, R15) -/

/-- The causes of RECOVERY, in the order of their codes (R14). -/
inductive RecoveryCause where
  | rckLow | rdaLow | bothLow | overrun
  deriving DecidableEq, Repr

/-- The cause codes of R14. -/
def RecoveryCause.code : RecoveryCause → Nat | .rckLow => 1 | .rdaLow => 2 | .bothLow => 3 | .overrun => 4

/-- The bus at entry to RECOVERY: queue, marks and report gone, the first run 100 ms away (R14, R15). -/
def Bus.recover (b : Bus) (first : Uptime) : Bus :=
  { b with state := .recovery, queue := [], wire := [], carried := .none, otherHead := none
           pendingRelease := b.pendingRelease || b.releaseOpen, releaseOpen := false
           recoveryRuns := 0, recoveryTimer := some first }

/-- Entry to RECOVERY (R14): the transaction in flight and then every entry ends with BUS_FAULT, BUS_FAULT is posted and the
ownership unit stops station-owned motions. -/
def State.enterRecovery (s : State) (cause : RecoveryCause) : State :=
  let q := s.bus.queue.filter (·.inFlight) ++ s.bus.queue.filter fun e => !e.inFlight
  let s := s.onBus fun b => b.recover (s.after 100)
  let s := q.foldl (fun s e => s.deliver e .busFault .nothing .none) s
  (s.post .busFault 127 (leBytes 1 cause.code)).stationsUnheard

/-- OVERRUN_TIMEOUT's operation: 20 ms after the other party's OPEN (R13). -/
def State.overrun (s : State) : State :=
  if s.bus.state = .other then (s.atMoment (later s.bus.openedAt 20)).enterRecovery .overrun else s

/-- The cause of a stuck line, as the lines read at the expiry (R14). -/
def stuckCause (rckLow rdaLow : Bool) : Option RecoveryCause :=
  match rckLow, rdaLow with
  | true, true => some .bothLow
  | true, false => some .rckLow
  | false, true => some .rdaLow
  | false, false => none

/-- STUCK_LINE_TIMEOUT's operation: watched in every bus state but RECOVERY (R14). -/
def State.stuckLine (s : State) (rckLow rdaLow : Bool) : State :=
  if s.bus.state = .recovery then s
  else
    match stuckCause rckLow rdaLow with
    | some c => s.enterRecovery c
    | none => s

/-- RECOVERY_RUN (R15): one run of the recovery sequence, with the lines as they read at its end. -/
def execRecoveryRun (rckHigh rdaHigh : Bool) (s : State) : Outcome :=
  .next <|
    match s.bus.recoveryTimer with
    | none => s
    | some e =>
      let s := s.atMoment e
      let runs := min (s.bus.recoveryRuns + 1) 255
      if rckHigh ∧ rdaHigh then
        (s.onBus fun b => { b with state := .idle, recoveryRuns := runs, recoveryTimer := none }).post .busRecovered 127
          (leBytes 1 runs)
      else s.onBus fun b => { b with recoveryRuns := runs, recoveryTimer := some (later e 100) }

/-! ## Entry to CONFIG (R23) -/

/-- One RELEASE joins the queue, or is marked pending while the bus is in RECOVERY (R23). -/
def State.queueRelease (s : State) : State :=
  if s.bus.state = .recovery then s.onBus fun b => { b with pendingRelease := true }
  else
    s.onBus fun b =>
      { b with queue := b.queue ++ [{ cls := .c, kind := .release, target := 0, queued := s.uptime }] }

/-- The Roomline controller enters CONFIG (R23): waiting entries are removed, the follow-up mark of the entry in flight is
cleared, and one RELEASE is queued. An enrolment whose transaction was removed asks for it again (R43). -/
def State.busToConfig (s : State) : State :=
  let lost := s.bus.queue.any fun e => e.enrol && !e.inFlight
  let s := s.onBus fun b =>
    { b with queue := (b.queue.filter (·.inFlight)).map fun e => { e with followUp := false } }
  let s := s.queueRelease
  if lost then s.enrolAsk else s

/-! ## Requests (R25) -/

/-- SET_ROOMLINE (R25). -/
def execSetRoomline (tag : Byte) (rate silence fallback : Nat) (s : State) : Outcome :=
  answered 0x10 tag <| s.configEdit <|
    match fallback? fallback with
    | none => s.refuse .badValue
    | some f =>
      if (rate ≠ 50 ∧ rate ≠ 100) ∨ silence < 1 ∨ 60 < silence then s.refuse .badValue
      else (s.onBus fun b => { b with settings := ⟨rate, silence, f⟩ }).accept

/-- What READ_ROOMLINE returns (R25). -/
def Bus.view (b : Bus) : RoomlineView :=
  { settings := b.settings, state := b.state, runs := b.recoveryRuns
    classA := (b.queue.filter fun e => e.cls = .a).length, classB := (b.queue.filter fun e => e.cls = .b).length
    classC := (b.queue.filter fun e => e.cls = .c).length, pendingRelease := b.pendingRelease
    inFlight := b.flying.map fun e => (e.kind, e.target) }

/-- READ_ROOMLINE (R25). -/
def execReadRoomline (tag : Byte) (s : State) : Outcome := answered 0x11 tag ⟨s, .ok, .roomline s.bus.view⟩

end Sys2Proof.Machine
end

