-- ==== Sys2Proof/Machine/Mode.lean ====
section
/-!
DEFINITION. Mode control and the settings store (chapter 11): START's checks, entry to RUN, STOPPING and CONFIG, the stored
image, saves, loads and the resets.
-/

namespace Sys2Proof.Machine

/-! ## Changes of mode (R185, R187 to R189) -/

/-- The causes of MODE_CHANGED, in the order of their codes (R185). -/
inductive ModeCause where
  | start | autoStart | stop | drained
  deriving DecidableEq, Repr

/-- The cause codes of R185. -/
def ModeCause.code : ModeCause → Nat | .start => 1 | .autoStart => 2 | .stop => 3 | .drained => 4

/-- The mode changes and MODE_CHANGED is posted: the new mode, the previous mode and the cause (R185). -/
def State.changeMode (s : State) (mode : Mode) (cause : ModeCause) : State :=
  State.post { s with mode := mode } .modeChanged 0
    (leBytes 1 mode.code ++ leBytes 1 s.mode.code ++ leBytes 1 cause.code)

/-- The allocator with no grant and every class NORMAL, at START and at entry to CONFIG (R104). -/
def Alloc.clear (a : Alloc) : Alloc :=
  { a with classes := .replicate 8 .normal, hpuGrant := none, windlassGrant := none, overLimit := 0 }

/-- START makes the part ready and enters RUN, all in one operation (R187). -/
def State.enterRun (s : State) (cause : ModeCause) : State :=
  let s := ((s.onChannels Channel.prepare).onAlloc Alloc.clear).changeMode .run cause
  let s := { s with refresh := some (s.after 20) }
  let s := s.onAlloc fun a => { a with reviewTimer := some (s.after 500) }
  (s.onSense Sense.emptyWindow).bringUpAll

/-- The ownership unit at entry to CONFIG: every spent set emptied and the last delivered lamps absent (R170). -/
def Station.rest (t : Station) : Station := { t with spent := .replicate 6 none, delivered := none }

/-- The part enters CONFIG from STOPPING, and each block acts as its chapter gives (R189). -/
def State.enterConfig (s : State) : State :=
  let s := s.changeMode .config .drained
  let s := { s with refresh := none, nodes := s.nodes.map NodeRecord.rest, channels := s.channels.map Channel.halt
                    hatchOwner := {}, platformOwner := {}, windlassOwner := {}, stations := s.stations.map Station.rest }
  (s.onAlloc fun a => { a.clear with reviewTimer := none }).busToConfig

/-- In STOPPING, the part enters CONFIG when the drain condition holds (R188). -/
def State.drainPass (s : State) : State := if s.mode = .stopping ∧ s.drained then s.enterConfig else s

/-- What follows an operation that may have changed the deck: the interlock watch sees the movers' states, the drain
condition is tested, and the lamps are recomputed (R130, R168, R188; notes/assumptions/25.md). -/
def State.deckPass (s before : State) : State := (s.watchInterlock.drainPass).lampPass before

/-- The movers, the HPU and the windlass at entry to STOPPING (R137, R156). -/
def State.stopDeck (s : State) : State :=
  let s := (s.moverStop .hatch .modeStop).moverStop .platform .modeStop
  let s := if s.hpu.state = .runOn then s.hpuOff else s.dropIdleStart
  s.windlassStop .modeStop

/-! ## START's checks (R186) -/

/-- Checks 1 to 3 of a channel: its node has a record, its index is an output of the node's type, and its kind is the type's. -/
def State.channelCheck (s : State) (c : Channel) : Option Nat :=
  match s.node c.cfg.node with
  | none => some 1
  | some r =>
    if c.cfg.index < 1 ∨ r.type.outputs < c.cfg.index then some 2
    else if c.cfg.kind.nodeType ≠ r.type then some 3
    else none

/-- The first of a list of items that a check finds wrong, with the item kind and its index. -/
def firstBad {α : Type} (check : α → Option Nat) (index : α → Nat) (items : List α) : Option (Nat × Nat) :=
  items.findSome? fun x => (check x).map fun k => (k, index x)

/-- The checks of START (R186): the item kind and the index of the first item that fails. -/
def State.startCheck (s : State) : Option (Nat × Nat) :=
  firstBad s.channelCheck (·.cfg.num) s.channels
    <|> firstBad (fun b : Binding =>
          if s.bindingNamesRecords b.trigger b.action ∧ s.keyTriggerFits b.trigger then none else some 4) (·.slot) s.bindings
    <|> firstBad (fun t : Station => if (s.node t.addr).any (fun r => r.type = .station) then none else some 5) (·.addr) s.stations
    <|> (if s.alloc.base + s.alloc.margin ≤ s.alloc.limit then none else some (6, 0))
    <|> (if s.platform.settings.low < s.platform.settings.deck ∧ s.platform.settings.deck < s.platform.settings.high then none
         else some (7, 0))
    <|> (if s.hatch.settings.low < s.hatch.settings.high then none else some (8, 0))
    <|> ((windlassBadFigure s.windlass.settings).map fun i => (9, i))

/-- START (R186, R187). -/
def execStart (tag : Byte) (s : State) : Outcome :=
  answered 0x08 tag <|
    if s.mode ≠ .config then s.refuse .wrongMode
    else
      match s.startCheck with
      | some (kind, index) => ⟨s, .invalid, .invalid kind index⟩
      | none => ((s.enterRun .start).lampPass s).accept

/-- AUTO_START (R193): 30 ms after a reset, with a valid image, the flag set and the mode still CONFIG, START is attempted. Only the
mode at that moment is looked at (DESIGN CHOICE, notes/assumptions/36.md). -/
def execAutoStart (s : State) : Outcome :=
  .next <|
    match s.bootTimer with
    | none => s
    | some e =>
      let s := { s.atMoment e with bootTimer := none }
      if s.bootValid ∧ s.autoStart ∧ s.mode = .config then
        match s.startCheck with
        | some (kind, index) => s.post .startFailed 0 (leBytes 1 kind ++ leBytes 1 index)
        | none => (s.enterRun .autoStart).lampPass s
      else s

/-- STOP (R188). -/
def execStop (tag : Byte) (s : State) : Outcome :=
  answered 0x09 tag <|
    if s.mode ≠ .run then s.refuse .wrongMode
    else (((s.changeMode .stopping .stop).stopDeck).deckPass s).accept

/-! ## The settings store (R190 to R192) -/

/-- The working configuration, as an image would hold it (R190). -/
def State.configuration (s : State) : Image :=
  { nodes := s.nodes.map fun r => (r.addr, r.type, r.serial)
    channels := s.channels.map (·.cfg)
    scenes := s.scenes
    bindings := s.bindings.map fun b => (b.slot, b.trigger, b.action)
    maps := s.stations.map fun t => (t.addr, t.map)
    margin := s.alloc.margin
    hysteresis := s.alloc.hysteresis
    sense := s.sense.inputs.map (·.settings)
    hpu := s.hpu.settings
    hatch := s.hatch.settings
    platform := s.platform.settings
    windlass := s.windlass.settings
    roomline := s.bus.settings
    autoStart := s.autoStart }

/-- A sense input with its settings replaced and both monitors armed (R114). -/
def SenseInput.withSettings (x : SenseInput) (c : SenseSettings) : SenseInput :=
  { x with settings := c, highTripped := false, lowTripped := false }

/-- Every block's tables and settings are rebuilt from an image, with their working state reset (R24, R27, R48, R68, R84,
R114, R118, R119, R140, R160, R192). -/
def State.loadImage (s : State) (m : Image) : State :=
  { s with
    nodes := m.nodes.map fun (a, ty, serial) => { addr := a, type := ty, serial := serial }
    channels := m.channels.map fun c => { cfg := c }
    scenes := m.scenes
    build := none
    lastTake := none
    bindings := m.bindings.map fun (n, t, a) => ⟨n, t, a, 0⟩
    stations := m.maps.map fun (a, f) => { addr := a, map := f }
    alloc := { s.alloc with margin := m.margin, hysteresis := m.hysteresis }
    sense := { s.sense with inputs := Vector.ofFn fun i => s.sense.inputs[i].withSettings m.sense[i] }
    hpu := { s.hpu with settings := m.hpu }
    hatch := { s.hatch with settings := m.hatch }
    platform := { s.platform with settings := m.platform }
    windlass := s.windlass.withSettings m.windlass
    bus := { s.bus with settings := m.roomline }
    autoStart := m.autoStart }

/-- SAVE_SETTINGS (R191): the flag and the content are taken. While the save runs the store holds no whole image, under the old
CRC (R190). -/
def execSaveSettings (tag : Byte) (flag : Nat) (s : State) : Outcome :=
  answered 0x0A tag <|
    if 1 < flag then s.refuse .badValue
    else if s.saving then s.refuse .busy
    else
      let t := { s with autoStart := decide (flag = 1) }
      State.accept { t with store := { t.store with state := .saving, image := none, saving := some t.configuration } }

/-- The CRC-32 of an image's contents (R190). -/
def Image.crc (m : Image) : BitVec 32 := crc32 (Config.imageBytes m)

/-- SAVE_COMPLETE (R191): the image read back agrees with the content taken, and its CRC is written, or does not. -/
def execSaveComplete (agrees : Bool) (s : State) : Outcome :=
  .next <|
    match s.store.saving with
    | none => s
    | some m =>
      if agrees then
        State.post { s with store := ⟨.valid, some m, m.crc, none⟩ } .storeDone 0
          (leBytes 1 (if m.autoStart then 1 else 0) ++ leBytes 4 m.crc.toNat)
      else State.post { s with store := { s.store with state := .invalid, image := none, saving := none } } .storeFailed 0 []

/-- A request accepted in CONFIG that replaces the whole configuration (R192). -/
def State.replaceConfig (s : State) (k : Served) : Served :=
  if s.mode ≠ .config then s.refuse .wrongMode
  else if s.saving ∨ s.enrolment.isSome then s.refuse .busy
  else k

/-- LOAD_SETTINGS (R192): the image's configuration, unless the store state is INVALID. -/
def execLoadSettings (tag : Byte) (s : State) : Outcome :=
  answered 0x0B tag <| s.replaceConfig <|
    match s.store.image.filter fun _ => s.store.state ≠ .invalid with
    | none => s.refuse .notReady
    | some m => (s.loadImage m).accept

/-- DEFAULTS (R192): empty tables and default settings, the auto-start flag clear. -/
def execDefaults (tag : Byte) (s : State) : Outcome :=
  answered 0x0C tag <| s.replaceConfig <| (s.loadImage {}).accept

/-! ## Resets (R193) -/

/-- The host link rate of the straps (section 2 of the scope file). -/
def strapRate (lr1 lr0 : Bool) : LinkRate :=
  match lr1, lr0 with
  | false, false => .r115200
  | false, true => .r230400
  | true, false => .r460800
  | true, true => .r921600

/-- The store as a reset finds it, with the store state yet to be set by the check: of a save that was running no whole image
stands (R190). -/
def Store.atReset (st : Store) : Store :=
  { st with state := .invalid, image := if st.state = .saving then none else st.image, saving := none }

/-- The image check: the contents of the stored image, when its stored CRC equals the CRC computed over them (R190). -/
def Store.checked (st : Store) : Option Image := st.image.filter fun m => m.crc = st.crc

/-- A hard reset, or RESTART (R193): every block at its reset values, the configuration from a valid image, and one RELEASE
queued. The commands that wait are the model's own and stay. -/
def State.resetTo (s : State) (cause : ResetCause) (lr1 lr0 : Bool) : State :=
  let t : State :=
    { pending := s.pending, resetCause := cause, link := { rate := strapRate lr1 lr0 }, store := s.store.atReset }
  let t :=
    match t.store.checked with
    | some m => { t.loadImage m with store := { t.store with state := .valid }, bootValid := true }
    | none => t.post .storeInvalid 0 []
  ((t.reposition .hatch).reposition .platform).queueRelease

/-- HARD_RESET (R193). -/
def execHardReset (cause : HardCause) (lr1 lr0 : Bool) (s : State) : Outcome :=
  .next (s.resetTo (match cause with | .power => .power | .pin => .pin) lr1 lr0)

/-- RESTART_RESET (R182, R193): the reset that follows the reply to RESTART. -/
def execRestartReset (lr1 lr0 : Bool) (s : State) : Outcome := .next (s.resetTo .restart lr1 lr0)

end Sys2Proof.Machine
end

