-- ==== Sys2Proof/Machine/Commands.lean ====
section
/-!
DEFINITION. The meanings of the rows that may change the deck: the sweep, switch and gypsy events, deck timers, motion
requests, Roomline endings that reach a station's motions, and confirmation and supervision. Each is its block's
operation followed by `State.deckPass`.
-/

namespace Sys2Proof.Machine

/-- An event of the deck: its operation and what follows it (R130, R168, R188). -/
def State.deckEvent (s after_ : State) : Outcome := .next (after_.deckPass s)

/-- A request that may change the deck: its reply is made with what follows an accepted operation done. -/
def Served.deck (r : Served) (before : State) : Served :=
  if r.status = .ok then { r with state := r.state.deckPass before } else r

/-! ## The sweep (R106, R113) -/

/-- Whether an input has become FAULTED in a sweep. -/
def State.newlyFaulted (s before : State) (i : Nat) : Bool := (s.input i).faulted && !(before.input i).faulted

/-- The readers of the inputs are told of the faults of a sweep (R113), in the order of the inputs (notes/assumptions/13.md). -/
def State.tellReaders (s before : State) : State :=
  let s := if s.newlyFaulted before 3 then s.pressureFaulted else s
  let s := if s.newlyFaulted before 4 then s.angleHasFaulted .hatch else s
  let s := if s.newlyFaulted before 5 then s.angleHasFaulted .platform else s
  if s.newlyFaulted before 6 then s.currentFaulted else s

/-- A sweep: the sense unit's own operation, the readers of a fault, the positions and the interlock watch, and then the
watches of the movers, the HPU and the windlass (R106, R113, R125, R130 to R132, R121, R123, R154). -/
def State.sweepAll (s : State) (raw : Vector Raw 8) : State :=
  let t := (s.senseSweep raw).tellReaders s
  let t := ((t.reposition .hatch).reposition .platform).watchInterlock
  (((t.moverSweep .hatch).moverSweep .platform).hpuSweep).windlassSweep

/-- SWEEP (R106): the sweep timer expires every 10 ms. -/
def execSweep (raw : Vector Raw 8) (s : State) : Outcome :=
  let e := s.sense.sweepTimer
  s.deckEvent (((s.atMoment e).onSense fun u => { u with sweepTimer := later e 10 }).sweepAll raw)

/-! ## Deck switches and timers (chapter 7) -/

/-- DECK_SWITCH_EVENT (R117, R125, R130, R131). -/
def execDeckSwitchEvent (sw : DeckSwitch) (active : Bool) (s : State) : Outcome := s.deckEvent (s.switchEvent sw active)

/-- An expiry at a running timer: the moment comes, the operation runs, and what follows it; a stopped timer does not expire. -/
def State.expire (s : State) (timer : Option Uptime) (op : State → State) : State :=
  match timer with
  | none => s
  | some e => (op (s.atMoment e)).deckPass s

/-- HPU_READY_TIMEOUT (R121, R123): the HPU still in STARTING enters FAULT with cause NO_PRESSURE. -/
def execHpuReadyTimeout (s : State) : Outcome := .next (s.expire s.hpu.readyTimer fun s => s.hpuFault .noPressure)

/-- RUN_ON_EXPIRY (R122). -/
def execRunOnExpiry (s : State) : Outcome := .next (s.expire s.hpu.runOnTimer State.hpuOff)

/-- TRAVEL_TIMEOUT (R132). -/
def execTravelTimeout (m : MoverId) (s : State) : Outcome :=
  .next (s.expire (s.mover m).travelTimer fun s => s.enterSettling m .travelTimeout)

/-- MOVER_SETTLE_EXPIRY (R134). -/
def execMoverSettleExpiry (m : MoverId) (s : State) : Outcome :=
  .next (s.expire (s.mover m).settleTimer fun s => s.settleEnd m)

/-! ## Motion requests (R124, R128, R135, R136, R138, R155 to R157) -/

/-- MOVE (R128). -/
def execMove (tag : Byte) (resource target : Nat) (s : State) : Outcome :=
  answered 0x42 tag <|
    if s.mode ≠ .run then s.refuse .wrongMode
    else
      match mover? resource with
      | none => s.refuse .badValue
      | some m =>
        match moveTarget? m target with
        | none => s.refuse .badValue
        | some goal => (s.moveTo m goal).deck s

/-- The resources STOP_MOTION's code names: ALL 0, HATCH 1, PLATFORM 2, WINDLASS 3 (R136, R184). -/
def stopTargets? : Nat → Option (List Resource)
  | 0 => some resources
  | 1 => some [.hatch]
  | 2 => some [.platform]
  | 3 => some [.windlass]
  | _ => none

/-- STOP_MOTION (R136, R156): the named resources are stopped, whoever owns them. -/
def execStopMotion (tag : Byte) (resource : Nat) (s : State) : Outcome :=
  answered 0x43 tag <|
    match stopTargets? resource with
    | none => s.refuse .badValue
    | some rs => (State.accept (rs.foldl (fun s r => s.stopResource r .stopRequest) s)).deck s

/-- CLEAR_FAULT (R124, R135, R155). A resource code other than 1 to 4 is refused with BAD_VALUE (DESIGN CHOICE,
notes/assumptions/15.md). -/
def execClearFault (tag : Byte) (resource : Nat) (s : State) : Outcome :=
  answered 0x44 tag <|
    match deckResource? resource with
    | none => s.refuse .badValue
    | some .hatch => (s.clearMover .hatch).deck s
    | some .platform => (s.clearMover .platform).deck s
    | some .windlass => s.clearWindlass.deck s
    | some .hpu => s.clearHpu.deck s

/-- READ_DECK (R138, R157). -/
def execReadDeck (tag : Byte) (selector : Nat) (s : State) : Outcome :=
  answered 0x45 tag <|
    match selector with
    | 0 => ⟨s, .ok, .deckSummary (s.hatch.state, s.hatch.position) (s.platform.state, s.platform.position) s.hpu.state
        s.windlass.state⟩
    | 1 => ⟨s, .ok, .mover (s.moverView .hatch)⟩
    | 2 => ⟨s, .ok, .mover (s.moverView .platform)⟩
    | 3 => ⟨s, .ok, .windlass s.windlassView⟩
    | 4 => ⟨s, .ok, .hpu s.hpuView⟩
    | _ => s.refuse .badValue

/-! ## The windlass (chapter 8) -/

/-- SET_WINDLASS (R140). -/
def execSetWindlass (tag : Byte) (f : WindlassSettings) (s : State) : Outcome :=
  answered 0x48 tag <| s.configEdit <|
    match windlassBadFigure f with
    | some _ => s.refuse .badValue
    | none => (State.accept (s.onWindlass fun w => w.withSettings f)).deck s

/-- GYPSY_STEP (R141, R151, R152). -/
def execGypsyStep (dir : RodeDir) (s : State) : Outcome := s.deckEvent (s.gypsyStep dir)

/-- GYPSY_DECODE_ERROR (R141). -/
def execGypsyDecodeError (s : State) : Outcome := s.deckEvent s.decodeError

/-- GYPSY_INDEX (R142). -/
def execGypsyIndex (s : State) : Outcome := s.deckEvent s.gypsyIndex

/-- HOME_SWITCH_EVENT (R139, R151). -/
def execHomeSwitchEvent (active : Bool) (s : State) : Outcome := s.deckEvent (s.homeSwitch active)

/-- PAY_OUT_TO (R147). -/
def execPayOutTo (tag : Byte) (target : Int) (s : State) : Outcome := answered 0x49 tag ((s.seek .payOut target).deck s)

/-- HEAVE_TO (R147). -/
def execHeaveTo (tag : Byte) (target : Int) (s : State) : Outcome := answered 0x4A tag ((s.seek .heave target).deck s)

/-- HEAVE_HOME (R148). -/
def execHeaveHome (tag : Byte) (s : State) : Outcome := answered 0x4B tag (s.heaveHome.deck s)

/-- SET_RODE (R144). -/
def execSetRode (tag : Byte) (length : Nat) (s : State) : Outcome := answered 0x4C tag ((s.setRode length).deck s)

/-- The direction of a run that waits in STARTING with its contactor open (R150). -/
def Windlass.waitingDir (w : Windlass) : Option RodeDir :=
  if w.state = .starting ∧ ¬ w.contactorClosed then w.run.map (·.dir) else none

/-- The uptime before which a direction's contactor may not close (R146). -/
def Windlass.freeAt (w : Windlass) : RodeDir → Uptime
  | .payOut => w.payOutFree
  | .heave => w.heaveFree

/-- DEADBAND_EXPIRY (R146, R150): a run that waits in STARTING closes its contactor. -/
def execDeadbandExpiry (s : State) : Outcome :=
  .next <|
    match s.windlass.waitingDir with
    | none => s
    | some dir => (if s.deadband dir = 0 then s else s.atMoment (s.windlass.freeAt dir)).closeContactor dir

/-- BRAKE_TIMER_EXPIRY (R150). -/
def execBrakeTimerExpiry (s : State) : Outcome := .next (s.expire s.windlass.brakeTimer State.enterRunning)

/-- STAGE2_DELAY_EXPIRY (R152): a JOG asks for stage 2. -/
def execStage2DelayExpiry (s : State) : Outcome :=
  .next (s.expire s.windlass.delayTimer fun s =>
    (s.onWindlass fun w => { w with delayTimer := none }).askStage2)

/-- JAM_TIMEOUT (R154). -/
def execJamTimeout (s : State) : Outcome := .next (s.expire s.windlass.jamTimer fun s => s.windlassStop .jam)

/-- WINDLASS_SETTLE_EXPIRY (R153). -/
def execWindlassSettleExpiry (s : State) : Outcome :=
  .next (s.expire s.windlass.settleTimer State.windlassSettleEnd)

/-! ## Ownership (R163, R167, R179) -/

/-- The confirm expiry of a station-owned record has passed: STATION_LOST is delivered unless a stop has been (R163). -/
def State.confirmLapse (s : State) (r : Resource) : State :=
  if (s.ownerOf r).owner.isStation ∧ (s.ownerOf r).stopDelivered = false then s.deliverStop r .stationLost else s

/-- CONFIRM_EXPIRY (R163). -/
def execConfirmExpiry (r : Resource) (s : State) : Outcome :=
  .next (s.expire (s.ownerOf r).confirm fun s => s.confirmLapse r)

/-- The supervision timer has expired: it stays stopped, HOST_LOST is posted, and host-owned motions stop (R167, R179). -/
def State.superviseLapse (s : State) : State :=
  ((s.onLink fun l => { l with supervision := none }).post .hostLost 0 (leBytes 2 s.link.period)).hostLost

/-- SUPERVISION_EXPIRY (R179). -/
def execSupervisionExpiry (s : State) : Outcome := .next (s.expire s.link.supervision State.superviseLapse)

/-! ## Roomline endings (chapter 1) -/

/-- TRANSACTION_END (R16, R20). -/
def execTransactionEnd (answer : TargetAnswer) (s : State) : Outcome := s.deckEvent (s.transactionEnd answer)

/-- BYTE_TIMEOUT (R12). -/
def execByteTimeout (s : State) : Outcome := s.deckEvent s.byteTimeout

/-- TRANSACTION_TIMEOUT (R12). -/
def execTransactionTimeout (s : State) : Outcome := s.deckEvent s.transactionTimeout

/-- KEY_REPORT (R21, R22). -/
def execKeyReport (bytes : List Byte) (s : State) : Outcome := s.deckEvent (s.keyReport bytes)

/-- OVERRUN_TIMEOUT (R13). -/
def execOverrunTimeout (s : State) : Outcome := s.deckEvent s.overrun

/-- STUCK_LINE_TIMEOUT (R14). -/
def execStuckLineTimeout (rckLow rdaLow : Bool) (s : State) : Outcome := s.deckEvent (s.stuckLine rckLow rdaLow)

end Sys2Proof.Machine
end

