-- ==== Sys2Proof/Machine/Dispatch.lean ====
section
/-!
DEFINITION. One arm for each command, each one call of its meaning.
-/

namespace Sys2Proof.Machine

/-- The effect of a command on everything but the queue of the commands that wait. -/
def exec (i : Instr) (s : State) : Host.Outcome State Fault Refusal :=
  match i with
  | .hardReset cause lr1 lr0 => Sys2Proof.Machine.execHardReset cause lr1 lr0 s
  | .restartReset lr1 lr0 => Sys2Proof.Machine.execRestartReset lr1 lr0 s
  | .autoStart => Sys2Proof.Machine.execAutoStart s
  | .requestFrame bytes => Sys2Proof.Machine.execRequestFrame bytes s
  | .gapTimeout => Sys2Proof.Machine.execGapTimeout s
  | .framingError => Sys2Proof.Machine.execFramingError s
  | .replySent => Sys2Proof.Machine.execReplySent s
  | .unknownKind tag kind => Sys2Proof.Machine.execUnknownKind tag kind s
  | .supervisionExpiry => Sys2Proof.Machine.execSupervisionExpiry s
  | .status tag => Sys2Proof.Machine.execStatus tag s
  | .readNotices tag wanted => Sys2Proof.Machine.execReadNotices tag wanted s
  | .linkStats tag => Sys2Proof.Machine.execLinkStats tag s
  | .setSupervision tag period => Sys2Proof.Machine.execSetSupervision tag period s
  | .restart tag => Sys2Proof.Machine.execRestart tag s
  | .start tag => Sys2Proof.Machine.execStart tag s
  | .stop tag => Sys2Proof.Machine.execStop tag s
  | .saveSettings tag flag => Sys2Proof.Machine.execSaveSettings tag flag s
  | .saveComplete agrees => Sys2Proof.Machine.execSaveComplete agrees s
  | .loadSettings tag => Sys2Proof.Machine.execLoadSettings tag s
  | .defaults tag => Sys2Proof.Machine.execDefaults tag s
  | .setRoomline tag rate silence fallback => Sys2Proof.Machine.execSetRoomline tag rate silence fallback s
  | .readRoomline tag => Sys2Proof.Machine.execReadRoomline tag s
  | .openTransaction rckHigh rdaHigh => Sys2Proof.Machine.execOpenTransaction rckHigh rdaHigh s
  | .transactionEnd answer => Sys2Proof.Machine.execTransactionEnd answer s
  | .byteTimeout => Sys2Proof.Machine.execByteTimeout s
  | .transactionTimeout => Sys2Proof.Machine.execTransactionTimeout s
  | .arbitrationLost head => Sys2Proof.Machine.execArbitrationLost head s
  | .otherOpen head => Sys2Proof.Machine.execOtherOpen head s
  | .otherClose => Sys2Proof.Machine.execOtherClose s
  | .keyReport bytes => Sys2Proof.Machine.execKeyReport bytes s
  | .overrunTimeout => Sys2Proof.Machine.execOverrunTimeout s
  | .stuckLineTimeout rckLow rdaLow => Sys2Proof.Machine.execStuckLineTimeout rckLow rdaLow s
  | .recoveryRun rckHigh rdaHigh => Sys2Proof.Machine.execRecoveryRun rckHigh rdaHigh s
  | .nodeRetryExpiry addr => Sys2Proof.Machine.execNodeRetryExpiry addr s
  | .pollExpiry addr => Sys2Proof.Machine.execPollExpiry addr s
  | .enrolNode tag addr type => Sys2Proof.Machine.execEnrolNode tag addr type s
  | .enrolRetryExpiry => Sys2Proof.Machine.execEnrolRetryExpiry s
  | .enrolDeferredUpdate => Sys2Proof.Machine.execEnrolDeferredUpdate s
  | .declareNode tag addr type serial => Sys2Proof.Machine.execDeclareNode tag addr type serial s
  | .removeNode tag addr => Sys2Proof.Machine.execRemoveNode tag addr s
  | .readNode tag addr => Sys2Proof.Machine.execReadNode tag addr s
  | .refreshTick => Sys2Proof.Machine.execRefreshTick s
  | .defineChannel tag num node index kind rated cls floor preset => Sys2Proof.Machine.execDefineChannel tag num node index kind rated cls floor preset s
  | .removeChannel tag num => Sys2Proof.Machine.execRemoveChannel tag num s
  | .setLevel tag num level fade => Sys2Proof.Machine.execSetLevel tag num level fade s
  | .readChannel tag num first => Sys2Proof.Machine.execReadChannel tag num first s
  | .defineScene tag payload => Sys2Proof.Machine.execDefineScene tag payload s
  | .scenePart tag payload => Sys2Proof.Machine.execScenePart tag payload s
  | .removeScene tag scene => Sys2Proof.Machine.execRemoveScene tag scene s
  | .readScene tag scene first => Sys2Proof.Machine.execReadScene tag scene first s
  | .takeScene tag scene => Sys2Proof.Machine.execTakeScene tag scene s
  | .setBinding tag slot trigKind trig actKind act => Sys2Proof.Machine.execSetBinding tag slot trigKind trig actKind act s
  | .clearBinding tag slot => Sys2Proof.Machine.execClearBinding tag slot s
  | .readBinding tag slot first => Sys2Proof.Machine.execReadBinding tag slot first s
  | .setSupply tag limit base source => Sys2Proof.Machine.execSetSupply tag limit base source s
  | .setAllocation tag margin hysteresis => Sys2Proof.Machine.execSetAllocation tag margin hysteresis s
  | .readAllocation tag => Sys2Proof.Machine.execReadAllocation tag s
  | .reviewTimerExpiry => Sys2Proof.Machine.execReviewTimerExpiry s
  | .inrushExpiry motor => Sys2Proof.Machine.execInrushExpiry motor s
  | .sweep raw => Sys2Proof.Machine.execSweep raw s
  | .setSense tag input low high lowLimit highLimit hysteresis => Sys2Proof.Machine.execSetSense tag input low high lowLimit highLimit hysteresis s
  | .readSense tag selector => Sys2Proof.Machine.execReadSense tag selector s
  | .deckSwitchEvent sw active => Sys2Proof.Machine.execDeckSwitchEvent sw active s
  | .setHpu tag figures => Sys2Proof.Machine.execSetHpu tag figures s
  | .setMover tag resource angle1 angle2 angle3 timeout => Sys2Proof.Machine.execSetMover tag resource angle1 angle2 angle3 timeout s
  | .move tag resource target => Sys2Proof.Machine.execMove tag resource target s
  | .hpuReadyTimeout => Sys2Proof.Machine.execHpuReadyTimeout s
  | .runOnExpiry => Sys2Proof.Machine.execRunOnExpiry s
  | .travelTimeout mover => Sys2Proof.Machine.execTravelTimeout mover s
  | .moverSettleExpiry mover => Sys2Proof.Machine.execMoverSettleExpiry mover s
  | .clearFault tag resource => Sys2Proof.Machine.execClearFault tag resource s
  | .stopMotion tag resource => Sys2Proof.Machine.execStopMotion tag resource s
  | .readDeck tag selector => Sys2Proof.Machine.execReadDeck tag selector s
  | .setWindlass tag figures => Sys2Proof.Machine.execSetWindlass tag figures s
  | .gypsyStep dir => Sys2Proof.Machine.execGypsyStep dir s
  | .gypsyDecodeError => Sys2Proof.Machine.execGypsyDecodeError s
  | .gypsyIndex => Sys2Proof.Machine.execGypsyIndex s
  | .homeSwitchEvent active => Sys2Proof.Machine.execHomeSwitchEvent active s
  | .payOutTo tag target => Sys2Proof.Machine.execPayOutTo tag target s
  | .heaveTo tag target => Sys2Proof.Machine.execHeaveTo tag target s
  | .heaveHome tag => Sys2Proof.Machine.execHeaveHome tag s
  | .setRode tag length => Sys2Proof.Machine.execSetRode tag length s
  | .deadbandExpiry => Sys2Proof.Machine.execDeadbandExpiry s
  | .brakeTimerExpiry => Sys2Proof.Machine.execBrakeTimerExpiry s
  | .stage2DelayExpiry => Sys2Proof.Machine.execStage2DelayExpiry s
  | .jamTimeout => Sys2Proof.Machine.execJamTimeout s
  | .windlassSettleExpiry => Sys2Proof.Machine.execWindlassSettleExpiry s
  | .confirmExpiry resource => Sys2Proof.Machine.execConfirmExpiry resource s
  | .setStationMap tag addr codes => Sys2Proof.Machine.execSetStationMap tag addr codes s
  | .readStation tag addr => Sys2Proof.Machine.execReadStation tag addr s

end Sys2Proof.Machine
end

