-- ==== Sys2Proof/Machine/Idle.lean ====
section
/-!
DEFINITION. What the part does when no command waits (notes/assumptions/2.md).
-/

namespace Sys2Proof.Machine

/-- With no command waiting, a request the link port has handed over is served by its owning block, through the meaning
`run` of its command (R173, R174); with none handed over, one ms passes on the uptime counter (section 3.3 of the scope
file; DESIGN CHOICE, unsafe, notes/assumptions/2.md). -/
def State.idle (s : State) (run : Instr → State → Outcome) : Outcome :=
  match s.link.handed with
  | some i => run i s
  | none => .next { s with uptime := s.uptime + 1 }

end Sys2Proof.Machine
end

