-- ==== Sys2Proof/Safety.lean ====
section
/-!
DEFINITION. The laws the manual states over the whole part, as predicates on a state, and the words claims are written in: the
requests of each column of R183's table, the reply made to a request, and the bounds a state keeps.
-/

namespace Sys2Proof.Machine

/-! ## Words for claims -/

/-- The state once the reply to a request of a kind has been made (R174). -/
def State.replied (s : State) (kind tag : Byte) (st : Status) (d : ReplyData := .none) : State :=
  s.onLink fun l => l.answer kind tag st d

/-- The edits of CONFIG: accepted in CONFIG only, and refused with BUSY while a save runs (the table of R183). -/
def configEdits : Instr → Bool
  | .setRoomline _ _ _ _ | .declareNode _ _ _ _ | .removeNode _ _ | .defineChannel _ _ _ _ _ _ _ _ _ | .removeChannel _ _
  | .setAllocation _ _ _ | .setSense _ _ _ _ _ _ _ | .setHpu _ _ | .setMover _ _ _ _ _ _ | .setWindlass _ _
  | .setStationMap _ _ _ | .loadSettings _ | .defaults _ => true
  | _ => false

/-- The requests accepted in RUN only (the table of R183). -/
def runOnly : Instr → Bool
  | .stop _ | .setLevel _ _ _ _ | .takeScene _ _ | .move _ _ _ | .payOutTo _ _ | .heaveTo _ _ | .heaveHome _ => true
  | _ => false

/-- The requests of every mode that answer BUSY first of all while a save runs (R69, R70, R72, R82, R83, R182). -/
def saveWaits : Instr → Bool
  | .defineScene _ _ | .scenePart _ _ | .removeScene _ _ | .setBinding _ _ _ _ _ _ | .clearBinding _ _ | .restart _ => true
  | _ => false

/-- A watch with a time limit at a sweep: idle where its condition fails; started at the first sweep at which it holds; and reaching
its time, which leaves it idle, at the first at least the limit after its start (R123, R154). `w` and `w'` are its start time before
and after the sweep, absent while it is idle. -/
def WatchAt (now : Uptime) (holds : Prop) (limit : Nat) (w w' : Option Uptime) (trips : Prop) : Prop :=
  (¬ holds → w' = none ∧ ¬ trips)
    ∧ (holds → w = none → w' = some now ∧ ¬ trips)
    ∧ ∀ t, holds → w = some t →
      (limit ≤ (now - t).toNat → w' = none ∧ trips) ∧ ((now - t).toNat < limit → w' = some t ∧ ¬ trips)

/-- A windlass stopped at a moment with a cause: STOPPING, every output de-energised, the settle timer at 300 ms and the brake, jam and
stage-2 delay timers stopped, and both watches idle (R153, R154). -/
def Windlass.StoppedAt (w : Windlass) (now : Uptime) (c : Cause) : Prop :=
  w.state = .stopping ∧ w.stopCause = some c ∧ w.payOut = false ∧ w.heave = false ∧ w.stage2 = false ∧ w.brakeRelease = false
    ∧ w.settleTimer = some (now + 300) ∧ w.brakeTimer = none ∧ w.jamTimer = none ∧ w.delayTimer = none
    ∧ w.overWatch = none ∧ w.lowWatch = none

/-- What it comes to that a run asks for stage 2: its asked flag is set; with an end distance not above the slow zone's counts nothing
more is done, and otherwise a stage admission of G2 is made, and on a grant STAGE2 closes (R152). -/
def State.Stage2Asked (s t : State) (r : Run) : Prop :=
  ∀ u : State, u = (s.onWindlass fun w => { w with run := some { r with asked := true } }) →
    (∀ d, s.windlass.endDistance r = some d → d ≤ s.windlass.toCounts s.windlass.settings.slowZone → t = u)
      ∧ (s.windlass.endDistance r = none ∨ (∃ d, s.windlass.endDistance r = some d ∧ s.windlass.toCounts s.windlass.settings.slowZone < d) →
        ∀ a granted, u.stageAdmission s.windlass.settings.g2 = (a, granted) →
          t = if granted then a.onWindlass fun w => { w with stage2 := true } else a)

/-- A mover stopped in MOVING at a moment with a cause: SETTLING, both valves closed, the settle timer at 500 ms and the travel timer
stopped (R132, R133). -/
def Mover.StoppedAt (r : Mover) (now : Uptime) (c : Cause) : Prop :=
  r.state = .settling ∧ r.stopCause = some c ∧ r.raise = false ∧ r.lower = false ∧ r.settleTimer = some (now + 500)
    ∧ r.travelTimer = none

/-- A stop with a cause has reached an owned resource: a MOVING mover settles and a windlass under way enters STOPPING with the cause, the
record's stop-delivered flag set; a waiting mover returns to rest with its record NONE; a resource in another state stands, but for the
flag (R133, R153, R163). -/
def State.StopReached (s t : State) (r : Resource) (c : Cause) : Prop :=
  (∀ m, r = moverResource m →
    ((s.mover m).state = .moving → (t.mover m).StoppedAt s.uptime c ∧ t.ownerOf r = { s.ownerOf r with stopDelivered := true })
    ∧ ((s.mover m).state = .waitPump → (t.mover m).state = .atRest ∧ (t.mover m).motion = none ∧ t.ownerOf r = {})
    ∧ ((s.mover m).state ≠ .moving → (s.mover m).state ≠ .waitPump →
      t.mover m = s.mover m ∧ t.ownerOf r = { s.ownerOf r with stopDelivered := true }))
  ∧ (r = .windlass → t.windlassOwner = { s.windlassOwner with stopDelivered := true }
    ∧ (s.windlass.underWay = true → t.windlass.StoppedAt s.uptime c) ∧ (s.windlass.underWay = false → t.windlass = s.windlass))

/-- A resource and its record stand. -/
def State.Untouched (s t : State) (r : Resource) : Prop :=
  t.ownerOf r = s.ownerOf r ∧ (∀ m, r = moverResource m → t.mover m = s.mover m) ∧ (r = .windlass → t.windlass = s.windlass)

/-- The pump in FAULT by a cause from a state in which it ran, and its movers with it: its contactor open, its grant released, HPU_FAULT
posted, a MOVING holder stopped with cause HPU_FAULT, and movers that wait returned to rest with their records NONE (R123). -/
def State.PumpFaulted (s t : State) (c : Cause) : Prop :=
  t.hpu.state = .fault ∧ t.hpu.fault = some ⟨c, 0⟩ ∧ t.hpu.contactor = false ∧ t.hpu.holder = none ∧ t.hpu.waiting = none
    ∧ t.hpu.readyTimer = none ∧ t.hpu.runOnTimer = none ∧ t.alloc.hpuGrant = none
    ∧ (s.link.notices.length < 31 →
      ⟨.hpuFault, 4, BitVec.ofNat 8 c.code :: leSigned 2 s.pressure, s.uptime⟩ ∈ t.link.notices)
    ∧ (∀ m, s.hpu.holder = some m → s.hpu.waiting ≠ some m → (s.mover m).state = .moving → (t.mover m).StoppedAt s.uptime .hpuFault)
    ∧ (∀ m, s.hpu.holder = some m → s.hpu.waiting ≠ some m → (s.mover m).state = .settling → t.mover m = s.mover m)
    ∧ ∀ m, s.hpu.holder = some m ∧ (s.mover m).state = .waitPump ∨ s.hpu.waiting = some m →
      (t.mover m).state = .atRest ∧ (t.mover m).motion = none ∧ t.ownerOf (moverResource m) = {}

/-- The pump is left with neither holder nor waiter: it is in RUN_ON with its run-on timer started, or, in STOPPING or with a run-on of 0, OFF
with its contactor open and its grant released (R121, R122, R137). -/
def State.PumpIdled (s t : State) : Prop :=
  (s.mode ≠ .stopping → s.hpu.settings.runOn ≠ 0 → t = s.onHpu fun h =>
      { h with state := .runOn, holder := none, readyTimer := none, runOnTimer := some (s.uptime + BitVec.ofNat 32 h.settings.runOn) })
    ∧ (s.mode = .stopping ∨ s.hpu.settings.runOn = 0 → t = State.releaseGrant (s.onHpu fun h =>
      { h with state := .off, contactor := false, holder := none, waiting := none, readyTimer := none, runOnTimer := none
               overWatch := none }) .hpu)

/-- The pump's holder has ended its SETTLING and the pump is handed over: to the mover in the wait slot, which enters MOVING, where its
interlock passes; where it fails that mover returns to rest with MOTION_STOPPED, cause INTERLOCK, and the pump is left idle, as it is
with no mover waiting. A pump in FAULT only loses its holder (R122, R126). -/
def State.HandedOver (s t : State) : Prop :=
  (s.hpu.state = .fault → t = s.onHpu fun h => { h with holder := none })
    ∧ (s.hpu.state ≠ .fault →
      (s.hpu.waiting = none → s.PumpIdled t)
      ∧ ∀ w, s.hpu.waiting = some w →
        (s.motionInterlock w = true → t = State.onMover
            (s.onHpu fun h => { h with state := .ready, holder := some w, waiting := none, readyTimer := none, runOnTimer := none }) w
            fun r => { r with
              state := .moving, raise := r.motion.any (·.dir.raises), lower := !r.motion.any (·.dir.raises)
              travelTimer := some (s.uptime + BitVec.ofNat 32 r.settings.timeout), stall := none
              motion := r.motion.map fun k => { k with startAngle := some (s.angle w) } })
        ∧ (s.motionInterlock w = false → ∀ u : State,
          u = State.onOwner
            { (s.onHpu fun h => { h with holder := none, waiting := none }).onMover w fun r => { r with state := .atRest, motion := none } with
              link := s.link.post ⟨.motionStopped, match w with | .hatch => 1 | .platform => 2,
                9 :: BitVec.ofNat 8 (s.mover w).position.code :: leSigned 2 (s.angle w), s.uptime⟩ }
            (moverResource w) (fun _ => {}) →
          u.PumpIdled t))

/-- The Roomline queue takes one more entry: the bus is out of RECOVERY and the queue holds fewer than sixteen (R17, R18). -/
def State.QueueRoom (s : State) : Prop := s.bus.state ≠ .recovery ∧ s.bus.queue.length < 16

/-- An enrolment of an address has failed with a reason code and a reported type code: ENROL_FAILED is posted and the hold is cleared. In RUN
and STOPPING a DECLARED record enters IDENTIFY and asks for one, one that waits starts its retry timer afresh, and one in SETUP goes
back to LOST or IDENTIFY (R43). -/
def State.EnrolFailed (s t : State) (a code reported : Nat) : Prop :=
  ∀ (u : State) (upd : (NodeRecord → NodeRecord) → List NodeRecord),
    u = { s with enrolment := none
                 link := s.link.post ⟨.enrolFailed, a, [BitVec.ofNat 8 code, BitVec.ofNat 8 reported], s.uptime⟩ } →
    (∀ f, upd f = s.nodes.map fun n => if n.addr = a then { f n with enrolHold := false } else n) →
      (s.node a = none → t = u)
      ∧ ∀ r, s.node a = some r →
        (s.mode = .config ∨ r.state = .active → t = { u with nodes := upd id })
        ∧ (s.mode ≠ .config →
          (r.state = .identify ∨ r.state = .lost ∨ r.state = .mismatch → t = { u with
              nodes := upd fun n => { n with retryTimer := some (s.uptime + (if n.state = .mismatch then 5000 else 1000)) } })
          ∧ ((∃ step, r.state = .setup step) → t = { u with nodes := upd fun n =>
              { n with state := if n.returnFlag then .lost else .identify, retryTimer := some (s.uptime + 1000) } })
          ∧ (r.state = .declared → s.QueueRoom → t = { u with
              nodes := upd fun n => { n with state := .identify, retryTimer := none, pollTimer := none }
              bus := { s.bus with queue := s.bus.queue ++ [⟨.c, .identify, a, none, s.uptime, false, false, false, false⟩] } })
          ∧ (r.state = .declared → ¬ s.QueueRoom → t = { u with
              nodes := upd fun n => { n with state := .identify, retryTimer := some (s.uptime + 1000), pollTimer := none } }))

/-- An enrolment at a step has asked for its transaction: an IDENTIFY to 120, an ASSIGN to 120 or an IDENTIFY to the new address joins the
queue, in every mode; a full queue is asked again 100 ms later, and a bus in RECOVERY fails the operation (R41, R42). -/
def State.EnrolAsked (s t : State) (e : Enrolment) : Prop :=
  (s.QueueRoom → ∀ x : Entry,
    (e.phase = .search → x = ⟨.c, .identify, 120, none, s.uptime, false, false, false, true⟩) →
    (e.phase = .assign → x = ⟨.c, .assign, 120, some (e.addr, e.serial), s.uptime, false, false, false, true⟩) →
    (e.phase = .confirm → x = ⟨.c, .identify, e.addr, none, s.uptime, false, false, false, true⟩) →
      t = { s with enrolment := some { e with retryTimer := none }, bus := { s.bus with queue := s.bus.queue ++ [x] } })
  ∧ (s.bus.state ≠ .recovery → 16 ≤ s.bus.queue.length →
    t = { s with enrolment := some { e with retryTimer := some (s.uptime + 100) } })
  ∧ (s.bus.state = .recovery → s.EnrolFailed t e.addr (if e.phase = .search then 5 else 4) e.reported)

/-- An enrolment has updated the table: the record takes serial and firmware revision and loses its hold, or a new one, with the key map of a
STATION, stands in the held place; ENROL_DONE is posted; and in RUN and STOPPING the record enters IDENTIFY and asks for one, a new record
with outputs with its adoption pending (R42, R160). -/
def State.Enrolled (s t : State) (e : Enrolment) : Prop :=
  ∀ (link : Link) (asked : Bus),
    link = s.link.post ⟨.enrolDone, e.addr, BitVec.ofNat 8 e.type.code :: leBytes 4 e.serial.toNat, s.uptime⟩ →
    asked = { s.bus with queue := s.bus.queue ++ [⟨.c, .identify, e.addr, none, s.uptime, false, false, false, false⟩] } →
    (∀ r, s.node e.addr = some r → ∀ upd : (NodeRecord → NodeRecord) → List NodeRecord,
      (∀ f, upd f = s.nodes.map fun n => if n.addr = e.addr then
        { f n with serial := e.serial, firmware := e.firmware, enrolHold := false } else n) →
      (s.mode = .config → t = { s with enrolment := none, nodes := upd id, link := link })
      ∧ (s.mode ≠ .config → s.QueueRoom → t = { s with
          enrolment := none, nodes := upd fun n => { n with state := .identify, retryTimer := none, pollTimer := none }
          bus := asked, link := link })
      ∧ (s.mode ≠ .config → ¬ s.QueueRoom → t = { s with
          enrolment := none, link := link
          nodes := upd fun n => { n with state := .identify, retryTimer := some (s.uptime + 1000), pollTimer := none } }))
    ∧ (s.node e.addr = none → ∀ (new : NodeRecord) (outputs : Bool),
      new = { addr := e.addr, type := e.type, serial := e.serial, firmware := e.firmware } →
      outputs = decide (e.type = .dimmer4 ∨ e.type = .switch8 ∨ e.type = .blind2) →
      t.enrolment = none ∧ t.link = link ∧ (∀ b, b ≠ e.addr → t.node b = s.node b)
      ∧ (e.type = .station → t.station e.addr = some { addr := e.addr } ∧ ∀ b, b ≠ e.addr → t.station b = s.station b)
      ∧ (e.type ≠ .station → t.stations = s.stations)
      ∧ { t with nodes := s.nodes, stations := s.stations, bus := s.bus, link := s.link, enrolment := s.enrolment } = s
      ∧ (s.mode = .config → t.node e.addr = some new ∧ t.bus = s.bus)
      ∧ (s.mode ≠ .config → s.QueueRoom →
        t.node e.addr = some { new with state := .identify, adoptionPending := outputs } ∧ t.bus = asked)
      ∧ (s.mode ≠ .config → ¬ s.QueueRoom →
        t.node e.addr = some { new with state := .identify, adoptionPending := outputs, retryTimer := some (s.uptime + 1000) }
          ∧ t.bus = s.bus))

/-- What START leaves, but for the link port: RUN, every channel untouched, unsent and at its full ceiling, no class shed, no grant,
the refresh timer and the review timer started, and the sample window empty; adoption pending is set on every record with outputs;
and every DECLARED record that no enrolment holds is in IDENTIFY and has asked for one, by its address: as many of them as the queue
has places joined it, and the others' retry timers run for 1,000 ms (R28, R57, R187). The queue is named but for LAMPS, which a change of
lamps may ask for. -/
def State.StartedAs (s t : State) : Prop :=
  { t with nodes := s.nodes, bus := s.bus, link := s.link, uptime := s.uptime, bootTimer := s.bootTimer } =
      { s with
        mode := .run
        channels := s.channels.map fun c =>
          { c with untouched := true, lastSent := none, ceiling := 1000, fade := none, staged := none }
        refresh := some (t.uptime + 20)
        alloc := { s.alloc with classes := .replicate 8 .normal, hpuGrant := none, windlassGrant := none, overLimit := 0
                                reviewTimer := some (t.uptime + 500) }
        sense := { s.sense with window := [] } }
    ∧ { t.bus with queue := s.bus.queue } = s.bus
    ∧ ∀ (enters outputs : NodeRecord → Bool) (room : Nat) (asked : List Nat),
      (∀ r, enters r = true ↔ r.state = .declared ∧ r.enrolHold = false) →
      (∀ r, outputs r = true ↔ r.type = .dimmer4 ∨ r.type = .switch8 ∨ r.type = .blind2) →
      room = (if s.bus.state = .recovery then 0 else 16 - s.bus.queue.length) →
      asked = ((s.nodes.filter enters).map (·.addr)).take room →
        t.nodes = (s.nodes.map fun r => if enters r then
            { r with state := .identify, misses := 0, held := 0, returnFlag := false, pollTimer := none
                     adoptionPending := r.adoptionPending || outputs r
                     retryTimer := if r.addr ∈ asked then none else some (t.uptime + 1000) }
          else { r with adoptionPending := r.adoptionPending || outputs r })
        ∧ t.bus.queue.filter (fun e => e.kind ≠ .lamps) = s.bus.queue.filter (fun e => e.kind ≠ .lamps)
          ++ asked.map fun a => ⟨.c, .identify, a, none, t.uptime, false, false, false, false⟩

/-! ## Bounds and laws -/

/-- The queues and counts of the link port lie within their bounds (R172, R173, R176). -/
def Link.Bounded (l : Link) : Prop :=
  l.requests.length ≤ 4 ∧ l.fullReplies.length ≤ 4 ∧ l.notices.length ≤ 32 ∧ l.overflow ≤ 255
    ∧ l.gapErrors ≤ 65535 ∧ l.crcErrors ≤ 65535 ∧ l.framingErrors ≤ 65535

/-- The sample window holds at most eight samples, and the sample phase is 0..4 (R109). -/
def Sense.Bounded (u : Sense) : Prop := u.window.length ≤ 8 ∧ u.phase ≤ 4

/-- The outbound transaction queue holds at most sixteen entries; at most one is in flight, and only while the bus is OWN; and
in RECOVERY it is empty (R10, R14, R17). -/
def Bus.Bounded (b : Bus) : Prop :=
  b.queue.length ≤ 16 ∧ (b.queue.filter (·.inFlight)).length ≤ 1 ∧ (b.state ≠ .own → ∀ e ∈ b.queue, e.inFlight = false)
    ∧ (b.state = .recovery → b.queue = [])

/-- A mover never energises both of its valves, and none outside MOVING (R127). -/
def Mover.ValvesSafe (r : Mover) : Prop :=
  ¬ (r.raise = true ∧ r.lower = true) ∧ (r.state ≠ .moving → r.raise = false ∧ r.lower = false)

/-- The classes in state SHED form one range up to class 7, class 0 is NORMAL, and at most the class directly below the
range is RESTORING (R89): for some class `k`, every class above `k` is SHED, class `k` is not, and every class below `k` is NORMAL. -/
def State.ClassLaw (s : State) : Prop :=
  ∃ k : Nat, k ≤ 7 ∧ (∀ j, k < j → j ≤ 7 → s.classState j = .shed) ∧ s.classState k ≠ .shed
    ∧ (∀ j, j < k → s.classState j = .normal) ∧ s.classState 0 = .normal

/-- The law of the hatch, the platform and the pump (R119 to R127, R133, R134, R158, R159, R185). -/
structure State.DeckLaw (s : State) : Prop where
  /-- The pump's contactor is closed in STARTING, READY and RUN_ON alone (R120 to R123). -/
  contactor : s.hpu.contactor = true ↔ s.hpu.state = .starting ∨ s.hpu.state = .ready ∨ s.hpu.state = .runOn
  /-- A pump with its contactor closed holds a grant (R120, R122, R123). -/
  granted : s.hpu.contactor = true → s.alloc.hpuGrant.isSome = true
  /-- A pump that is OFF, in FAULT or in RUN_ON has neither holder nor waiter (R122, R123). -/
  unheld : s.hpu.state ≠ .starting → s.hpu.state ≠ .ready → s.hpu.holder = none ∧ s.hpu.waiting = none
  /-- The run-on timer runs in RUN_ON alone (R122). -/
  runOn : s.hpu.runOnTimer.isSome = true → s.hpu.state = .runOn
  /-- The holder of a STARTING pump waits for it, and that of a READY pump is MOVING or SETTLING (R121, R122). -/
  holder : ∀ m, s.hpu.holder = some m →
    (s.hpu.state = .starting → (s.mover m).state = .waitPump)
      ∧ (s.hpu.state = .ready → (s.mover m).state = .moving ∨ (s.mover m).state = .settling)
  /-- The mover in the wait slot waits for the pump and is not its holder (R122). -/
  waiter : ∀ m, s.hpu.waiting = some m → (s.mover m).state = .waitPump ∧ s.hpu.holder ≠ some m
  /-- A MOVING mover is the holder of a READY pump (R126, R127). -/
  moving : ∀ m, (s.mover m).state = .moving → s.hpu.state = .ready ∧ s.hpu.holder = some m
  /-- At most one valve of a mover is energised, and none outside MOVING (R127). -/
  valves : ∀ m, (s.mover m).ValvesSafe
  /-- The travel timer runs in MOVING alone and the settle timer in SETTLING alone (R126, R132 to R134). -/
  timers : ∀ m, ((s.mover m).travelTimer.isSome = true → (s.mover m).state = .moving)
    ∧ ((s.mover m).settleTimer.isSome = true → (s.mover m).state = .settling)
  /-- A mover with no owner is at rest or in FAULT (R159). -/
  unowned : ∀ m, (s.ownerOf (moverResource m)).owner = .none → (s.mover m).state = .atRest ∨ (s.mover m).state = .fault
  /-- In CONFIG the pump's contactor is open and the movers are at rest or in FAULT (R185, R188). -/
  config : s.mode = .config →
    s.hpu.contactor = false ∧ ∀ m, (s.mover m).state = .atRest ∨ (s.mover m).state = .fault

/-- The law of the windlass (R139, R146, R150 to R153, R159, R185). -/
structure State.WindlassLaw (s : State) : Prop where
  /-- PAY_OUT and HEAVE are never closed together (R139, R146). -/
  oneWay : ¬ (s.windlass.payOut = true ∧ s.windlass.heave = true)
  /-- STAGE2 and BRAKE_RELEASE are energised only while a direction contactor is closed (R150, R152, R153). -/
  behind : s.windlass.stage2 = true ∨ s.windlass.brakeRelease = true → s.windlass.contactorClosed = true
  /-- A direction contactor is closed only in STARTING and RUNNING, and always in RUNNING (R150, R153). -/
  closed : (s.windlass.contactorClosed = true → s.windlass.underWay = true)
    ∧ (s.windlass.state = .running → s.windlass.contactorClosed = true)
  /-- A windlass in STARTING or RUNNING holds a grant (R150). -/
  granted : s.windlass.underWay = true → s.alloc.windlassGrant.isSome = true
  /-- The brake timer runs in STARTING with a contactor closed, the stage-2 delay in RUNNING, and the settle timer in STOPPING
  (R150, R152, R153). -/
  timers : (s.windlass.brakeTimer.isSome = true → s.windlass.state = .starting ∧ s.windlass.contactorClosed = true)
    ∧ (s.windlass.delayTimer.isSome = true → s.windlass.state = .running)
    ∧ (s.windlass.settleTimer.isSome = true → s.windlass.state = .stopping)
  /-- A windlass with no owner is IDLE or in FAULT (R159). -/
  unowned : s.windlassOwner.owner = .none → s.windlass.state = .idle ∨ s.windlass.state = .fault
  /-- In CONFIG the windlass is IDLE or in FAULT (R185, R188). -/
  config : s.mode = .config → s.windlass.state = .idle ∨ s.windlass.state = .fault

/-- A list of keys strictly rises. -/
def Rising (keys : List Nat) : Prop := keys.Pairwise (· < ·)

/-- The tables of a stored image are in ascending order of their keys, with no key twice (R190). -/
def Image.Ordered (m : Image) : Prop :=
  Rising (m.nodes.map (·.1)) ∧ Rising (m.channels.map (·.num)) ∧ Rising (m.scenes.map (·.num))
    ∧ Rising (m.bindings.map (·.1)) ∧ Rising (m.maps.map (·.1))

/-- Every table is in ascending order of its keys, with no key twice, and so is every image the store holds (R26, R47, R67,
R77, R160). -/
def State.Ordered (s : State) : Prop :=
  Rising (s.nodes.map (·.addr)) ∧ Rising (s.channels.map (·.cfg.num)) ∧ Rising (s.scenes.map (·.num))
    ∧ Rising (s.bindings.map (·.slot)) ∧ Rising (s.stations.map (·.addr))
    ∧ (∀ m, s.store.image = some m → m.Ordered) ∧ (∀ m, s.store.saving = some m → m.Ordered)

end Sys2Proof.Machine
end

