-- ==== Sys2Proof/WellFormed.lean ====
section
/-!
DEFINITION. Which commands are well formed: every operand lies within what its field can hold. A request's fields are as
wide as R184 lays them out, and an event's operands lie within what the part can be shown. Well-formed operands may still be
refused: the ranges a request is refused outside of are its owning block's.
-/

namespace Sys2Proof

/-- Whether a value fits an unsigned field of a number of bytes. -/
def fits (bytes value : Nat) : Bool := value < 256 ^ bytes

/-- Whether a value fits a two's complement field of a number of bytes (R171). -/
def fitsSigned (bytes : Nat) (value : Int) : Bool := -(256 ^ bytes : Int) ≤ 2 * value ∧ 2 * value < 256 ^ bytes

/-- The figures of SET_HPU fit their fields (R184). -/
def hpuFits (f : HpuSettings) : Bool :=
  fits 4 f.rated && fits 4 f.inrush && fits 2 f.inrushWindow && fits 2 f.readyPressure && fits 2 f.readyLimit
    && fits 2 f.overpressure && fits 2 f.overTime && fits 2 f.stallPressure && fits 4 f.runOn

/-- The figures of SET_WINDLASS fit their fields (R184). -/
def windlassFits (f : WindlassSettings) : Bool :=
  fits 2 f.countsPerRev && fits 2 f.mmPerRev && fits 1 f.slipTol && fits 4 f.maxRode && fits 2 f.slowZone && fits 2 f.stopBand
    && fits 4 f.g1 && fits 4 f.g2 && fits 4 f.inrush && fits 2 f.inrushWindow && fits 2 f.overCurrent && fits 2 f.overTime
    && fits 2 f.jamTime && fits 2 f.homeLimit && fits 2 f.stage2Delay

/-- Whether a command is well formed. -/
def Instr.wf : Instr → Bool
  | .readNotices _ wanted => fits 1 wanted
  | .setSupervision _ period => fits 2 period
  | .saveSettings _ flag => fits 1 flag
  | .setRoomline _ rate silence fallback => fits 1 rate && fits 1 silence && fits 1 fallback
  | .keyReport bytes => bytes.length ≤ 20
  | .transactionEnd answer => answer.reply.length ≤ 18
  | .nodeRetryExpiry addr => 1 ≤ addr && addr ≤ 119
  | .pollExpiry addr => 1 ≤ addr && addr ≤ 119
  | .enrolNode _ addr type => fits 1 addr && fits 1 type
  | .declareNode _ addr type _ => fits 1 addr && fits 1 type
  | .removeNode _ addr => fits 1 addr
  | .readNode _ addr => fits 1 addr
  | .defineChannel _ num node index kind rated cls floor preset =>
    fits 1 num && fits 1 node && fits 1 index && fits 1 kind && fits 2 rated && fits 1 cls && fits 2 floor && fits 2 preset
  | .removeChannel _ num => fits 1 num
  | .setLevel _ num level fade => fits 1 num && fits 2 level && fits 4 fade
  | .readChannel _ num first => fits 1 num && fits 1 first
  | .defineScene _ payload => payload.length ≤ 248
  | .scenePart _ payload => payload.length ≤ 248
  | .removeScene _ scene => fits 1 scene
  | .readScene _ scene first => fits 1 scene && fits 1 first
  | .takeScene _ scene => fits 1 scene
  | .setBinding _ slot trigKind trig actKind act =>
    fits 1 slot && fits 1 trigKind && decide (trig.length = 3) && fits 1 actKind && decide (act.length = 7)
  | .clearBinding _ slot => fits 1 slot
  | .readBinding _ slot first => fits 1 slot && fits 1 first
  | .setSupply _ limit base source => fits 4 limit && fits 4 base && fits 1 source
  | .setAllocation _ margin hysteresis => fits 2 margin && fits 2 hysteresis
  | .setSense _ input low high lowLimit highLimit hysteresis =>
    fits 1 input && fitsSigned 2 low && fitsSigned 2 high && fitsSigned 2 lowLimit && fitsSigned 2 highLimit
      && fits 2 hysteresis
  | .readSense _ selector => fits 1 selector
  | .setHpu _ figures => hpuFits figures
  | .setMover _ resource a1 a2 a3 timeout =>
    fits 1 resource && fitsSigned 2 a1 && fitsSigned 2 a2 && fitsSigned 2 a3 && fits 4 timeout
  | .move _ resource target => fits 1 resource && fits 1 target
  | .clearFault _ resource => fits 1 resource
  | .stopMotion _ resource => fits 1 resource
  | .readDeck _ selector => fits 1 selector
  | .setWindlass _ figures => windlassFits figures
  | .payOutTo _ target => fitsSigned 4 target
  | .heaveTo _ target => fitsSigned 4 target
  | .setRode _ length => fits 4 length
  | .setStationMap _ addr codes => fits 1 addr && decide (codes.length = 6) && codes.all (fits 1)
  | .readStation _ addr => fits 1 addr
  | .stuckLineTimeout rckLow rdaLow => rckLow || rdaLow
  | .hardReset _ _ _ | .restartReset _ _ | .autoStart | .requestFrame _ | .gapTimeout | .framingError | .replySent
  | .unknownKind _ _ | .supervisionExpiry | .status _ | .linkStats _ | .restart _ | .start _ | .stop _ | .saveComplete _
  | .loadSettings _ | .defaults _ | .readRoomline _ | .openTransaction _ _ | .byteTimeout | .transactionTimeout
  | .arbitrationLost _ | .otherOpen _ | .otherClose | .overrunTimeout | .recoveryRun _ _ | .enrolRetryExpiry
  | .enrolDeferredUpdate | .refreshTick | .readAllocation _ | .reviewTimerExpiry | .inrushExpiry _ | .sweep _
  | .deckSwitchEvent _ _ | .hpuReadyTimeout | .runOnExpiry | .travelTimeout _ | .moverSettleExpiry _ | .gypsyStep _
  | .gypsyDecodeError | .gypsyIndex | .homeSwitchEvent _ | .heaveHome _ | .deadbandExpiry | .brakeTimerExpiry
  | .stage2DelayExpiry | .jamTimeout | .windlassSettleExpiry | .confirmExpiry _ => true

end Sys2Proof
end

