-- ==== Sys2Proof/Certificates/Slice0/Obligations.lean ====
section
/-!
DEFINITION. The statements for the provers. Each says what a command or the part does, by the manual's rules; its docstring says
which.
-/

open Sys2Proof Sys2Proof.Machine

/-! ## The queue of commands and the outcome of a command -/

/-- With a command at the front of the queue, a step is that command's meaning on the state with the queue's rest.

On an empty queue a request the link port has handed over is served; with none, the uptime counter counts one ms and wraps
at 2^32. That a step stands for one ms is the model's choice (notes/assumptions/2.md); the counter is section 3.3's. -/
def Obligations.StepRunsFrontCommand : Prop :=
  (∀ (i : Instr) (rest : List Instr) (s : State), s.pending = i :: rest → step s = exec i { s with pending := rest })
  ∧ (∀ s : State, s.pending = [] →
    (∀ i, s.link.handed = some i → step s = exec i s)
      ∧ (s.link.handed = none → step s = .next { s with uptime := s.uptime + 1 }))

/-- Every command completes: no command of the table faults or is refused.

Every command leaves the queue of waiting commands, and the host link's rate and the last reset cause are set by the two
resets alone. -/
def Obligations.EveryCommandCompletes : Prop :=
  (∀ (i : Instr) (s : State), ∃ t, exec i s = .next t)
  ∧ (∀ (i : Instr) (s t : State), exec i s = .next t →
    t.pending = s.pending
      ∧ ((∀ c a b, i ≠ .hardReset c a b) → (∀ a b, i ≠ .restartReset a b) →
          t.resetCause = s.resetCause ∧ t.link.rate = s.link.rate ∧ t.bootValid = s.bootValid))

/-- Every request is answered once: its command's operation leaves the receiver, the request queue and the reply path alone,
and then exactly one reply with the request's kind and tag is made. A reply whose status is neither OK nor INVALID carries
the status alone (R174).

A request that is refused changes nothing but the last-admission record, which R97 gives to every admission, and the open
scene build, which R69 to R71 close: for every other piece of state the state before the reply is the state given.

That a request given without a frame is answered all the same is the model's choice (notes/assumptions/8.md). -/
def Obligations.RequestsAnsweredOnce : Prop :=
  (∀ (i : Instr) (s : State) (kind tag : Byte), requestKey i = some (kind, tag) →
    ∃ (u : State) (st : Status) (d : ReplyData),
      exec i s = .next (u.replied kind tag st d)
        ∧ u.link.rx = s.link.rx ∧ u.link.requests = s.link.requests ∧ u.link.handed = s.link.handed
        ∧ u.link.fullReplies = s.link.fullReplies ∧ u.link.replies = s.link.replies ∧ u.link.sending = s.link.sending
        ∧ u.link.restartDue = s.link.restartDue
        ∧ (st ≠ .ok → st ≠ .invalid → d = .none))
  ∧ (∀ (i : Instr) (s : State) (kind tag : Byte), requestKey i = some (kind, tag) →
    ∃ (u : State) (st : Status) (d : ReplyData),
      exec i s = .next (u.replied kind tag st d)
        ∧ (st ≠ .ok →
            { u with alloc := { u.alloc with lastAdmission := s.alloc.lastAdmission }, build := s.build } = s
              ∧ (u.alloc.lastAdmission = s.alloc.lastAdmission ∨ st = .noBudget)
              ∧ (u.build = s.build ∨ (u.build = none ∧ (kind = 0x28 ∨ kind = 0x29)))))

/-! ## Resets (R193) -/

/-- A hard reset, or the reset that follows RESTART, with no valid image: no whole image is stored, or its stored CRC differs from
the CRC-32 over its contents, or a save was running. The state is the model's reset state, whatever the state before, but for
the waiting commands, the reset cause, the rate of the straps, and what the store holds (R182, R190, R193).

RESTART: refused with BUSY while a save runs, and otherwise answered OK, in every mode, with nothing else changed. Once that
reply has been sent nothing more is sent or served until the reset, which comes with the cause RESTART (R182).

That the state named is State.reset, with no valid image and the straps low, is the model's choice of the cases R193 gives
(notes/assumptions/1.md), and so is that no whole image stands after a save that a reset cuts off (notes/assumptions/3.md). -/
def Obligations.ResetWithoutImage : Prop :=
  (∀ (s : State) (lr1 lr0 : Bool) (held : Store),
    s.store.state = .saving ∨ (∀ m, s.store.image = some m → crc32 (Config.imageBytes m) ≠ s.store.crc) →
    held = { state := .invalid, image := if s.store.state = .saving then none else s.store.image, crc := s.store.crc
             saving := none } →
    (∀ c, exec (.hardReset c lr1 lr0) s = .next
      { State.reset with
        pending := s.pending
        resetCause := (match c with | .power => .power | .pin => .pin)
        link := { State.reset.link with rate := strapRate lr1 lr0 }
        store := held })
      ∧ exec (.restartReset lr1 lr0) s = .next
        { State.reset with
          pending := s.pending, resetCause := .restart, link := { State.reset.link with rate := strapRate lr1 lr0 }
          store := held })
  ∧ (∀ (s : State) (tag : Byte),
    (s.store.state = .saving → exec (.restart tag) s = .next (s.replied 0x05 tag .busy))
      ∧ (s.store.state ≠ .saving → exec (.restart tag) s = .next (s.replied 0x05 tag .ok))
      ∧ (∀ l : Link, l.restartDue = true → l.proceed = l))

/-- A hard reset, or the reset that follows RESTART, that finds a valid image, whose stored CRC equals the CRC-32 over its contents, builds
the configuration from it, records its cause and leaves the working state at its reset values: CONFIG, uptime 0, the store VALID, no notice, supervision off, every channel dark and at its full ceiling, no grant, every deck output
de-energised, the rode not valid, and one RELEASE in the Roomline queue (R190, R193).

The bytes under the CRC are a free value (notes/assumptions/3.md). -/
def Obligations.ResetLoadsValidImage : Prop :=
  ∀ (s : State) (m : Image) (i : Instr) (cause : ResetCause) (lr1 lr0 : Bool), s.store.image = some m →
    crc32 (Config.imageBytes m) = s.store.crc → s.store.state ≠ .saving →
    (i = .hardReset .power lr1 lr0 ∧ cause = .power) ∨ (i = .hardReset .pin lr1 lr0 ∧ cause = .pin)
      ∨ (i = .restartReset lr1 lr0 ∧ cause = .restart) →
    ∃ t, exec i s = .next t ∧ t.resetCause = cause ∧ t.configuration = m ∧ t.mode = .config ∧ t.uptime = 0 ∧ t.bootValid = true
      ∧ t.store = { state := .valid, image := some m, crc := s.store.crc, saving := none } ∧ t.bootTimer = some 30
      ∧ t.link = { rate := strapRate lr1 lr0 }
      ∧ (∀ x ∈ t.channels, x.current = 0 ∧ x.target = 0 ∧ x.ceiling = 1000 ∧ x.fade = none ∧ x.staged = none)
      ∧ (∀ r ∈ t.nodes, r.state = .declared ∧ r.misses = 0 ∧ r.held = 0)
      ∧ t.alloc.limit = 0 ∧ t.alloc.base = 0 ∧ t.alloc.hpuGrant = none ∧ t.alloc.windlassGrant = none
      ∧ t.hpu.contactor = false ∧ (∀ v, (t.mover v).raise = false ∧ (t.mover v).lower = false)
      ∧ t.windlass.contactorClosed = false ∧ t.windlass.brakeRelease = false ∧ t.windlass.stage2 = false
      ∧ t.windlass.rodeValid = false
      ∧ t.bus.queue.map (fun e => (e.kind, e.target)) = [(.release, 0)]

/-- The state right after reset meets every law the claims below say each step keeps. -/
def Obligations.ResetMeetsLaws : Prop :=
  State.reset.link.Bounded ∧ State.reset.sense.Bounded ∧ State.reset.bus.Bounded ∧ State.reset.ClassLaw
    ∧ State.reset.DeckLaw ∧ State.reset.WindlassLaw ∧ State.reset.Ordered

/-! ## Laws every step keeps -/

/-- The bounds of the link port's queues and counts are kept by every step.

The bounds of the supply sample window are kept by every step.

Every step keeps the outbound queue within sixteen entries, with at most one in flight, and none outside OWN. -/
def Obligations.BoundsKept : Prop :=
  (∀ s t : State, s.link.Bounded → step s = .next t → t.link.Bounded)
  ∧ (∀ s t : State, s.sense.Bounded → step s = .next t → t.sense.Bounded)
  ∧ (∀ s t : State, s.bus.Bounded → step s = .next t → t.bus.Bounded)

/-- Every step keeps the SHED classes one range up to class 7, with at most the class directly below it RESTORING (R89). -/
def Obligations.ClassLawKept : Prop := ∀ s t : State, s.ClassLaw → step s = .next t → t.ClassLaw

/-- Every step keeps the law of the hatch, the platform and the pump: valves only of the holder of a READY pump, the contactor
only with a grant, and nothing energised in CONFIG (R127, R185). -/
def Obligations.DeckLawKept : Prop := ∀ s t : State, s.DeckLaw → step s = .next t → t.DeckLaw

/-- Every step keeps the law of the windlass: never both contactors, stage 2 and the brake release only behind a closed contactor,
and nothing energised in CONFIG (R139, R146, R185). -/
def Obligations.WindlassLawKept : Prop := ∀ s t : State, s.WindlassLaw → step s = .next t → t.WindlassLaw

/-- Every step keeps every table in ascending order of its keys, and every image of the store with it. -/
def Obligations.TablesStayOrdered : Prop := ∀ s t : State, s.Ordered → step s = .next t → t.Ordered

/-! ## The link port (chapter 10) -/

/-- A whole frame of the form of section 10.1, with any kind, tag and payload of at most 248 bytes, is found good by a receiver
in HUNT: it restarts the supervision timer and is handed, with exactly its kind, tag and payload, to the request queue. -/
def Obligations.GoodFrameReceived : Prop :=
  ∀ (s : State) (kind tag : Byte) (payload : List Byte), payload.length ≤ 248 → s.link.rx = {} →
    exec (.requestFrame (frameBytes kind tag payload)) s
      = .next (s.onLink fun l => (l.supervise s.uptime).takeFrame kind tag payload)

/-- A frame whose two CRC bytes differ from the CRC over its length byte, kind, tag and payload is discarded and counted, and does
nothing else; so is a frame at a length byte of 0, 1 or 251..255, and a byte other than 0xA5 in HUNT is discarded uncounted.

A gap in a frame discards it and counts a gap error, and in HUNT there is no frame to cut off; a framing error is counted in
every phase, and any frame in assembly is discarded. The counts saturate at 65,535. -/
def Obligations.BrokenFramesCounted : Prop :=
  (∀ (s : State), s.link.rx = {} →
    (∀ (kind tag lo hi : Byte) (payload : List Byte), payload.length ≤ 248 →
        leBytes 2 (crc16 (BitVec.ofNat 8 (payload.length + 2) :: kind :: tag :: payload)).toNat ≠ [lo, hi] →
        exec (.requestFrame (0xA5 :: BitVec.ofNat 8 (payload.length + 2) :: kind :: tag :: payload ++ [lo, hi])) s
          = .next (s.onLink fun l => { l with crcErrors := min (l.crcErrors + 1) 65535 }))
      ∧ (∀ len : Byte, len.toNat < 2 ∨ 250 < len.toNat →
        exec (.requestFrame [0xA5, len]) s = .next (s.onLink fun l => { l with crcErrors := min (l.crcErrors + 1) 65535 }))
      ∧ (∀ b : Byte, b ≠ 0xA5 → exec (.requestFrame [b]) s = .next s))
  ∧ (∀ s : State,
    (s.link.rx.phase ≠ .hunt → exec .gapTimeout s
        = .next (s.onLink fun l => { l with rx := {}, gapErrors := min (l.gapErrors + 1) 65535 }))
      ∧ (s.link.rx.phase = .hunt → exec .gapTimeout s = .next s)
      ∧ exec .framingError s
        = .next (s.onLink fun l => { l with rx := {}, framingErrors := min (l.framingErrors + 1) 65535 }))

/-- A good frame joins a request queue that holds fewer than four; with four held it waits for a QUEUE_FULL reply of its own kind and
tag; and with four of those waiting it is discarded. While a reply is being sent nothing else happens. On an idle reply path an
empty queue's first frame is served at once: its request is handed to the owning block, or answered BAD_LENGTH.

A QUEUE_FULL reply that is being sent is one of the waiting ones until it has been sent, as the worked sequence of section 10.7
shows. -/
def Obligations.GoodFrameQueued : Prop :=
  ∀ (l : Link) (kind tag : Byte) (p : List Byte),
    (l.sending.isSome = true → l.requests.length < 4 →
        l.takeFrame kind tag p = { l with requests := l.requests ++ [⟨kind, tag, p, false⟩] })
      ∧ (l.sending.isSome = true → 4 ≤ l.requests.length → l.fullReplies.length < 4 →
        l.takeFrame kind tag p = { l with fullReplies := l.fullReplies ++ [(kind, tag)] })
      ∧ (4 ≤ l.requests.length → 4 ≤ l.fullReplies.length → l.takeFrame kind tag p = l)
      ∧ (l.sending = none → l.restartDue = false → l.handed = none → l.fullReplies = [] → l.replies = [] → l.requests = [] →
        (∀ i, parseRequest kind tag p = .command i →
            l.takeFrame kind tag p = { l with requests := [⟨kind, tag, p, false⟩], handed := some i })
          ∧ (parseRequest kind tag p = .badLength →
            l.takeFrame kind tag p =
              { l with requests := [⟨kind, tag, p, true⟩], sending := some ⟨kind ||| 0x80, tag, .badLength, .none, true⟩ }))

/-- When the reply path has sent a frame it sends the oldest waiting QUEUE_FULL reply, else the oldest reply made, else the link
port begins to serve the oldest frame not served; a frame whose reply has been sent leaves the request queue, and a QUEUE_FULL reply
leaves the waiting ones when it has been sent, not before. The reply OK to RESTART ends the sending for good. With no frame being sent
nothing happens.

That REPLY_SENT with no frame being sent, an event the state rules out, changes nothing is the model's choice
(notes/assumptions/7.md), and so are that a QUEUE_FULL reply to a frame of kind 0x80 or above keeps that kind
(notes/assumptions/37.md), and that, where several replies have been made, they are sent oldest first and a new one waits behind
them (notes/assumptions/8.md): R173 has one request served at a time, and so one reply made.

The reply made to a request: on an idle reply path, with nothing waiting, it is sent at once; while the path sends, it waits,
behind any replies made before it. Where it answers the request handed over, that frame of the request queue is served. -/
def Obligations.ReplyPathOrder : Prop :=
  (∀ s : State,
    (s.link.sending = none → exec .replySent s = .next s)
      ∧ (∀ r, s.link.sending = some r → r.kind = 0x85 → r.status = .ok →
        exec .replySent s = .next (s.onLink fun l =>
          { l with sending := none, requests := if r.queued then dropServed l.requests else l.requests, restartDue := true }))
      ∧ (∀ r waiting, s.link.sending = some r → s.link.restartDue = false → r.status ≠ .ok ∨ r.kind ≠ 0x85 →
        (r.status = .queueFull → waiting = s.link.fullReplies.drop 1) → (r.status ≠ .queueFull → waiting = s.link.fullReplies) →
        (∀ kind tag rest, waiting = (kind, tag) :: rest →
            exec .replySent s = .next (s.onLink fun l =>
              { l with requests := if r.queued then dropServed l.requests else l.requests, fullReplies := waiting
                       sending := some ⟨kind ||| 0x80, tag, .queueFull, .none, false⟩ }))
          ∧ (∀ q rest, waiting = [] → s.link.replies = q :: rest →
            exec .replySent s = .next (s.onLink fun l =>
              { l with requests := if r.queued then dropServed l.requests else l.requests, fullReplies := [], replies := rest
                       sending := some q }))
          ∧ (∀ f rest i, waiting = [] → s.link.replies = [] → s.link.handed = none →
            (if r.queued then dropServed s.link.requests else s.link.requests) = f :: rest → f.served = false →
            parseRequest f.kind f.tag f.payload = .command i →
            exec .replySent s = .next (s.onLink fun l =>
              { l with requests := f :: rest, fullReplies := [], sending := none, handed := some i }))))
  ∧ (∀ (s : State) (kind tag : Byte) (st : Status) (d : ReplyData) (i : Instr),
    s.link.handed = some i → requestKey i = some (kind, tag) →
      (s.link.sending = none → s.link.restartDue = false → s.link.fullReplies = [] → s.link.replies = [] →
        s.replied kind tag st d = s.onLink fun l =>
          { l with handed := none, requests := markServed l.requests, sending := some ⟨kind ||| 0x80, tag, st, d, true⟩ })
        ∧ (s.link.sending.isSome = true →
          s.replied kind tag st d = s.onLink fun l =>
            { l with handed := none, requests := markServed l.requests
                     replies := l.replies ++ [⟨kind ||| 0x80, tag, st, d, true⟩] }))

/-- A kind that is none of the request kinds of section 10.6 is served by UNKNOWN_KIND, which answers with that status, the kind with
its top bit set, and nothing changed; and a kind of fixed fields with another payload length is answered BAD_LENGTH.

The operands of a request are the fields of its payload in the order of the table of request payloads, each of its size, low byte first,
and two's complement where the table says signed; DEFINE_SCENE and SCENE_PART carry their whole payload (R171, R184).

Every request the link port hands to a block is well formed and carries the frame's kind and tag. -/
def Obligations.RequestsParsed : Prop :=
  ((∀ (kind tag : Byte) (p : List Byte),
      kind.toNat ∉ [0x01, 0x02, 0x03, 0x04, 0x05, 0x08, 0x09, 0x0A, 0x0B, 0x0C, 0x10, 0x11, 0x14, 0x15, 0x16, 0x17, 0x20, 0x21, 0x22,
        0x23, 0x28, 0x29, 0x2A, 0x2B, 0x2C, 0x2D, 0x2E, 0x2F, 0x30, 0x31, 0x32, 0x38, 0x39, 0x40, 0x41, 0x42, 0x43, 0x44, 0x45, 0x48,
        0x49, 0x4A, 0x4B, 0x4C, 0x50, 0x51] →
      parseRequest kind tag p = .command (.unknownKind tag kind))
    ∧ (∀ (kind tag : Byte) (s : State), exec (.unknownKind tag kind) s = .next (s.replied kind tag .unknownKind))
    ∧ (∀ e ∈ [(0x01, 0), (0x02, 1), (0x03, 0), (0x04, 2), (0x05, 0), (0x08, 0), (0x09, 0), (0x0A, 1), (0x0B, 0), (0x0C, 0), (0x10, 3),
          (0x11, 0), (0x14, 6), (0x15, 1), (0x16, 2), (0x17, 1), (0x20, 11), (0x21, 1), (0x22, 7), (0x23, 2), (0x2A, 1), (0x2B, 2),
          (0x2C, 1), (0x2D, 13), (0x2E, 1), (0x2F, 2), (0x30, 9), (0x31, 4), (0x32, 0), (0x38, 11), (0x39, 1), (0x40, 24), (0x41, 11),
          (0x42, 2), (0x43, 1), (0x44, 1), (0x45, 1), (0x48, 37), (0x49, 4), (0x4A, 4), (0x4B, 0), (0x4C, 4), (0x50, 7), (0x51, 1)],
        ∀ (tag : Byte) (p : List Byte),
          (p.length ≠ e.2 → parseRequest (BitVec.ofNat 8 e.1) tag p = .badLength)
            ∧ (p.length = e.2 → ∃ i, parseRequest (BitVec.ofNat 8 e.1) tag p = .command i ∧
                requestKey i = some (BitVec.ofNat 8 e.1, tag))))
  ∧ (∀ (tag : Byte) (u16 : Byte → Byte → Nat) (u32 : Byte → Byte → Byte → Byte → Nat) (i16 : Byte → Byte → Int)
      (i32 : Byte → Byte → Byte → Byte → Int),
    (∀ a b, u16 a b = a.toNat + 256 * b.toNat) →
    (∀ a b c d, u32 a b c d = a.toNat + 256 * b.toNat + 65536 * c.toNat + 16777216 * d.toNat) →
    (∀ a b, i16 a b = if b.toNat < 128 then (u16 a b : Int) else u16 a b - 65536) →
    (∀ a b c d, i32 a b c d = if d.toNat < 128 then (u32 a b c d : Int) else u32 a b c d - 4294967296) →
      (parseRequest 0x01 tag [] = .command (.status tag) ∧ parseRequest 0x03 tag [] = .command (.linkStats tag)
          ∧ parseRequest 0x05 tag [] = .command (.restart tag) ∧ parseRequest 0x08 tag [] = .command (.start tag)
          ∧ parseRequest 0x09 tag [] = .command (.stop tag) ∧ parseRequest 0x0B tag [] = .command (.loadSettings tag)
          ∧ parseRequest 0x0C tag [] = .command (.defaults tag) ∧ parseRequest 0x11 tag [] = .command (.readRoomline tag)
          ∧ parseRequest 0x32 tag [] = .command (.readAllocation tag) ∧ parseRequest 0x4B tag [] = .command (.heaveHome tag))
        ∧ (∀ a : Byte,
          parseRequest 0x02 tag [a] = .command (.readNotices tag a.toNat) ∧ parseRequest 0x0A tag [a] = .command (.saveSettings tag a.toNat)
            ∧ parseRequest 0x15 tag [a] = .command (.removeNode tag a.toNat) ∧ parseRequest 0x17 tag [a] = .command (.readNode tag a.toNat)
            ∧ parseRequest 0x21 tag [a] = .command (.removeChannel tag a.toNat)
            ∧ parseRequest 0x2A tag [a] = .command (.removeScene tag a.toNat) ∧ parseRequest 0x2C tag [a] = .command (.takeScene tag a.toNat)
            ∧ parseRequest 0x2E tag [a] = .command (.clearBinding tag a.toNat)
            ∧ parseRequest 0x39 tag [a] = .command (.readSense tag a.toNat) ∧ parseRequest 0x43 tag [a] = .command (.stopMotion tag a.toNat)
            ∧ parseRequest 0x44 tag [a] = .command (.clearFault tag a.toNat) ∧ parseRequest 0x45 tag [a] = .command (.readDeck tag a.toNat)
            ∧ parseRequest 0x51 tag [a] = .command (.readStation tag a.toNat))
        ∧ (∀ a b : Byte,
          parseRequest 0x04 tag [a, b] = .command (.setSupervision tag (u16 a b))
            ∧ parseRequest 0x16 tag [a, b] = .command (.enrolNode tag a.toNat b.toNat)
            ∧ parseRequest 0x23 tag [a, b] = .command (.readChannel tag a.toNat b.toNat)
            ∧ parseRequest 0x2B tag [a, b] = .command (.readScene tag a.toNat b.toNat)
            ∧ parseRequest 0x2F tag [a, b] = .command (.readBinding tag a.toNat b.toNat)
            ∧ parseRequest 0x42 tag [a, b] = .command (.move tag a.toNat b.toNat))
        ∧ (∀ a b c : Byte, parseRequest 0x10 tag [a, b, c] = .command (.setRoomline tag a.toNat b.toNat c.toNat))
        ∧ (∀ a b c d : Byte,
          parseRequest 0x31 tag [a, b, c, d] = .command (.setAllocation tag (u16 a b) (u16 c d))
            ∧ parseRequest 0x49 tag [a, b, c, d] = .command (.payOutTo tag (i32 a b c d))
            ∧ parseRequest 0x4A tag [a, b, c, d] = .command (.heaveTo tag (i32 a b c d))
            ∧ parseRequest 0x4C tag [a, b, c, d] = .command (.setRode tag (u32 a b c d)))
        ∧ (∀ a b c d e f : Byte, parseRequest 0x14 tag [a, b, c, d, e, f] =
          .command (.declareNode tag a.toNat b.toNat (BitVec.ofNat 32 (u32 c d e f))))
        ∧ (∀ a b c d e f g : Byte,
          parseRequest 0x22 tag [a, b, c, d, e, f, g] = .command (.setLevel tag a.toNat (u16 b c) (u32 d e f g))
            ∧ parseRequest 0x50 tag [a, b, c, d, e, f, g] =
              .command (.setStationMap tag a.toNat [b.toNat, c.toNat, d.toNat, e.toNat, f.toNat, g.toNat]))
        ∧ (∀ a b c d e f g h i : Byte, parseRequest 0x30 tag [a, b, c, d, e, f, g, h, i] =
          .command (.setSupply tag (u32 a b c d) (u32 e f g h) i.toNat))
        ∧ (∀ a b c d e f g h i j k : Byte,
          parseRequest 0x20 tag [a, b, c, d, e, f, g, h, i, j, k] =
              .command (.defineChannel tag a.toNat b.toNat c.toNat d.toNat (u16 e f) g.toNat (u16 h i) (u16 j k))
            ∧ parseRequest 0x38 tag [a, b, c, d, e, f, g, h, i, j, k] =
              .command (.setSense tag a.toNat (i16 b c) (i16 d e) (i16 f g) (i16 h i) (u16 j k))
            ∧ parseRequest 0x41 tag [a, b, c, d, e, f, g, h, i, j, k] =
              .command (.setMover tag a.toNat (i16 b c) (i16 d e) (i16 f g) (u32 h i j k)))
        ∧ (∀ a b c d e f g h i j k l m : Byte, parseRequest 0x2D tag [a, b, c, d, e, f, g, h, i, j, k, l, m] =
          .command (.setBinding tag a.toNat b.toNat [c, d, e] f.toNat [g, h, i, j, k, l, m]))
        ∧ (∀ p : Fin 24 → Byte, parseRequest 0x40 tag (List.ofFn p) = .command (.setHpu tag
          { rated := u32 (p 0) (p 1) (p 2) (p 3), inrush := u32 (p 4) (p 5) (p 6) (p 7), inrushWindow := u16 (p 8) (p 9)
            readyPressure := u16 (p 10) (p 11), readyLimit := u16 (p 12) (p 13), overpressure := u16 (p 14) (p 15)
            overTime := u16 (p 16) (p 17), stallPressure := u16 (p 18) (p 19), runOn := u32 (p 20) (p 21) (p 22) (p 23) }))
        ∧ (∀ p : Fin 37 → Byte, parseRequest 0x48 tag (List.ofFn p) = .command (.setWindlass tag
          { countsPerRev := u16 (p 0) (p 1), mmPerRev := u16 (p 2) (p 3), slipTol := (p 4).toNat, maxRode := u32 (p 5) (p 6) (p 7) (p 8)
            slowZone := u16 (p 9) (p 10), stopBand := u16 (p 11) (p 12), g1 := u32 (p 13) (p 14) (p 15) (p 16)
            g2 := u32 (p 17) (p 18) (p 19) (p 20), inrush := u32 (p 21) (p 22) (p 23) (p 24), inrushWindow := u16 (p 25) (p 26)
            overCurrent := u16 (p 27) (p 28), overTime := u16 (p 29) (p 30), jamTime := u16 (p 31) (p 32)
            homeLimit := u16 (p 33) (p 34), stage2Delay := u16 (p 35) (p 36) }))
        ∧ ∀ p : List Byte, parseRequest 0x28 tag p = .command (.defineScene tag p) ∧ parseRequest 0x29 tag p = .command (.scenePart tag p))
  ∧ (∀ (kind tag : Byte) (p : List Byte) (i : Instr), p.length ≤ 248 → parseRequest kind tag p = .command i →
    i.wf = true ∧ requestKey i = some (kind, tag))

/-- STATUS: in every mode the reply OK carries the mode, the last reset cause, the notice count, the overflow count, the store
state and the uptime, in their sizes and codes; no notice is removed and the overflow count stands; and each reset records its
cause. The request carries no payload: a frame of its kind with none is it, and one with any is answered BAD_LENGTH (R180). -/
def Obligations.StatusReply : Prop :=
  (∀ (tag : Byte) (p : List Byte),
      (p = [] → parseRequest 0x01 tag p = .command (.status tag)) ∧ (p ≠ [] → parseRequest 0x01 tag p = .badLength))
    ∧ (∀ (s : State) (tag : Byte),
      let d := ReplyData.status s.mode s.resetCause s.link.notices.length s.link.overflow s.store.state s.uptime
      exec (.status tag) s = .next (s.replied 0x01 tag .ok d)
        ∧ d.bytes = [BitVec.ofNat 8 (match s.mode with | .config => 0 | .run => 1 | .stopping => 2),
              BitVec.ofNat 8 (match s.resetCause with | .power => 0 | .pin => 1 | .restart => 2),
              BitVec.ofNat 8 s.link.notices.length, BitVec.ofNat 8 s.link.overflow,
              BitVec.ofNat 8 (match s.store.state with | .valid => 0 | .invalid => 1 | .saving => 2)] ++ leBytes 4 s.uptime.toNat
        ∧ (s.replied 0x01 tag .ok d).link.notices = s.link.notices
        ∧ (s.replied 0x01 tag .ok d).link.overflow = s.link.overflow)
    ∧ (∀ (s : State) (a b : Bool),
      (∃ t, exec (.hardReset .power a b) s = .next t ∧ t.resetCause = .power)
        ∧ (∃ t, exec (.hardReset .pin a b) s = .next t ∧ t.resetCause = .pin)
        ∧ (∃ t, exec (.restartReset a b) s = .next t ∧ t.resetCause = .restart))

/-- READ_NOTICES: the reply carries the overflow count, the number of records, the oldest records in order, at most the number
wanted and at most 8, and the number left; the records leave the queue and the overflow count becomes 0. The request carries one
byte, the number of records wanted (R177). -/
def Obligations.ReadNoticesTakesOldest : Prop :=
  (∀ (tag : Byte) (p : List Byte),
      (∀ n, p = [n] → parseRequest 0x02 tag p = .command (.readNotices tag n.toNat))
        ∧ (p.length ≠ 1 → parseRequest 0x02 tag p = .badLength))
    ∧ (∀ (s : State) (tag : Byte) (wanted n : Nat), (wanted = 0 ∨ 8 < wanted → n = 8) → (1 ≤ wanted → wanted ≤ 8 → n = wanted) →
      exec (.readNotices tag wanted) s = .next
        ((s.onLink fun l => { l with notices := l.notices.drop n, overflow := 0 }).replied 0x02 tag .ok
          (.notices s.link.overflow (s.link.notices.take n) (s.link.notices.length - n))))
    ∧ (∀ (overflow left : Nat) (rs : List Notice), (ReplyData.notices overflow rs left).bytes =
        BitVec.ofNat 8 overflow :: BitVec.ofNat 8 rs.length ::
          ((rs.map fun x => [BitVec.ofNat 8 x.kind.code, BitVec.ofNat 8 x.source, BitVec.ofNat 8 x.data.length] ++ x.data
              ++ leBytes 4 x.time.toNat).flatten ++ [BitVec.ofNat 8 left]))
    ∧ (∀ (overflow left : Nat) (rs : List Notice), rs.length = 8 → (∀ x ∈ rs, x.data.length = 6) →
        1 + (ReplyData.notices overflow rs left).bytes.length = 108)

/-- LINK_STATS: in every mode, while a save runs included, the reply OK carries the gap, CRC and framing error counts as two-byte
values in that order, and the three counts are set to 0. The request carries no payload, and its own
frame adds to no count (R181). -/
def Obligations.LinkStatsClearsCounts : Prop :=
  (∀ (tag : Byte) (p : List Byte),
      (p = [] → parseRequest 0x03 tag p = .command (.linkStats tag)) ∧ (p ≠ [] → parseRequest 0x03 tag p = .badLength))
    ∧ (∀ (s : State) (tag : Byte),
      exec (.linkStats tag) s = .next
          ((s.onLink fun l => { l with gapErrors := 0, crcErrors := 0, framingErrors := 0 }).replied 0x03 tag .ok
            (.linkStats s.link.gapErrors s.link.crcErrors s.link.framingErrors))
        ∧ (ReplyData.linkStats s.link.gapErrors s.link.crcErrors s.link.framingErrors).bytes =
          leBytes 2 s.link.gapErrors ++ leBytes 2 s.link.crcErrors ++ leBytes 2 s.link.framingErrors)
    ∧ (∀ (s t : State) (tag : Byte), s.link.rx = {} → exec (.requestFrame (frameBytes 0x03 tag [])) s = .next t →
      t.link.gapErrors = s.link.gapErrors ∧ t.link.crcErrors = s.link.crcErrors ∧ t.link.framingErrors = s.link.framingErrors)

/-- SET_SUPERVISION: the period is stored, 1..199 as 200 and above 10,000 as 10,000; above 0 the timer starts afresh, and at 0 it is
stopped; the reply carries the period as stored. The request carries the period as a two-byte value. LOAD_SETTINGS does not bring
it back, and every reset leaves it 0 with the timer stopped (R178). -/
def Obligations.SetSupervisionPeriod : Prop :=
  (∀ (tag : Byte) (p : List Byte),
      (∀ lo hi, p = [lo, hi] → parseRequest 0x04 tag p = .command (.setSupervision tag (lo.toNat + 256 * hi.toNat)))
        ∧ (p.length ≠ 2 → parseRequest 0x04 tag p = .badLength))
    ∧ (∀ (s : State) (tag : Byte) (period p : Nat), (period = 0 → p = 0) → (1 ≤ period → period ≤ 199 → p = 200) →
      (200 ≤ period → period ≤ 10000 → p = period) → (10000 < period → p = 10000) →
      exec (.setSupervision tag period) s = .next
        ((s.onLink fun l => { l with period := p, supervision := if p = 0 then none else some (s.uptime + BitVec.ofNat 32 p) }).replied
          0x04 tag .ok (.supervision p)))
    ∧ (∀ (s t : State) (tag : Byte), exec (.loadSettings tag) s = .next t →
      t.link.period = s.link.period ∧ t.link.supervision = s.link.supervision)
    ∧ (∀ (s t : State) (c : HardCause) (a b : Bool),
      exec (.hardReset c a b) s = .next t ∨ exec (.restartReset a b) s = .next t → t.link.period = 0 ∧ t.link.supervision = none)

/-- The supervision timer expires: it stays stopped and HOST_LOST is posted with the period. Every windlass run and mover motion that the
host owns and that no stop has reached is stopped with cause HOST_LOST, its outputs de-energised, and its record keeps the host as
owner until it reports rest; a mover that waits for the pump returns to rest at once with MOTION_STOPPED, its motion absent and its
record NONE; in RUN no other owner's record changes (R133, R153, R167, R179). -/
def Obligations.HostLossStopsHostMotions : Prop :=
  ∀ (s : State) (e : Uptime), s.link.supervision = some e →
    ∃ t, exec .supervisionExpiry s = .next t ∧ t.link.supervision = none
      ∧ (s.link.notices.length < 32 → (s.link.notices ++ [⟨.hostLost, 0, leBytes 2 s.link.period, t.uptime⟩]) <+: t.link.notices)
      ∧ (∀ m, (s.ownerOf (moverResource m)).owner = .host → (s.ownerOf (moverResource m)).stopDelivered = false →
          (s.mover m).state = .moving →
          (t.mover m).state = .settling ∧ (t.mover m).stopCause = some .hostLost ∧ (t.mover m).raise = false
            ∧ (t.mover m).lower = false ∧ (t.mover m).settleTimer = some (t.uptime + 500)
            ∧ t.ownerOf (moverResource m) = { s.ownerOf (moverResource m) with stopDelivered := true })
      ∧ (∀ m, (s.ownerOf (moverResource m)).owner = .host → (s.ownerOf (moverResource m)).stopDelivered = false →
          (s.mover m).state = .waitPump →
          t.mover m = { s.mover m with state := .atRest, motion := none } ∧ t.ownerOf (moverResource m) = {}
            ∧ (s.link.notices.length < 20 →
              ⟨.motionStopped, match m with | .hatch => 1 | .platform => 2,
                6 :: BitVec.ofNat 8 (s.mover m).position.code :: leSigned 2 (s.angle m), t.uptime⟩ ∈ t.link.notices))
      ∧ (s.windlassOwner.owner = .host → s.windlassOwner.stopDelivered = false → s.windlass.underWay = true →
          t.windlass.state = .stopping ∧ t.windlass.stopCause = some .hostLost ∧ t.windlass.contactorClosed = false
            ∧ t.windlass.stage2 = false ∧ t.windlass.brakeRelease = false ∧ t.windlass.settleTimer = some (t.uptime + 300)
            ∧ t.windlassOwner = { s.windlassOwner with stopDelivered := true })
      ∧ (s.mode = .run → ∀ r, (s.ownerOf r).owner ≠ .host → t.ownerOf r = s.ownerOf r)

/-! ## Modes, start and stop (chapter 11) -/

/-- A request of R183's table that is accepted in CONFIG only is refused with WRONG_MODE in RUN and STOPPING, and START with it; one
accepted in RUN only is refused so in CONFIG and STOPPING. Nothing changes but the reply.

While a save runs, an edit of CONFIG is refused with BUSY in CONFIG, and a scene or binding edit, RESTART and a further save in every
mode. Nothing changes but the reply.

Where a request fails its fields' checks too, that the mode and then the save decide is the model's choice (notes/assumptions/15.md). -/
def Obligations.ModesAndSavesRefuse : Prop :=
  (∀ (i : Instr) (s : State) (kind tag : Byte), requestKey i = some (kind, tag) →
    (configEdits i = true ∨ i = .start tag → s.mode ≠ .config → exec i s = .next (s.replied kind tag .wrongMode))
      ∧ (runOnly i = true → s.mode ≠ .run → exec i s = .next (s.replied kind tag .wrongMode)))
  ∧ (∀ (i : Instr) (s : State) (kind tag : Byte), requestKey i = some (kind, tag) → s.store.state = .saving →
    (configEdits i = true → s.mode = .config → exec i s = .next (s.replied kind tag .busy))
      ∧ (saveWaits i = true → exec i s = .next (s.replied kind tag .busy))
      ∧ (i = .saveSettings tag 0 ∨ i = .saveSettings tag 1 → exec i s = .next (s.replied kind tag .busy)))

/-- The checks of START pass exactly when every channel names a recorded node with an output and a type for it, every binding names a
defined scene or channel and, for a key, a keypad or a station's key other than 7 and 8, every key map belongs to a STATION, the
limit covers base load and margin, the angles are in order, and every windlass figure lies in its range (R140, R186).

Checks 1 to 3 are made channel by channel: the first channel that fails gives the item kind 1, 2 or 3 in that order, with its
number. With every channel passed, checks 4 to 9 follow in their order, each made only where those before it pass: the first
binding that fails gives kind 4 with its slot, the first key map kind 5 with its address, the supply 6, the platform's angles 7
and the hatch's 8 with index 0, and the first windlass figure out of range kind 9 with its number (R186). -/
def Obligations.StartChecks : Prop :=
  (∀ s : State, s.startCheck = none ↔
    (∀ c ∈ s.channels, ∃ r, s.node c.cfg.node = some r ∧ 1 ≤ c.cfg.index
        ∧ ((c.cfg.kind = .dim ∧ r.type = .dimmer4 ∧ c.cfg.index ≤ 4) ∨ (c.cfg.kind = .switch ∧ r.type = .switch8 ∧ c.cfg.index ≤ 8)
          ∨ (c.cfg.kind = .blind ∧ r.type = .blind2 ∧ c.cfg.index ≤ 2)))
      ∧ (∀ b ∈ s.bindings,
        (∀ n, b.action = .takeScene n → ∃ x, s.scene n = some x)
          ∧ (∀ n l f, b.action = .setChannel n l f → ∃ x, s.channel n = some x)
          ∧ (∀ n, b.action = .toggleChannel n → ∃ x, s.channel n = some x)
          ∧ (∀ a k e, b.trigger = .key a k e → ∃ r, s.node a = some r ∧ (r.type = .keypad ∨ (r.type = .station ∧ k ≠ 7 ∧ k ≠ 8))))
      ∧ (∀ t ∈ s.stations, ∃ r, s.node t.addr = some r ∧ r.type = .station)
      ∧ s.alloc.base + s.alloc.margin ≤ s.alloc.limit
      ∧ (s.platform.settings.low < s.platform.settings.deck ∧ s.platform.settings.deck < s.platform.settings.high)
      ∧ s.hatch.settings.low < s.hatch.settings.high
      ∧ (∀ f, f = s.windlass.settings →
        (4 ≤ f.countsPerRev ∧ f.countsPerRev ≤ 1024) ∧ (100 ≤ f.mmPerRev ∧ f.mmPerRev ≤ 5000) ∧ f.slipTol ≤ 255
          ∧ (1000 ≤ f.maxRode ∧ f.maxRode ≤ 400000) ∧ f.slowZone ≤ 50000 ∧ f.stopBand ≤ 5000 ∧ f.g1 ≤ 200000 ∧ f.g2 ≤ 200000
          ∧ f.inrush ≤ 200000 ∧ f.inrushWindow ≤ 10000 ∧ (1 ≤ f.overCurrent ∧ f.overCurrent ≤ 2000)
          ∧ (100 ≤ f.overTime ∧ f.overTime ≤ 10000) ∧ (200 ≤ f.jamTime ∧ f.jamTime ≤ 10000) ∧ f.homeLimit ≤ 50000
          ∧ f.stage2Delay ≤ 60000))
  ∧ (∀ (s : State) (before after_ : List Channel) (c : Channel), s.channels = before ++ c :: after_ →
    (∀ x ∈ before, ∃ r, s.node x.cfg.node = some r ∧ 1 ≤ x.cfg.index
        ∧ ((x.cfg.kind = .dim ∧ r.type = .dimmer4 ∧ x.cfg.index ≤ 4) ∨ (x.cfg.kind = .switch ∧ r.type = .switch8 ∧ x.cfg.index ≤ 8)
          ∨ (x.cfg.kind = .blind ∧ r.type = .blind2 ∧ x.cfg.index ≤ 2))) →
      (s.node c.cfg.node = none → s.startCheck = some (1, c.cfg.num))
        ∧ (∀ r, s.node c.cfg.node = some r → c.cfg.index < 1 ∨ r.type.outputs < c.cfg.index → s.startCheck = some (2, c.cfg.num))
        ∧ (∀ r, s.node c.cfg.node = some r → 1 ≤ c.cfg.index → c.cfg.index ≤ r.type.outputs → c.cfg.kind.nodeType ≠ r.type →
          s.startCheck = some (3, c.cfg.num)))
  ∧ (∀ (s : State) (fits : Channel → Prop) (bound : Binding → Prop) (mapped : Station → Prop),
    (∀ c, fits c ↔ ∃ r, s.node c.cfg.node = some r ∧ 1 ≤ c.cfg.index
      ∧ ((c.cfg.kind = .dim ∧ r.type = .dimmer4 ∧ c.cfg.index ≤ 4) ∨ (c.cfg.kind = .switch ∧ r.type = .switch8 ∧ c.cfg.index ≤ 8)
        ∨ (c.cfg.kind = .blind ∧ r.type = .blind2 ∧ c.cfg.index ≤ 2))) →
    (∀ b, bound b ↔ (∀ n, b.action = .takeScene n → ∃ x, s.scene n = some x)
      ∧ (∀ n l f, b.action = .setChannel n l f → ∃ x, s.channel n = some x)
      ∧ (∀ n, b.action = .toggleChannel n → ∃ x, s.channel n = some x)
      ∧ (∀ a k e, b.trigger = .key a k e → ∃ r, s.node a = some r ∧ (r.type = .keypad ∨ (r.type = .station ∧ k ≠ 7 ∧ k ≠ 8)))) →
    (∀ t, mapped t ↔ ∃ r, s.node t.addr = some r ∧ r.type = .station) →
    (∀ c ∈ s.channels, fits c) →
      (∀ before b after_, s.bindings = before ++ b :: after_ → (∀ x ∈ before, bound x) → ¬ bound b → s.startCheck = some (4, b.slot))
      ∧ ((∀ b ∈ s.bindings, bound b) →
        (∀ before t after_, s.stations = before ++ t :: after_ → (∀ x ∈ before, mapped x) → ¬ mapped t →
            s.startCheck = some (5, t.addr))
          ∧ ((∀ t ∈ s.stations, mapped t) →
            (s.alloc.limit < s.alloc.base + s.alloc.margin → s.startCheck = some (6, 0))
              ∧ (s.alloc.base + s.alloc.margin ≤ s.alloc.limit →
                (s.platform.settings.deck ≤ s.platform.settings.low ∨ s.platform.settings.high ≤ s.platform.settings.deck →
                    s.startCheck = some (7, 0))
                  ∧ (s.platform.settings.low < s.platform.settings.deck → s.platform.settings.deck < s.platform.settings.high →
                    (s.hatch.settings.high ≤ s.hatch.settings.low → s.startCheck = some (8, 0))
                      ∧ (s.hatch.settings.low < s.hatch.settings.high →
                        ∀ (f : WindlassSettings) (inRange : List Bool) (n : Nat), f = s.windlass.settings →
                          inRange = [decide (4 ≤ f.countsPerRev ∧ f.countsPerRev ≤ 1024), decide (100 ≤ f.mmPerRev ∧ f.mmPerRev ≤ 5000),
                            decide (f.slipTol ≤ 255), decide (1000 ≤ f.maxRode ∧ f.maxRode ≤ 400000), decide (f.slowZone ≤ 50000),
                            decide (f.stopBand ≤ 5000), decide (f.g1 ≤ 200000), decide (f.g2 ≤ 200000), decide (f.inrush ≤ 200000),
                            decide (f.inrushWindow ≤ 10000), decide (1 ≤ f.overCurrent ∧ f.overCurrent ≤ 2000),
                            decide (100 ≤ f.overTime ∧ f.overTime ≤ 10000), decide (200 ≤ f.jamTime ∧ f.jamTime ≤ 10000),
                            decide (f.homeLimit ≤ 50000), decide (f.stage2Delay ≤ 60000)] →
                          inRange[n]? = some false → (∀ i, i < n → inRange[i]? = some true) → s.startCheck = some (9, n + 1)))))))

/-- START in CONFIG, with its checks passed, enters RUN in one operation and posts MODE_CHANGED with cause START; AUTO_START does the
same at uptime 30, with cause AUTO_START, when the image was valid and the flag is set. Adoption pending is set on every record with
outputs, and every DECLARED record that no enrolment holds is in IDENTIFY and has asked for one, or has its retry timer running where the
queue had no place (R28, R52, R57, R61, R100, R104, R110, R187, R193).

START whose checks fail is answered INVALID with the item kind and index, and changes nothing; AUTO_START posts START_FAILED with the
two bytes. AUTO_START without a valid image, the flag or CONFIG makes no attempt, and is made once (R186, R193).

That the records ask in ascending order of address, and that AUTO_START looks at the mode of its moment alone, are the model's
choices (notes/assumptions/10.md, notes/assumptions/36.md). That an expiry given early moves the uptime to its moment, and that a stopped timer's expiry does nothing, is the model's choice
(notes/assumptions/7.md). -/
def Obligations.StartEntersRun : Prop :=
  (∀ (s : State) (tag : Byte), s.Ordered → s.mode = .config → s.startCheck = none →
    (∃ t, exec (.start tag) s = .next t ∧ s.StartedAs t ∧ t.uptime = s.uptime ∧ t.bootTimer = s.bootTimer
        ∧ t.link = (s.link.post ⟨.modeChanged, 0, [1, 0, 1], s.uptime⟩).answer 0x08 tag .ok .none)
      ∧ (∀ e, s.bootTimer = some e → s.bootValid = true → s.autoStart = true →
        ∃ t, exec .autoStart s = .next t ∧ s.StartedAs t ∧ t.uptime = (s.atMoment e).uptime ∧ t.bootTimer = none
          ∧ t.link = s.link.post ⟨.modeChanged, 0, [1, 0, 2], t.uptime⟩))
  ∧ (∀ (s : State) (tag : Byte),
    (∀ k n, s.mode = .config → s.startCheck = some (k, n) →
        exec (.start tag) s = .next (s.replied 0x08 tag .invalid (.invalid k n)))
      ∧ (∀ e k n, s.bootTimer = some e → s.bootValid = true → s.autoStart = true → s.mode = .config → s.startCheck = some (k, n) →
        exec .autoStart s = .next
          { s.atMoment e with bootTimer := none
                              link := s.link.post ⟨.startFailed, 0, [BitVec.ofNat 8 k, BitVec.ofNat 8 n], (s.atMoment e).uptime⟩ })
      ∧ (∀ e, s.bootTimer = some e → s.bootValid = false ∨ s.autoStart = false ∨ s.mode ≠ .config →
        exec .autoStart s = .next { s.atMoment e with bootTimer := none })
      ∧ (s.bootTimer = none → exec .autoStart s = .next s))

/-- STOP with the deck entirely at rest enters CONFIG in the operation that takes it, with MODE_CHANGED STOP and then DRAINED: the tick
and the reviews stop, staged targets and fades are dropped with their levels kept, every node record is DECLARED, grants and
ownership records are gone, and scenes, bindings, the store and everything else stand (R39, R62, R104, R170, R188, R189).

STOP with the deck at work: MODE_CHANGED is posted with cause STOP; a MOVING mover and a windlass under way settle with cause
MODE_STOP and keep the part in STOPPING; a waiting mover returns to rest with its record NONE; and a pump in RUN_ON enters OFF
and releases its grant (R133, R137, R153, R156, R188). -/
def Obligations.StopDrainsThenConfig : Prop :=
  (∀ (s : State) (tag : Byte), s.bus.Bounded → s.mode = .run →
    (s.hpu.state = .off ∨ s.hpu.state = .fault) → (s.hatch.state = .atRest ∨ s.hatch.state = .fault) →
    (s.platform.state = .atRest ∨ s.platform.state = .fault) → (s.windlass.state = .idle ∨ s.windlass.state = .fault) →
    ∃ t, exec (.stop tag) s = .next t
      ∧ { t with bus := s.bus, link := s.link, enrolment := s.enrolment } =
        { s with
          mode := .config, refresh := none
          nodes := s.nodes.map fun r =>
            { r with state := .declared, misses := 0, held := 0, returnFlag := false, retryTimer := none, pollTimer := none }
          channels := s.channels.map fun c =>
            { c with staged := none, fade := none, ceiling := 1000, target := if c.fade.isSome then c.current else c.target
                     moving := if c.cfg.kind = .blind then false else c.moving }
          alloc := { s.alloc with classes := .replicate 8 .normal, hpuGrant := none, windlassGrant := none, overLimit := 0
                                  reviewTimer := none }
          hatchOwner := {}, platformOwner := {}, windlassOwner := {}
          stations := s.stations.map fun x => { x with spent := .replicate 6 none, delivered := none } }
      ∧ t.link = ((s.link.post ⟨.modeChanged, 0, [2, 1, 3], s.uptime⟩).post ⟨.modeChanged, 0, [0, 2, 4], s.uptime⟩).answer
          0x09 tag .ok .none
      ∧ (s.enrolment = none → t.enrolment = none ∧
        (s.bus.state ≠ .recovery → t.bus = { s.bus with
          queue := (s.bus.queue.filter (·.inFlight)).map (fun e => { e with followUp := false })
            ++ [⟨.c, .release, 0, none, s.uptime, false, false, false, false⟩] })
          ∧ (s.bus.state = .recovery → t.bus = { s.bus with pendingRelease := true })))
  ∧ (∀ (s : State) (tag : Byte), s.mode = .run →
    ∃ t, exec (.stop tag) s = .next t
      ∧ (s.link.notices.length < 32 →
        (s.link.notices ++ [⟨.modeChanged, 0, [2, 1, 3], s.uptime⟩]) <+: t.link.notices)
      ∧ (∀ m, (s.mover m).state = .moving →
          (t.mover m).state = .settling ∧ (t.mover m).stopCause = some .modeStop ∧ (t.mover m).raise = false
            ∧ (t.mover m).lower = false ∧ (t.mover m).settleTimer = some (s.uptime + 500) ∧ t.mode = .stopping)
      ∧ (∀ m, (s.mover m).state = .waitPump →
          (t.mover m).state = .atRest ∧ (t.mover m).motion = none ∧ t.ownerOf (moverResource m) = {})
      ∧ (∀ m, (s.mover m).state = .settling → t.mover m = s.mover m ∧ t.mode = .stopping)
      ∧ (s.windlass.underWay = true →
          t.windlass.state = .stopping ∧ t.windlass.stopCause = some .modeStop ∧ t.windlass.contactorClosed = false
            ∧ t.windlass.stage2 = false ∧ t.windlass.brakeRelease = false ∧ t.windlass.settleTimer = some (s.uptime + 300)
            ∧ t.mode = .stopping)
      ∧ (s.hpu.state = .runOn → t.hpu.state = .off ∧ t.hpu.contactor = false ∧ t.alloc.hpuGrant = none))

/-- The mode changes only as chapter 11 gives: by START and AUTO_START from CONFIG to RUN, by STOP out of RUN, by the drain from
STOPPING to CONFIG with the deck at rest, and by a reset to CONFIG (R185 to R188, R193). -/
def Obligations.ModeChangesOnlySo : Prop :=
  ∀ (i : Instr) (s t : State), exec i s = .next t →
    t.mode = s.mode
      ∨ (s.mode = .config ∧ t.mode = .run ∧ s.startCheck = none ∧ (i = .autoStart ∨ ∃ tag, i = .start tag))
      ∨ (s.mode = .run ∧ (t.mode = .stopping ∨ t.mode = .config) ∧ ∃ tag, i = .stop tag)
      ∨ (s.mode = .stopping ∧ t.mode = .config ∧ t.drained = true)
      ∨ (t.mode = .config ∧ ((∃ c a b, i = .hardReset c a b) ∨ ∃ a b, i = .restartReset a b))

/-! ## The settings store (R190 to R192) -/

/-- SAVE_SETTINGS with flag 0 or 1 and no save running: the flag becomes the working auto-start flag, the working configuration is taken
as the content of the save, the store state becomes SAVING with no valid image under its old CRC, and the reply is OK; any other flag is
BAD_VALUE. The completion makes the image the content taken with its CRC written and posts STORE_DONE with the flag and the CRC, or
leaves the store INVALID and posts STORE_FAILED; with no save running it does nothing.

The bytes under the CRC are a free value, and that the store holds no whole image during a save and after one that failed is the
model's choice (notes/assumptions/3.md). That a completion with no save running does nothing, an event the state rules out, is the
model's choice (notes/assumptions/7.md), and so is that a flag above 1 is BAD_VALUE also while a save runs
(notes/assumptions/15.md). -/
def Obligations.SaveTakesConfiguration : Prop :=
  ∀ (s : State) (tag : Byte),
    (∀ flag, flag ≤ 1 → s.store.state ≠ .saving → exec (.saveSettings tag flag) s = .next
        (State.replied
          { s with autoStart := decide (flag = 1)
                   store := { state := .saving, image := none, crc := s.store.crc
                              saving := some { s.configuration with autoStart := decide (flag = 1) } } }
          0x0A tag .ok))
      ∧ (∀ flag, 1 < flag → exec (.saveSettings tag flag) s = .next (s.replied 0x0A tag .badValue))
      ∧ (∀ m, s.store.saving = some m →
        exec (.saveComplete true) s = .next
            { s with store := { state := .valid, image := some m, crc := crc32 (Config.imageBytes m), saving := none }
                     link := s.link.post ⟨.storeDone, 0, BitVec.ofNat 8 (if m.autoStart then 1 else 0) ::
                       leBytes 4 (crc32 (Config.imageBytes m)).toNat, s.uptime⟩ }
          ∧ exec (.saveComplete false) s = .next
            { s with store := { state := .invalid, image := none, crc := s.store.crc, saving := none }
                     link := s.link.post ⟨.storeFailed, 0, [], s.uptime⟩ })
      ∧ (s.store.saving = none → ∀ b, exec (.saveComplete b) s = .next s)

/-- LOAD_SETTINGS in CONFIG, with no save and no enrolment running, replaces the working configuration whole by the image's, and DEFAULTS by
empty tables and the default figures; both make working state anew and leave the store, the supply figures, the grants, positions,
the count and the link alone. Every sense monitor is ARMED; and a change of counts_per_rev or mm_per_rev makes the rode not valid, clears
rode_uncertain and empties the FIFO. With the store INVALID LOAD_SETTINGS is NOT_READY, and while an enrolment runs both are BUSY (R114,
R140, R192). A reset without a valid image sets the same default figures as DEFAULTS (R24, R84, R114, R118, R119, R140, R193).

That a save cut off by a reset leaves no whole image is the model's choice, and the bytes under the CRC are a free value
(notes/assumptions/3.md). -/
def Obligations.LoadReplacesConfiguration : Prop :=
  ∀ d : Image,
  d = { nodes := [], channels := [], scenes := [], bindings := [], maps := [], margin := 0, hysteresis := 500
        sense := .replicate 8 { low := 0, high := 4095, lowLimit := -32768, highLimit := 32767, hysteresis := 0 }
        hpu := { rated := 7500, inrush := 6000, inrushWindow := 2000, readyPressure := 1200, readyLimit := 3000
                 overpressure := 2100, overTime := 500, stallPressure := 1900, runOn := 10000 }
        hatch := { low := 0, deck := 0, high := 1100, timeout := 60000 }
        platform := { low := -150, deck := 0, high := 900, timeout := 90000 }
        windlass := { countsPerRev := 48, mmPerRev := 1120, slipTol := 3, maxRode := 110000, slowZone := 3000, stopBand := 100
                      g1 := 6000, g2 := 9500, inrush := 5000, inrushWindow := 2000, overCurrent := 400, overTime := 1000
                      jamTime := 1500, homeLimit := 3000, stage2Delay := 3000 }
        roomline := { rate := 50, silence := 5, fallback := .hold }
        autoStart := false } →
  (∀ (s : State) (i : Instr) (c : HardCause) (lr1 lr0 : Bool), i = .hardReset c lr1 lr0 ∨ i = .restartReset lr1 lr0 →
    s.store.state = .saving ∨ (∀ m, s.store.image = some m → crc32 (Config.imageBytes m) ≠ s.store.crc) →
    ∃ t, exec i s = .next t ∧ t.configuration = d)
  ∧ ∀ (s : State) (tag : Byte) (m : Image), s.mode = .config → s.store.state ≠ .saving →
    (s.enrolment = none →
      ∃ u v : State,
        (s.store.state = .valid → s.store.image = some m → exec (.loadSettings tag) s = .next (u.replied 0x0B tag .ok))
          ∧ exec (.defaults tag) s = .next (v.replied 0x0C tag .ok)
          ∧ u.configuration = m ∧ v.configuration = d
          ∧ ∀ x : State, x = u ∨ x = v →
            { x with nodes := s.nodes, channels := s.channels, scenes := s.scenes, build := s.build, lastTake := s.lastTake
                     bindings := s.bindings, stations := s.stations, alloc := s.alloc, sense := s.sense, hpu := s.hpu
                     hatch := s.hatch, platform := s.platform, windlass := s.windlass, bus := s.bus, autoStart := s.autoStart } = s
              ∧ x.build = none ∧ x.lastTake = none
              ∧ { x.alloc with margin := s.alloc.margin, hysteresis := s.alloc.hysteresis } = s.alloc
              ∧ { x.hpu with settings := s.hpu.settings } = s.hpu
              ∧ { x.hatch with settings := s.hatch.settings } = s.hatch
              ∧ { x.platform with settings := s.platform.settings } = s.platform
              ∧ { x.bus with settings := s.bus.settings } = s.bus
              ∧ (∀ f, f = x.windlass.settings →
                (f.countsPerRev = s.windlass.settings.countsPerRev → f.mmPerRev = s.windlass.settings.mmPerRev →
                    x.windlass = { s.windlass with settings := f })
                  ∧ (f.countsPerRev ≠ s.windlass.settings.countsPerRev ∨ f.mmPerRev ≠ s.windlass.settings.mmPerRev →
                    x.windlass = { s.windlass with settings := f, rodeValid := false, rodeUncertain := false, fifo := [] }))
              ∧ { x.sense with inputs := s.sense.inputs } = s.sense
              ∧ (∀ i : Fin 8, x.sense.inputs[i] =
                { s.sense.inputs[i] with settings := x.sense.inputs[i].settings, highTripped := false, lowTripped := false })
              ∧ (∀ c ∈ x.channels, c = { cfg := c.cfg }) ∧ (∀ r ∈ x.nodes, r = { addr := r.addr, type := r.type, serial := r.serial })
              ∧ (∀ b ∈ x.bindings, b.fires = 0))
      ∧ (s.enrolment = none → s.store.state = .invalid → exec (.loadSettings tag) s = .next (s.replied 0x0B tag .notReady))
      ∧ (s.enrolment.isSome = true →
        exec (.loadSettings tag) s = .next (s.replied 0x0B tag .busy) ∧ exec (.defaults tag) s = .next (s.replied 0x0C tag .busy))

/-! ## Channels and fades (chapter 3) -/

/-- SET_LEVEL in RUN on a defined channel: the level, clamped to 1000 and for a SWITCH taken to 0 or 1000 at 500, and the fade time,
clamped to 600,000, are staged on that channel in place of a staging that waits, its untouched flag is cleared, the reply carries
both as staged, and nothing else changes. A number outside 1..96 is BAD_VALUE and one with no channel NOT_FOUND (R49, R51, R63).

TAKE_SCENE in RUN of a defined scene: every channel an entry names has the entry's level, conditioned by its kind, staged with the
scene's fade time; every other channel stands; the last-take record is set, the reply carries the number of entries, and nothing
else changes. A number outside 1..64 is BAD_VALUE and one with no scene NOT_FOUND (R74, R76). -/
def Obligations.LevelsAndScenesStaged : Prop :=
  (∀ (s : State) (tag : Byte) (num level fade : Nat), s.mode = .run →
    (∀ c, 1 ≤ num → num ≤ 96 → s.channel num = some c →
        exec (.setLevel tag num level fade) s = .next
          ((s.onChannels fun x =>
              if x.cfg.num = num then
                { x with staged := some ⟨if x.cfg.kind = .switch then (if 500 ≤ level then 1000 else 0) else min level 1000,
                                         min fade 600000⟩
                         untouched := false }
              else x).replied 0x22 tag .ok
            (.staged (if c.cfg.kind = .switch then (if 500 ≤ level then 1000 else 0) else min level 1000) (min fade 600000))))
      ∧ (num < 1 ∨ 96 < num → exec (.setLevel tag num level fade) s = .next (s.replied 0x22 tag .badValue))
      ∧ (1 ≤ num → num ≤ 96 → s.channel num = none → exec (.setLevel tag num level fade) s = .next (s.replied 0x22 tag .notFound)))
  ∧ (∀ (s : State) (tag : Byte) (n : Nat), s.mode = .run →
    (∀ sc, 1 ≤ n → n ≤ 64 → s.scene n = some sc →
        ∃ u : State, exec (.takeScene tag n) s = .next (u.replied 0x2C tag .ok (.taken sc.entries.length))
          ∧ u.lastTake = some ⟨n, .host, s.uptime, sc.entries.length⟩
          ∧ { u with channels := s.channels, lastTake := s.lastTake } = s
          ∧ ∀ (i : Nat) (c : Channel), s.channels[i]? = some c → ∃ c', u.channels[i]? = some c'
            ∧ ((∀ e ∈ sc.entries, e.channel ≠ c.cfg.num) → c' = c)
            ∧ ∀ e ∈ sc.entries, e.channel = c.cfg.num → (∀ e' ∈ sc.entries, e'.channel = e.channel → e' = e) →
              c' = { c with
                staged := some ⟨if c.cfg.kind = .switch then (if 500 ≤ e.level then 1000 else 0) else min e.level 1000,
                                min sc.fade 600000⟩
                untouched := false })
      ∧ (n < 1 ∨ 64 < n → exec (.takeScene tag n) s = .next (s.replied 0x2C tag .badValue))
      ∧ (1 ≤ n → n ≤ 64 → s.scene n = none → exec (.takeScene tag n) s = .next (s.replied 0x2C tag .notFound)))

/-- A fade from level S to level T in N steps stands at step k at S + round((T − S) × k / N), where a quotient halfway between two whole
numbers goes to the one farther from zero: at S at step 0, exactly at T at step N, and at every step between them it lies between S
and T, not further from T than at the step before (R54).

What a tick does to one channel: a DIM takes up its staged target by a fade from its current level, of one step for each 20 ms begun and
at least one, dropping a fade that runs; a SWITCH or BLIND takes the level at once; and then a fade advances one step, and ends at
its last (R53 to R55). -/
def Obligations.FadesStepToTarget : Prop :=
  (∀ f : Fade, 0 < f.total →
    (∀ (k : Nat) (x : Int), k ≤ f.total → x = ((f.target : Int) - f.start) * k →
        (0 ≤ x → (f.levelAt k : Int) = f.start + (2 * x + f.total) / (2 * f.total))
          ∧ (x ≤ 0 → (f.levelAt k : Int) = f.start - (2 * -x + f.total) / (2 * f.total)))
      ∧ f.levelAt 0 = f.start ∧ f.levelAt f.total = f.target
      ∧ (∀ k, k < f.total → f.start ≤ f.target →
          f.start ≤ f.levelAt k ∧ f.levelAt k ≤ f.levelAt (k + 1) ∧ f.levelAt (k + 1) ≤ f.target)
      ∧ (∀ k, k < f.total → f.target ≤ f.start →
          f.levelAt k ≤ f.start ∧ f.levelAt (k + 1) ≤ f.levelAt k ∧ f.target ≤ f.levelAt (k + 1)))
  ∧ ((∀ (c : Channel) (t : Staged) (n : Nat), c.staged = some t → c.cfg.kind = .dim →
      (t.fade = 0 → n = 1) → (0 < t.fade → 20 * n < t.fade + 20 ∧ t.fade ≤ 20 * n) →
      c.takeUp = { c with staged := none, target := t.level, fade := some ⟨c.current, t.level, 0, n⟩ })
    ∧ (∀ (c : Channel) (t : Staged), c.staged = some t → c.cfg.kind ≠ .dim →
      c.takeUp = { c with staged := none, target := t.level, current := t.level })
    ∧ (∀ c : Channel, c.staged = none → c.takeUp = c)
    ∧ (∀ c : Channel, c.fade = none → c.advance = c)
    ∧ (∀ (c : Channel) (f : Fade), c.fade = some f → f.step + 1 < f.total →
      c.advance = { c with current := f.levelAt (f.step + 1), fade := some { f with step := f.step + 1 } })
    ∧ (∀ (c : Channel) (f : Fade), c.fade = some f → 0 < f.total → f.step + 1 = f.total →
      c.advance = { c with current := f.target, fade := none }))

/-- REFRESH_TICK with no class RESTORING: the timer's next expiry is 20 ms on, every channel takes up and advances, LEVELS is asked for
every ACTIVE node with a channel whose last sent is absent or differs from its output, and for no other node, and nothing else
changes. With the timer stopped there is no tick (R52, R56).

REFRESH_TICK with a class RESTORING: the ceilings of its channels rise by 25, to a most of 1000, and no other ceiling moves; when all of
them stand at 1000 the class becomes NORMAL and RESTORED is posted with the class as source, and otherwise it stays RESTORING (R91).

That an expiry given early moves the uptime to its moment, and that a stopped timer's expiry does nothing, is the model's choice
(notes/assumptions/7.md). -/
def Obligations.RefreshTickRuns : Prop :=
  (∀ s : State, s.refresh = none → exec .refreshTick s = .next s)
  ∧ (∀ (s : State) (e : Uptime), s.refresh = some e → (∀ k, s.classState k ≠ .restoring) →
    ∃ t, exec .refreshTick s = .next t ∧ t.refresh = some (e + 20) ∧ t.uptime = (s.atMoment e).uptime
      ∧ t.channels = s.channels.map (fun c => c.takeUp.advance)
      ∧ { t with refresh := s.refresh, uptime := s.uptime, channels := s.channels, bus := s.bus } = s
      ∧ { t.bus with queue := s.bus.queue } = s.bus
      ∧ (∀ x ∈ t.bus.queue, x ∈ s.bus.queue ∨ (x.kind = .levels ∧ ∃ r ∈ s.nodes, r.addr = x.target ∧ r.state = .active
          ∧ ∃ c ∈ t.channels, c.cfg.node = r.addr ∧ c.lastSent ≠ some (min c.current c.ceiling)))
      ∧ (s.bus.state ≠ .recovery → s.mode ≠ .config → s.bus.queue.length + s.nodes.length ≤ 16 →
        ∀ r ∈ s.nodes, r.state = .active →
          (∃ c ∈ t.channels, c.cfg.node = r.addr ∧ c.lastSent ≠ some (min c.current c.ceiling)) →
          ∃ x ∈ t.bus.queue, x.kind = .levels ∧ x.target = r.addr))
  ∧ (∀ (s : State) (e : Uptime) (k : Nat), s.refresh = some e → s.ClassLaw → s.classState k = .restoring →
    ∃ t, exec .refreshTick s = .next t
      ∧ (∀ (n : Nat) (c : Channel), s.channels[n]? = some c → ∃ c', t.channels[n]? = some c' ∧ c'.cfg = c.cfg
          ∧ c'.ceiling = if c.cfg.cls = k then min (c.ceiling + 25) 1000 else c.ceiling)
      ∧ (∀ j, j ≠ k → t.classState j = s.classState j)
      ∧ ((∀ c ∈ s.channels, c.cfg.cls = k → 975 ≤ c.ceiling ∧ c.ceiling ≤ 1000) →
          t.classState k = .normal ∧ t.link = s.link.post ⟨.restored, k, [], t.uptime⟩)
      ∧ ((∃ c ∈ s.channels, c.cfg.cls = k ∧ c.ceiling < 975) → t.classState k = .restoring ∧ t.link = s.link))

/-- DEFINE_CHANNEL in CONFIG, with every field in range, a fitting or no node record, and no other channel at the node's output: the channel
holds the configuration given, its floor and preset conditioned by its kind and a BLIND's class, floor and preset fixed; its
working state is kept where node, output and kind are unchanged and is new otherwise; every other channel and everything else
stands (R49, R65).

REMOVE_CHANNEL in CONFIG of a defined channel: the channel is gone, with its entry in every scene, every scene this leaves empty, and
every binding that acts on it or on such a scene; every other channel, scene and binding stands, and nothing else changes; the reply
counts the scene entries, the scenes and the bindings removed (R66).

DEFINE_CHANNEL refuses a field outside its range, or a node record of another type, with BAD_VALUE, and an output another channel names
with IN_USE; REMOVE_CHANNEL refuses a number outside 1..96 with BAD_VALUE and one with no record with NOT_FOUND; nothing changes (R65,
R66). That a BLIND's class, which is not used, is refused above 7 too is the model's choice (notes/assumptions/15.md). -/
def Obligations.ChannelTableEdits : Prop :=
  (∀ (s : State) (tag : Byte) (num node index kind rated cls floor preset : Nat) (k : ChannelKind) (outs : Nat) (ty : NodeType),
    s.mode = .config → s.store.state ≠ .saving →
    ((kind = 1 ∧ k = .dim ∧ outs = 4 ∧ ty = .dimmer4) ∨ (kind = 2 ∧ k = .switch ∧ outs = 8 ∧ ty = .switch8)
      ∨ (kind = 3 ∧ k = .blind ∧ outs = 2 ∧ ty = .blind2)) →
    1 ≤ num → num ≤ 96 → 1 ≤ node → node ≤ 119 → 1 ≤ index → index ≤ outs → rated ≤ 3000 → cls ≤ 7 →
    (∀ r, s.node node = some r → r.type = ty) →
    (∀ c ∈ s.channels, c.cfg.num ≠ num → ¬ (c.cfg.node = node ∧ c.cfg.index = index)) →
    ∃ (u : State) (c : Channel), exec (.defineChannel tag num node index kind rated cls floor preset) s = .next
          (u.replied 0x20 tag .ok (.channelStored c.cfg.floor c.cfg.preset))
      ∧ u.channel num = some c
      ∧ c.cfg = (match k with
          | .dim => ⟨num, node, index, .dim, rated, cls, min floor 1000, if preset = 0 then 1000 else min preset 1000⟩
          | .switch => ⟨num, node, index, .switch, rated, cls, if 500 ≤ floor then 1000 else 0, 1000⟩
          | .blind => ⟨num, node, index, .blind, rated, 0, 0, 1000⟩)
      ∧ (∀ o, s.channel num = some o → o.cfg.node = node → o.cfg.index = index → o.cfg.kind = k → c = { o with cfg := c.cfg })
      ∧ ((∀ o, s.channel num = some o → ¬ (o.cfg.node = node ∧ o.cfg.index = index ∧ o.cfg.kind = k)) → c = { cfg := c.cfg })
      ∧ (∀ n, n ≠ num → u.channel n = s.channel n)
      ∧ { u with channels := s.channels } = s)
  ∧ (∀ (s : State) (tag : Byte) (num : Nat) (c : Channel), s.Ordered → s.mode = .config → s.store.state ≠ .saving → 1 ≤ num → num ≤ 96 →
    s.channel num = some c →
    ∃ (u : State) (d : Removed), exec (.removeChannel tag num) s = .next (u.replied 0x21 tag .ok (.removed d))
      ∧ u.channels = s.channels.filter (fun x => x.cfg.num ≠ num)
      ∧ (∀ sc ∈ u.scenes, ∀ e ∈ sc.entries, e.channel ≠ num)
      ∧ (∀ sc ∈ s.scenes, (∃ e ∈ sc.entries, e.channel = num) → (∀ e ∈ sc.entries, e.channel = num) → u.scene sc.num = none)
      ∧ (∀ sc ∈ s.scenes, (∀ e ∈ sc.entries, e.channel ≠ num) ∨ (∃ e ∈ sc.entries, e.channel ≠ num) →
          u.scene sc.num = some { sc with entries := sc.entries.filter fun e => e.channel ≠ num })
      ∧ (∀ b, b ∈ u.bindings ↔ b ∈ s.bindings ∧ (∀ l f, b.action ≠ .setChannel num l f) ∧ b.action ≠ .toggleChannel num
          ∧ (∀ sc ∈ s.scenes, (∃ e ∈ sc.entries, e.channel = num) → (∀ e ∈ sc.entries, e.channel = num) → b.action ≠ .takeScene sc.num))
      ∧ { u with channels := s.channels, scenes := s.scenes, bindings := s.bindings } = s
      ∧ d.bindings = s.bindings.length - u.bindings.length ∧ d.scenes = s.scenes.length - u.scenes.length
      ∧ d.entries = ((s.scenes.map (·.entries)).flatten.filter fun e => e.channel = num).length)
  ∧ (∀ (s : State) (tag : Byte) (num node index kind rated cls floor preset : Nat), s.mode = .config → s.store.state ≠ .saving →
    (num < 1 ∨ 96 < num ∨ node < 1 ∨ 119 < node ∨ kind < 1 ∨ 3 < kind ∨ index < 1 ∨ (kind = 1 ∧ 4 < index) ∨ (kind = 2 ∧ 8 < index)
          ∨ (kind = 3 ∧ 2 < index) ∨ 3000 < rated ∨ 7 < cls →
        exec (.defineChannel tag num node index kind rated cls floor preset) s = .next (s.replied 0x20 tag .badValue))
      ∧ (∀ r, s.node node = some r →
        (kind = 1 ∧ r.type ≠ .dimmer4) ∨ (kind = 2 ∧ r.type ≠ .switch8) ∨ (kind = 3 ∧ r.type ≠ .blind2) →
        exec (.defineChannel tag num node index kind rated cls floor preset) s = .next (s.replied 0x20 tag .badValue))
      ∧ (∀ (outs : Nat) (ty : NodeType),
        (kind = 1 ∧ outs = 4 ∧ ty = .dimmer4) ∨ (kind = 2 ∧ outs = 8 ∧ ty = .switch8) ∨ (kind = 3 ∧ outs = 2 ∧ ty = .blind2) →
        1 ≤ num → num ≤ 96 → 1 ≤ node → node ≤ 119 → 1 ≤ index → index ≤ outs → rated ≤ 3000 → cls ≤ 7 →
        (∀ r, s.node node = some r → r.type = ty) →
        (∃ c ∈ s.channels, c.cfg.num ≠ num ∧ c.cfg.node = node ∧ c.cfg.index = index) →
        exec (.defineChannel tag num node index kind rated cls floor preset) s = .next (s.replied 0x20 tag .inUse))
      ∧ (num < 1 ∨ 96 < num → exec (.removeChannel tag num) s = .next (s.replied 0x21 tag .badValue))
      ∧ (1 ≤ num → num ≤ 96 → s.channel num = none → exec (.removeChannel tag num) s = .next (s.replied 0x21 tag .notFound)))

/-! ## Scenes and bindings (chapter 4) -/

/-- DEFINE_SCENE of a payload that holds every entry it announces, all of defined channels and none twice, with room in the pool: the
scene holds the entries in ascending order of channel, in place of what it held, no build stays open, and nothing else changes.
With no room it is FULL, and with a channel undefined NOT_FOUND, and the scene table stands (R69, R71). One that holds fewer than it
announces opens a build in place of any that is open, with the entries it holds, and changes no scene. A scene outside 1..64, a total of
0, above 96 or below the entries held, a channel outside 1..96 or one named twice is BAD_VALUE, and a length other than 6 + 3k for
k of 1..80 is BAD_LENGTH: an open build stands (R69).

SCENE_PART for the scene of the open build: its entries join the build, which stays open with the progress reported while entries
are missing, and is committed as DEFINE_SCENE commits when none is, or refused with NOT_FOUND or FULL, which closes it; an entry already
in the build, one too many, a channel outside 1..96 or one named twice in the part closes the build with BAD_VALUE; with no build
open for the scene the answer is NOT_READY; and a length other than 1 + 3k for k of 1..82 is BAD_LENGTH (R70, R71). -/
def Obligations.ScenesDefined : Prop :=
  (∀ (s : State) (tag : Byte) (p : List Byte) (scene fade : Nat) (es : List SceneEntry), s.store.state ≠ .saving →
    9 ≤ p.length → p.length ≤ 246 → p.length % 3 = 0 → scene = field p 0 1 → fade = field p 1 4 → es = sceneEntries (p.drop 6) →
    field p 5 1 = es.length → 1 ≤ scene → scene ≤ 64 → es.length ≤ 96 → (∀ e ∈ es, 1 ≤ e.channel ∧ e.channel ≤ 96) →
    es.Pairwise (fun a b => a.channel ≠ b.channel) →
      ((∀ e ∈ es, (s.channel e.channel).isSome = true) →
        es.length + s.poolUsed ≤ 1024 + ((s.scene scene).map (·.entries.length)).getD 0 → s.poolUsed ≤ 1024 →
        ∃ (u : State) (sc : Scene), exec (.defineScene tag p) s = .next (u.replied 0x28 tag .ok (.sceneStored es.length u.poolFree))
          ∧ u.scene scene = some sc ∧ sc.num = scene ∧ sc.fade = min fade 600000 ∧ sc.entries.Perm es
          ∧ Rising (sc.entries.map (·.channel))
          ∧ (∀ n, n ≠ scene → u.scene n = s.scene n) ∧ u.build = none
          ∧ { u with scenes := s.scenes, build := s.build } = s)
      ∧ ((∃ e ∈ es, s.channel e.channel = none) →
        exec (.defineScene tag p) s = .next ({ s with build := none }.replied 0x28 tag .notFound))
      ∧ ((∀ e ∈ es, (s.channel e.channel).isSome = true) →
        1024 + ((s.scene scene).map (·.entries.length)).getD 0 < es.length + s.poolUsed → s.poolUsed ≤ 1024 →
        exec (.defineScene tag p) s = .next ({ s with build := none }.replied 0x28 tag .full)))
  ∧ (∀ (s : State) (tag : Byte) (p : List Byte), s.store.state ≠ .saving →
    (∀ (scene total : Nat) (es : List SceneEntry), 9 ≤ p.length → p.length ≤ 246 → p.length % 3 = 0 → scene = field p 0 1 →
      total = field p 5 1 → es = sceneEntries (p.drop 6) →
        (1 ≤ scene → scene ≤ 64 → es.length < total → total ≤ 96 → (∀ e ∈ es, 1 ≤ e.channel ∧ e.channel ≤ 96) →
          es.Pairwise (fun a b => a.channel ≠ b.channel) →
          ∃ b : SceneBuild, exec (.defineScene tag p) s = .next
              ({ s with build := some b }.replied 0x28 tag .ok (.sceneProgress es.length total))
            ∧ b.scene = scene ∧ b.fade = min (field p 1 4) 600000 ∧ b.total = total ∧ b.entries.Perm es
            ∧ Rising (b.entries.map (·.channel)))
        ∧ (scene < 1 ∨ 64 < scene ∨ total = 0 ∨ 96 < total ∨ total < es.length ∨ (∃ e ∈ es, e.channel < 1 ∨ 96 < e.channel)
            ∨ ¬ es.Pairwise (fun a b => a.channel ≠ b.channel) →
          exec (.defineScene tag p) s = .next (s.replied 0x28 tag .badValue)))
    ∧ (p.length < 9 ∨ 246 < p.length ∨ p.length % 3 ≠ 0 → exec (.defineScene tag p) s = .next (s.replied 0x28 tag .badLength))
    ∧ (p.length < 4 ∨ 247 < p.length ∨ p.length % 3 ≠ 1 → exec (.scenePart tag p) s = .next (s.replied 0x29 tag .badLength)))
  ∧ (∀ (s : State) (tag : Byte) (p : List Byte) (es : List SceneEntry), s.store.state ≠ .saving →
    4 ≤ p.length → p.length ≤ 247 → p.length % 3 = 1 → es = sceneEntries (p.drop 1) →
    (∀ e ∈ es, 1 ≤ e.channel ∧ e.channel ≤ 96) → es.Pairwise (fun a b => a.channel ≠ b.channel) →
      (∀ b, s.build = some b → b.scene = field p 0 1 → Rising (b.entries.map (·.channel)) →
        (b.entries.length + es.length < b.total → (∀ e ∈ es, ∀ f ∈ b.entries, f.channel ≠ e.channel) →
          ∃ b', exec (.scenePart tag p) s = .next
                ({ s with build := some b' }.replied 0x29 tag .ok (.sceneProgress (b.entries.length + es.length) b.total))
            ∧ b'.scene = b.scene ∧ b'.fade = b.fade ∧ b'.total = b.total ∧ b'.entries.Perm (b.entries ++ es)
            ∧ Rising (b'.entries.map (·.channel)))
          ∧ (b.entries.length + es.length = b.total → (∀ e ∈ es, ∀ f ∈ b.entries, f.channel ≠ e.channel) →
            (∀ e ∈ b.entries ++ es, (s.channel e.channel).isSome = true) → s.poolUsed ≤ 1024 →
            b.total + s.poolUsed ≤ 1024 + ((s.scene b.scene).map (·.entries.length)).getD 0 →
            ∃ (u : State) (sc : Scene), exec (.scenePart tag p) s = .next (u.replied 0x29 tag .ok (.sceneStored b.total u.poolFree))
              ∧ u.scene b.scene = some sc ∧ sc.fade = b.fade ∧ sc.entries.Perm (b.entries ++ es) ∧ Rising (sc.entries.map (·.channel))
              ∧ (∀ n, n ≠ b.scene → u.scene n = s.scene n) ∧ u.build = none
              ∧ { u with scenes := s.scenes, build := s.build } = s)
          ∧ (b.total < b.entries.length + es.length ∨ (∃ e ∈ es, ∃ f ∈ b.entries, f.channel = e.channel) →
            exec (.scenePart tag p) s = .next ({ s with build := none }.replied 0x29 tag .badValue))
          ∧ (b.entries.length + es.length = b.total → (∀ e ∈ es, ∀ f ∈ b.entries, f.channel ≠ e.channel) →
            ((∃ e ∈ b.entries ++ es, s.channel e.channel = none) →
                exec (.scenePart tag p) s = .next ({ s with build := none }.replied 0x29 tag .notFound))
              ∧ ((∀ e ∈ b.entries ++ es, (s.channel e.channel).isSome = true) → s.poolUsed ≤ 1024 →
                1024 + ((s.scene b.scene).map (·.entries.length)).getD 0 < b.total + s.poolUsed →
                exec (.scenePart tag p) s = .next ({ s with build := none }.replied 0x29 tag .full))))
      ∧ ((∀ b, s.build = some b → b.scene ≠ field p 0 1) → exec (.scenePart tag p) s = .next (s.replied 0x29 tag .notReady)))
  ∧ (∀ (s : State) (tag : Byte) (p : List Byte) (es : List SceneEntry) (b : SceneBuild), s.store.state ≠ .saving →
    4 ≤ p.length → p.length ≤ 247 → p.length % 3 = 1 → es = sceneEntries (p.drop 1) → s.build = some b → b.scene = field p 0 1 →
    (∃ e ∈ es, e.channel < 1 ∨ 96 < e.channel) ∨ ¬ es.Pairwise (fun a b => a.channel ≠ b.channel) →
      exec (.scenePart tag p) s = .next ({ s with build := none }.replied 0x29 tag .badValue))

/-- REMOVE_SCENE of a defined scene: the scene goes with every binding that takes it, the reply gives the entries freed, the pool's free
count and the bindings removed, and every other scene and binding and everything else stands (R72). CLEAR_BINDING empties one occupied
slot, and an empty one is NOT_FOUND (R83).

SET_BINDING of a slot 1..64, a trigger and an action within their ranges, that name records: the slot holds them with fire count 0, every
other slot and everything else stands, and the reply carries the fade time stored. An action or key of no record is NOT_FOUND, and a
key of a node that is no keypad, or key 7 or 8 of a station, is BAD_VALUE (R82).

That the reply's fade time is 0 for an action that stores none is the model's choice (notes/assumptions/33.md). -/
def Obligations.SceneAndBindingEdits : Prop :=
  (∀ (s : State) (tag : Byte) (n : Nat), s.store.state ≠ .saving → 1 ≤ n → n ≤ 64 →
    (∀ sc, s.scene n = some sc →
        ∃ u : State, exec (.removeScene tag n) s = .next (u.replied 0x2A tag .ok (.sceneRemoved sc.entries.length u.poolFree
              (s.bindings.countP fun b => b.action = .takeScene n)))
          ∧ u.scenes = s.scenes.filter (fun x => x.num ≠ n) ∧ u.bindings = s.bindings.filter (fun b => b.action ≠ .takeScene n)
          ∧ { u with scenes := s.scenes, bindings := s.bindings } = s)
      ∧ (s.scene n = none → exec (.removeScene tag n) s = .next (s.replied 0x2A tag .notFound))
      ∧ (∀ b, s.binding n = some b →
        exec (.clearBinding tag n) s = .next
          ({ s with bindings := s.bindings.filter fun b => b.slot ≠ n }.replied 0x2E tag .ok))
      ∧ (s.binding n = none → exec (.clearBinding tag n) s = .next (s.replied 0x2E tag .notFound)))
  ∧ (∀ (s : State) (tag : Byte) (slot tk ak : Nat) (tb ab : List Byte) (t : Trigger) (a : Action), s.store.state ≠ .saving →
    1 ≤ slot → slot ≤ 64 → trigger? tk tb = some t → action? ak ab = some a →
      (s.bindingNamesRecords t a = true → s.keyTriggerFits t = true →
        ∃ u : State, exec (.setBinding tag slot tk tb ak ab) s = .next (u.replied 0x2D tag .ok (.bindingStored a.fade))
          ∧ u.binding slot = some ⟨slot, t, a, 0⟩ ∧ (∀ n, n ≠ slot → u.binding n = s.binding n)
          ∧ { u with bindings := s.bindings } = s)
      ∧ (s.bindingNamesRecords t a = false → exec (.setBinding tag slot tk tb ak ab) s = .next (s.replied 0x2D tag .notFound))
      ∧ (s.bindingNamesRecords t a = true → s.keyTriggerFits t = false →
        exec (.setBinding tag slot tk tb ak ab) s = .next (s.replied 0x2D tag .badValue)))

/-- An event offered in RUN raises the fire count of exactly the bindings whose trigger it equals, saturating at 65,535, and their actions
change channels and the last-take record alone; in CONFIG and STOPPING it changes nothing (R78, R80). -/
def Obligations.EventsFireBindings : Prop :=
  ∀ (s : State) (e : Trigger),
    (s.mode ≠ .run → s.offer e = s)
      ∧ (s.mode = .run → s.Ordered →
        (s.offer e).bindings = s.bindings.map (fun b => if b.trigger = e then { b with fires := min (b.fires + 1) 65535 } else b)
          ∧ { s.offer e with bindings := s.bindings, channels := s.channels, lastTake := s.lastTake } = s
          ∧ (∀ (n : Nat) (c : Channel), s.channels[n]? = some c → ∃ c', (s.offer e).channels[n]? = some c'
            ∧ { c' with staged := c.staged, untouched := c.untouched } = c)
          ∧ ((∀ b ∈ s.bindings, b.trigger ≠ e) → s.offer e = s)
          ∧ (∀ b n, s.bindings.filter (fun b => b.trigger = e) = [b] → b.action = .toggleChannel n →
            (s.offer e).channels = s.channels.map fun c =>
              if c.cfg.num = n then
                { c with staged := some ⟨if 0 < (match c.staged with | some g => g.level | none => c.target) then 0
                                         else conditionLevel c.cfg.kind c.cfg.preset, 0⟩
                         untouched := false }
              else c))

/-! ## The load allocator (chapter 5) -/

/-- The draw and the headroom: an estimate is ceil(rated × output / 1000) for a DIM, the rated watts or 0 for a SWITCH, and for a BLIND the
rated watts while it moves; the committed draw is the base load, each channel's estimate, at its current level while its class is
RESTORING, and the two grants; the headroom is limit less margin less the larger of that and the measured power, which is 0
while a supply input is FAULTED (R50, R60, R87).

A review takes one of three decisions on the headroom as it stands. Below 0 the highest class among 1..7 that is not SHED becomes SHED with
cause REVIEW, its channels' ceilings at their floors; with every class SHED the over-limit counter rises to a most of 3 and
OVER_LIMIT is posted as it reaches 3; otherwise the counter is 0 and, with no class RESTORING, the lowest SHED class becomes
RESTORING when the headroom less its restore cost is at least the hysteresis (R90, R100 to R103). -/
def Obligations.ReviewDecides : Prop :=
  ((∀ (c : Channel) (x : Nat),
      (c.cfg.kind = .dim → c.cfg.rated * x ≤ 1000 * c.estimateAt x ∧ 1000 * c.estimateAt x < c.cfg.rated * x + 1000)
        ∧ (c.cfg.kind = .switch → c.estimateAt x = if x = 1000 then c.cfg.rated else 0)
        ∧ (c.cfg.kind = .blind → c.estimateAt x = if c.moving then c.cfg.rated else 0))
    ∧ (∀ s : State, s.headroom = (s.alloc.limit : Int) - s.alloc.margin -
        (max (s.alloc.base
              + (s.channels.map fun c =>
                  c.estimateAt (if s.classState c.cfg.cls = .restoring then c.current else min c.current c.ceiling)).sum
              + (match s.alloc.hpuGrant with | some g => g.running + g.inrush | none => 0)
              + (match s.alloc.windlassGrant with | some g => g.running + g.inrush | none => 0))
            (if (s.input 1).faulted = true ∨ (s.input 2).faulted = true then 0 else s.sense.window.sum / s.sense.window.length) : Nat)))
  ∧ (∀ s : State,
    (∀ k, s.headroom < 0 → 1 ≤ k → k ≤ 7 → s.classState k ≠ .shed → (∀ j, k < j → j ≤ 7 → s.classState j = .shed) →
        s.review = State.offer
          { s with alloc := { s.alloc with classes := s.alloc.classes.setIfInBounds k .shed }
                   channels := s.channels.map fun c => if c.cfg.cls = k then { c with ceiling := c.cfg.floor } else c
                   link := s.link.post ⟨.shed, k, BitVec.ofNat 8 1 :: leSigned 4 s.headroom, s.uptime⟩ }
          (.shed k .shed))
      ∧ (s.headroom < 0 → (∀ j, 1 ≤ j → j ≤ 7 → s.classState j = .shed) →
        (s.alloc.overLimit < 2 → s.review = s.onAlloc fun a => { a with overLimit := a.overLimit + 1 })
          ∧ (s.alloc.overLimit = 2 → s.review =
            { s with alloc := { s.alloc with overLimit := 3 }, link := s.link.post ⟨.overLimit, 0, leSigned 4 s.headroom, s.uptime⟩ })
          ∧ (3 ≤ s.alloc.overLimit → s.review = s))
      ∧ (0 ≤ s.headroom → (∃ j, 1 ≤ j ∧ j ≤ 7 ∧ s.classState j = .restoring) →
        s.review = s.onAlloc fun a => { a with overLimit := 0 })
      ∧ (0 ≤ s.headroom → (∀ j, 1 ≤ j → j ≤ 7 → s.classState j ≠ .restoring) →
        ((∀ j, 1 ≤ j → j ≤ 7 → s.classState j ≠ .shed) → s.review = s.onAlloc fun a => { a with overLimit := 0 })
          ∧ ∀ j, 1 ≤ j → j ≤ 7 → s.classState j = .shed → (∀ i, 1 ≤ i → i < j → s.classState i ≠ .shed) →
            s.review = s.onAlloc fun a =>
              { a with overLimit := 0
                       classes := if (s.alloc.hysteresis : Int) ≤ s.headroom - s.sheddable j then a.classes.setIfInBounds j .restoring
                                  else a.classes }))

/-- What runs a review: the review timer, which starts again for 500 ms; the end of a motor's inrush window, after which its record holds no
inrush and no expiry; and SET_SUPPLY outside CONFIG, which stores the limit and base load clamped to 200,000 and 100,000. A stopped
timer, an absent record or a record with no inrush expiry does nothing, and a source code above 2 is BAD_VALUE (R85, R94, R100).

That an expiry given early moves the uptime to its moment, and that a stopped timer's expiry does nothing, is the model's choice
(notes/assumptions/7.md). -/
def Obligations.WhatRunsAReview : Prop :=
  ∀ s : State,
    (∀ e, s.alloc.reviewTimer = some e →
        exec .reviewTimerExpiry s = .next ((s.atMoment e).onAlloc fun a => { a with reviewTimer := some (e + 500) }).review)
      ∧ (s.alloc.reviewTimer = none → exec .reviewTimerExpiry s = .next s)
      ∧ (∀ g e, s.alloc.hpuGrant = some g → g.expiry = some e → exec (.inrushExpiry .hpu) s = .next
        ((s.atMoment e).onAlloc fun a => { a with hpuGrant := some { g with inrush := 0, expiry := none } }).review)
      ∧ (∀ g e, s.alloc.windlassGrant = some g → g.expiry = some e → exec (.inrushExpiry .windlass) s = .next
        ((s.atMoment e).onAlloc fun a => { a with windlassGrant := some { g with inrush := 0, expiry := none } }).review)
      ∧ (∀ m, (∀ g, s.grant m = some g → g.expiry = none) → exec (.inrushExpiry m) s = .next s)
      ∧ (∀ (tag : Byte) (limit base source : Nat) (src : SupplySource),
        (source = 0 ∧ src = .shore) ∨ (source = 1 ∧ src = .generator) ∨ (source = 2 ∧ src = .inverter) →
        (s.mode = .config → exec (.setSupply tag limit base source) s = .next
            ((s.onAlloc fun a => { a with limit := min limit 200000, base := min base 100000, source := src }).replied 0x30 tag .ok
              (.supply (min limit 200000) (min base 100000))))
          ∧ (s.mode ≠ .config → exec (.setSupply tag limit base source) s = .next
            ((s.onAlloc fun a => { a with limit := min limit 200000, base := min base 100000, source := src }).review.replied 0x30
              tag .ok (.supply (min limit 200000) (min base 100000)))))
      ∧ (∀ (tag : Byte) (limit base source : Nat), 2 < source →
        exec (.setSupply tag limit base source) s = .next (s.replied 0x30 tag .badValue))

/-- The decision on a request of `r` watts. With enough headroom it is granted and nothing is shed. Otherwise the classes not SHED are walked
from 7 down until their sheddable amounts sum to the shortfall: the class reached and every class above it become SHED, each class
below stands, and the request is granted; where all of them do not reach it, it is refused and nothing changes. Each way the
last-admission record is replaced, and this is all that a refusal changes (R88, R95 to R97).

A motor's grant: a start admission outside RUN, or with a record present, is refused; one that is granted makes the record, with the inrush
kept for its window when both are above 0; a stage admission raises the windlass's running grant and keeps the rest of its record, at
once where the new figure is not above the present one; and the grant asked for is what the allocator decides on. In RUN, each is
the decision above on its watts: granted, with or without shedding, it makes or raises the record and changes nothing else but what
the decision changed, and refused it leaves the record as it was (R92, R95, R96, R98).

That a stage admission at or below the running grant leaves the last admission as it was is an inference (notes/assumptions/14.md). -/
def Obligations.AdmissionsAndGrants : Prop :=
  (∀ (s : State) (who : Requester) (r : Nat),
    ((r : Int) ≤ s.headroom → s.seekWatts who r =
        (s.onAlloc fun a => { a with lastAdmission := some ⟨who, r, s.headroom, none, .granted, none, s.uptime⟩ }, true))
      ∧ ∀ n : Nat, (n : Int) = r - s.headroom → 0 < n →
        ((((List.range 8).filter fun k => k ≠ 0 ∧ s.classState k ≠ .shed).map s.sheddable).sum < n →
            s.seekWatts who r =
              (s.onAlloc fun a => { a with lastAdmission := some ⟨who, r, s.headroom, some n, .refused, none, s.uptime⟩ }, false))
          ∧ ∀ low, 1 ≤ low → low ≤ 7 → s.classState low ≠ .shed →
            (((List.range 8).filter fun k => low < k ∧ s.classState k ≠ .shed).map s.sheddable).sum < n →
            n ≤ (((List.range 8).filter fun k => low ≤ k ∧ s.classState k ≠ .shed).map s.sheddable).sum →
            (s.seekWatts who r).2 = true
              ∧ (s.seekWatts who r).1.alloc.lastAdmission
                = some ⟨who, r, s.headroom, some n, .grantedAfterShed, some low, s.uptime⟩
              ∧ (∀ k, low ≤ k → k ≤ 7 → (s.seekWatts who r).1.classState k = .shed)
              ∧ (∀ k, k < low → (s.seekWatts who r).1.classState k = s.classState k)
              ∧ ∀ (i : Nat) (c : Channel), s.channels[i]? = some c → ∃ c', (s.seekWatts who r).1.channels[i]? = some c' ∧ c'.cfg = c.cfg
                ∧ c'.current = c.current
                ∧ c'.ceiling = if low ≤ c.cfg.cls ∧ c.cfg.cls ≤ 7 ∧ s.classState c.cfg.cls ≠ .shed then c.cfg.floor else c.ceiling)
  ∧ (∀ (s : State) (m : Motor) (g i w : Nat),
    (s.mode ≠ .run ∨ (s.grant m).isSome = true → (s.startAdmission m g i w).2 = false
        ∧ { (s.startAdmission m g i w).1 with alloc := { (s.startAdmission m g i w).1.alloc with lastAdmission := s.alloc.lastAdmission } }
          = s)
      ∧ (s.mode = .run → s.grant m = none → ((g + i : Nat) : Int) ≤ s.headroom →
        (s.startAdmission m g i w).2 = true
          ∧ (s.startAdmission m g i w).1.grant m = some (if 0 < i ∧ 0 < w then ⟨g, i, s.uptime, some (s.uptime + BitVec.ofNat 32 w)⟩
                                                        else ⟨g, 0, s.uptime, none⟩)
          ∧ { (s.startAdmission m g i w).1 with alloc := s.alloc } = s
          ∧ (s.startAdmission m g i w).1.alloc.classes = s.alloc.classes)
      ∧ (∀ x, s.mode = .run → s.alloc.windlassGrant = some x → x.running < g → ((g - x.running : Nat) : Int) ≤ s.headroom →
        (s.stageAdmission g).2 = true ∧ (s.stageAdmission g).1.alloc.windlassGrant = some { x with running := g }
          ∧ { (s.stageAdmission g).1 with alloc := s.alloc } = s)
      ∧ (∀ x, s.mode = .run → s.alloc.windlassGrant = some x → g ≤ x.running → s.stageAdmission g = (s, true))
      ∧ (∀ u given x, s.mode = .run → s.grant m = none →
        s.seekWatts (match m with | .hpu => .hpu | .windlass => .windlassStart) (g + i) = (u, given) →
        x = (if 0 < i ∧ 0 < w then ⟨g, i, s.uptime, some (s.uptime + BitVec.ofNat 32 w)⟩ else ⟨g, 0, s.uptime, none⟩ : Grant) →
          (given = true → s.startAdmission m g i w = (u.onAlloc fun a =>
              match m with | .hpu => { a with hpuGrant := some x } | .windlass => { a with windlassGrant := some x }, true))
            ∧ (given = false → s.startAdmission m g i w = (u, false)))
      ∧ (∀ u given x, s.mode = .run → s.alloc.windlassGrant = some x → x.running < g →
        s.seekWatts .windlassStage (g - x.running) = (u, given) →
          (given = true → s.stageAdmission g = (u.onAlloc fun a => { a with windlassGrant := some { x with running := g } }, true))
            ∧ (given = false → s.stageAdmission g = (u, false))))

/-! ## Sense inputs (chapter 6) -/

/-- A sweep converts all eight inputs: each holds its raw conversion and the value nearest to low + raw × (high − low) / 4095. Five sweeps running
at a rail fault an input and the first off the rails clears it; each monitor trips beyond its limit and arms back within it by the
hysteresis, and stands while the input is FAULTED. The phase counts five sweeps, and at the fifth the supply power joins a window of
eight, unless a supply input is FAULTED; a supply input that becomes FAULTED empties the window. The sweep timer starts again for 10 ms
(R106, R107, R109 to R112).

The whole of a sweep: the conversion, each input in order with its rail check and then its monitors, and the sample; then the readers
of an input that has become FAULTED, the positions, the interlock watch, and the watches of the movers, the pump and the windlass
(R106, R113). An input's fifth sweep at a rail posts SENSE_FAULT and its first off posts SENSE_OK, with its number and raw value;
a monitor that trips posts SENSE_LIMIT with the crossing, the value and the limit and offers its crossing to the bindings (R111,
R112). The order of the readers and watches is the model's choice (notes/assumptions/13.md).

That an expiry given early moves the uptime to its moment, and that a stopped timer's expiry does nothing, is the model's choice
(notes/assumptions/7.md). -/
def Obligations.SweepConverts : Prop :=
  (∀ (s : State) (raw : Vector Raw 8),
    ∃ t, exec (.sweep raw) s = .next t ∧ t.sense.sweepTimer = s.sense.sweepTimer + 10
      ∧ t.uptime = (s.atMoment s.sense.sweepTimer).uptime
      ∧ (∀ (i : Nat) (h : i < 8) (x y : SenseInput), x = s.sense.inputs[i] → y = t.sense.inputs[i] →
          y.settings = x.settings ∧ y.raw = raw[i]
            ∧ 2 * (4095 * (y.scaled - x.settings.low) - (raw[i].toNat : Int) * (x.settings.high - x.settings.low)).natAbs ≤ 4095
            ∧ y.railCount = (if raw[i] = 0 ∨ raw[i] = 4095 then min (x.railCount + 1) 5 else 0)
            ∧ (y.faulted = true ↔ (raw[i] = 0 ∨ raw[i] = 4095) ∧ (x.faulted = true ∨ 4 ≤ x.railCount))
            ∧ (y.faulted = true → y.highTripped = x.highTripped ∧ y.lowTripped = x.lowTripped)
            ∧ (y.faulted = false →
              (y.highTripped = true ↔ if x.highTripped then x.settings.highLimit - x.settings.hysteresis ≤ y.scaled
                                      else x.settings.highLimit < y.scaled)
                ∧ (y.lowTripped = true ↔ if x.lowTripped then y.scaled ≤ x.settings.lowLimit + x.settings.hysteresis
                                         else y.scaled < x.settings.lowLimit)))
      ∧ (s.sense.phase < 4 → t.sense.phase = s.sense.phase + 1)
      ∧ (4 ≤ s.sense.phase → t.sense.phase = 0)
      ∧ (∀ w, w = (if (t.input 1).faulted = true ∧ (s.input 1).faulted = false ∨ (t.input 2).faulted = true ∧ (s.input 2).faulted = false
                   then [] else s.sense.window) →
          (s.sense.phase < 4 ∨ (t.input 1).faulted = true ∨ (t.input 2).faulted = true → t.sense.window = w)
            ∧ (4 ≤ s.sense.phase → (t.input 1).faulted = false → (t.input 2).faulted = false → s.sense.window.length ≤ 8 →
              ∃ p : Nat, t.sense.window = (if w.length = 8 then w.drop 1 else w) ++ [p]
                ∧ 2 * ((100 * p : Int) - max (t.input 1).scaled 0 * max (t.input 2).scaled 0).natAbs ≤ 100)))
  ∧ (∀ (s : State) (raw : Vector Raw 8) (u a b c d : State),
    u = State.supplySample ([1, 2, 3, 4, 5, 6, 7, 8].foldl State.sweepInput
      (((s.atMoment s.sense.sweepTimer).onSense fun n => { n with sweepTimer := s.sense.sweepTimer + 10 }).convert raw)) →
    a = (if (u.input 3).faulted = true ∧ (s.input 3).faulted = false then u.pressureFaulted else u) →
    b = (if (u.input 4).faulted = true ∧ (s.input 4).faulted = false then a.angleHasFaulted .hatch else a) →
    c = (if (u.input 5).faulted = true ∧ (s.input 5).faulted = false then b.angleHasFaulted .platform else b) →
    d = (if (u.input 6).faulted = true ∧ (s.input 6).faulted = false then c.currentFaulted else c) →
      exec (.sweep raw) s = .next (State.deckPass
        ((((((d.reposition .hatch).reposition .platform).watchInterlock).moverSweep .hatch).moverSweep .platform).hpuSweep).windlassSweep s))
  ∧ (∀ (s : State) (i : Nat) (x : SenseInput), 1 ≤ i → i ≤ 8 → x = s.input i →
    (x.raw = 0 ∨ x.raw = 4095 → x.faulted = true ∨ x.railCount < 4 →
        s.railCheck i = s.onInput i fun y => { y with railCount := min (x.railCount + 1) 5 })
      ∧ (x.raw = 0 ∨ x.raw = 4095 → x.faulted = false → 4 ≤ x.railCount → s.railCheck i =
        { (s.onInput i fun y => { y with railCount := 5, faulted := true }).onSense
            (fun n => if i ≤ 2 then { n with window := [] } else n) with
          link := s.link.post ⟨.senseFault, i, leBytes 2 x.raw.toNat, s.uptime⟩ })
      ∧ (x.raw ≠ 0 → x.raw ≠ 4095 → x.faulted = false → s.railCheck i = s.onInput i fun y => { y with railCount := 0 })
      ∧ (x.raw ≠ 0 → x.raw ≠ 4095 → x.faulted = true → s.railCheck i =
        { s.onInput i fun y => { y with railCount := 0, faulted := false } with
          link := s.link.post ⟨.senseOk, i, leBytes 2 x.raw.toNat, s.uptime⟩ })
      ∧ (((s.railCheck i).input i).faulted = true → s.sweepInput i = s.railCheck i)
      ∧ (((s.railCheck i).input i).faulted = false → s.sweepInput i = ((s.railCheck i).highMonitor i).lowMonitor i)
      ∧ (x.highTripped = false → x.scaled ≤ x.settings.highLimit → s.highMonitor i = s)
      ∧ (x.highTripped = false → x.settings.highLimit < x.scaled → s.highMonitor i = State.offer
        { s.onInput i fun y => { y with highTripped := true } with
          link := s.link.post ⟨.senseLimit, i, 1 :: leSigned 2 x.scaled ++ leSigned 2 x.settings.highLimit, s.uptime⟩ }
        (.sense i .aboveHigh))
      ∧ (x.highTripped = true → x.settings.highLimit - x.settings.hysteresis ≤ x.scaled → s.highMonitor i = s)
      ∧ (x.highTripped = true → x.scaled < x.settings.highLimit - x.settings.hysteresis →
        s.highMonitor i = s.onInput i fun y => { y with highTripped := false })
      ∧ (x.lowTripped = false → x.settings.lowLimit ≤ x.scaled → s.lowMonitor i = s)
      ∧ (x.lowTripped = false → x.scaled < x.settings.lowLimit → s.lowMonitor i = State.offer
        { s.onInput i fun y => { y with lowTripped := true } with
          link := s.link.post ⟨.senseLimit, i, 2 :: leSigned 2 x.scaled ++ leSigned 2 x.settings.lowLimit, s.uptime⟩ }
        (.sense i .belowLow))
      ∧ (x.lowTripped = true → x.scaled ≤ x.settings.lowLimit + x.settings.hysteresis → s.lowMonitor i = s)
      ∧ (x.lowTripped = true → x.settings.lowLimit + x.settings.hysteresis < x.scaled →
        s.lowMonitor i = s.onInput i fun y => { y with lowTripped := false }))

/-! ## Settings of CONFIG -/

/-- Each settings request in CONFIG, with no save running and its figures in range, replaces its record whole, answers OK and changes nothing
else but what its rule names: SET_SENSE arms both monitors, and SET_WINDLASS with another counts_per_rev or mm_per_rev makes the rode not
valid, clears rode_uncertain and empties the FIFO. A figure out of range is BAD_VALUE; SET_STATION_MAP refuses a function code above 6, an
address outside 1..119 and a record that is no STATION with BAD_VALUE, and an address without a record with NOT_FOUND (R25, R86, R115,
R118, R119, R140, R161). -/
def Obligations.SettingsStored : Prop :=
  ∀ (s : State) (tag : Byte), s.mode = .config → s.store.state ≠ .saving →
    (∀ rate silence fb f, (rate = 50 ∨ rate = 100) → 1 ≤ silence → silence ≤ 60 →
        (fb = 0 ∧ f = .hold) ∨ (fb = 1 ∧ f = .preset) →
        exec (.setRoomline tag rate silence fb) s = .next ((s.onBus fun b => { b with settings := ⟨rate, silence, f⟩ }).replied 0x10 tag .ok))
      ∧ (∀ rate silence fb, (rate ≠ 50 ∧ rate ≠ 100) ∨ silence < 1 ∨ 60 < silence ∨ 1 < fb →
        exec (.setRoomline tag rate silence fb) s = .next (s.replied 0x10 tag .badValue))
      ∧ (∀ m y, exec (.setAllocation tag m y) s =
        if m ≤ 20000 ∧ y ≤ 10000 then .next ((s.onAlloc fun a => { a with margin := m, hysteresis := y }).replied 0x31 tag .ok)
        else .next (s.replied 0x31 tag .badValue))
      ∧ (∀ n lo hi ll hl y, exec (.setSense tag n lo hi ll hl y) s =
        if 1 ≤ n ∧ n ≤ 8 ∧ y ≤ 32767 ∧ ll ≤ hl then
          .next ((s.onInput n fun x => { x with settings := ⟨lo, hi, ll, hl, y⟩, highTripped := false, lowTripped := false }).replied 0x38 tag .ok)
        else .next (s.replied 0x38 tag .badValue))
      ∧ (∀ f : HpuSettings, exec (.setHpu tag f) s =
        if f.rated ≤ 200000 ∧ f.inrush ≤ 200000 ∧ f.inrushWindow ≤ 10000 ∧ f.readyPressure ≤ 32767 ∧ 100 ≤ f.readyLimit
            ∧ f.readyLimit ≤ 60000 ∧ f.overpressure ≤ 32767 ∧ 10 ≤ f.overTime ∧ f.overTime ≤ 10000 ∧ f.stallPressure ≤ 32767
            ∧ f.runOn ≤ 600000 then
          .next ((s.onHpu fun h => { h with settings := f }).replied 0x40 tag .ok)
        else .next (s.replied 0x40 tag .badValue))
      ∧ (∀ a1 a2 a3 ms, (-32768 ≤ a1 ∧ a1 ≤ 32767) → (-32768 ≤ a2 ∧ a2 ≤ 32767) → (-32768 ≤ a3 ∧ a3 ≤ 32767) →
        (1000 ≤ ms → ms ≤ 600000 →
            exec (.setMover tag 1 a1 a2 a3 ms) s = .next
                ({ s with hatch := { s.hatch with settings := { low := a1, deck := 0, high := a2, timeout := ms } } }.replied 0x41 tag .ok)
              ∧ exec (.setMover tag 2 a1 a2 a3 ms) s = .next
                ({ s with platform := { s.platform with settings := { low := a3, deck := a2, high := a1, timeout := ms } } }.replied
                  0x41 tag .ok))
          ∧ (∀ r, r = 0 ∨ 2 < r ∨ ms < 1000 ∨ 600000 < ms → exec (.setMover tag r a1 a2 a3 ms) s = .next (s.replied 0x41 tag .badValue)))
      ∧ (∀ f : WindlassSettings, windlassBadFigure f = none →
        ∃ u : State, exec (.setWindlass tag f) s = .next ((u.deckPass s).replied 0x48 tag .ok)
          ∧ (f.countsPerRev = s.windlass.settings.countsPerRev → f.mmPerRev = s.windlass.settings.mmPerRev →
            u = s.onWindlass fun w => { w with settings := f })
          ∧ (f.countsPerRev ≠ s.windlass.settings.countsPerRev ∨ f.mmPerRev ≠ s.windlass.settings.mmPerRev →
            u = s.onWindlass fun w => { w with settings := f, rodeValid := false, rodeUncertain := false, fifo := [] }))
      ∧ (∀ f : WindlassSettings, windlassBadFigure f ≠ none → exec (.setWindlass tag f) s = .next (s.replied 0x48 tag .badValue))
      ∧ (∀ addr codes (map : Vector KeyFunction 6) r, 1 ≤ addr → addr ≤ 119 → s.node addr = some r → r.type = .station →
        codes.length = 6 → (∀ i : Fin 6, keyFunction? (codes.getD i 7) = some map[i]) →
        exec (.setStationMap tag addr codes) s = .next ((s.onStation addr fun t => { t with map := map }).replied 0x50 tag .ok))
      ∧ (∀ addr codes, codes.length = 6 →
        (addr < 1 ∨ 119 < addr ∨ (∃ c ∈ codes, 6 < c) → exec (.setStationMap tag addr codes) s = .next (s.replied 0x50 tag .badValue))
          ∧ (1 ≤ addr → addr ≤ 119 → (∀ c ∈ codes, c ≤ 6) →
            (s.node addr = none → exec (.setStationMap tag addr codes) s = .next (s.replied 0x50 tag .notFound))
              ∧ ∀ r, s.node addr = some r → r.type ≠ .station →
                exec (.setStationMap tag addr codes) s = .next (s.replied 0x50 tag .badValue)))

/-! ## The hydraulic power unit and the movers (chapter 7) -/

/-- What follows a deck operation: in STOPPING the part enters CONFIG exactly when the HPU, the movers and the windlass are all at rest or in
FAULT. Where it does not, with no MOVING mover's interlock failing, nothing changes but LAMPS entries in the Roomline queue, and those
only of ACTIVE stations whose lamps the operation has changed and differ from those last delivered; a MOVING mover whose interlock
fails closes its valve and settles with cause INTERLOCK. Outside CONFIG and RECOVERY such a station has a LAMPS entry waiting, or one in
flight with its follow-up mark set, unless the queue is full (R17, R18, R130, R168, R169, R188).

That the three are taken once, at the end of an operation, is the model's choice (notes/assumptions/25.md). -/
def Obligations.DeckPassEffects : Prop :=
  ∀ (s b : State) (drained : Prop),
    (drained ↔ (s.hpu.state = .off ∨ s.hpu.state = .fault) ∧ (s.hatch.state = .atRest ∨ s.hatch.state = .fault)
      ∧ (s.platform.state = .atRest ∨ s.platform.state = .fault) ∧ (s.windlass.state = .idle ∨ s.windlass.state = .fault)) →
      ((∀ m, (s.mover m).state = .moving → s.motionInterlock m = true) → ¬ (s.mode = .stopping ∧ drained) →
        { s.deckPass b with bus := s.bus } = s ∧ { (s.deckPass b).bus with queue := s.bus.queue } = s.bus
          ∧ ∀ x ∈ (s.deckPass b).bus.queue, x ∈ s.bus.queue ∨ (x.kind = .lamps ∧ ∃ t r, s.station x.target = some t
            ∧ s.node x.target = some r ∧ r.state = .active ∧ t.delivered ≠ some (s.lampsOf t)
            ∧ (b.station x.target).map b.lampsOf ≠ some (s.lampsOf t)))
      ∧ (∀ (u : State) (a : Nat) (t : Station) (r : NodeRecord), u = s.deckPass b → u.mode ≠ .config → u.bus.state ≠ .recovery →
        u.station a = some t → u.node a = some r → r.state = .active → t.delivered ≠ some (u.lampsOf t) →
        (b.station a).map b.lampsOf ≠ some (u.lampsOf t) →
        (∃ x ∈ u.bus.queue, x.kind = .lamps ∧ x.target = a ∧ (x.inFlight = true → x.followUp = true)) ∨ 16 ≤ u.bus.queue.length)
      ∧ (∀ m, (s.mover m).state = .moving → (s.mover (otherMover m)).state ≠ .moving → s.motionInterlock m = false →
        ((s.deckPass b).mover m).state = .settling ∧ ((s.deckPass b).mover m).stopCause = some .interlock
          ∧ ((s.deckPass b).mover m).raise = false ∧ ((s.deckPass b).mover m).lower = false)
      ∧ (s.mode = .stopping → ((s.deckPass b).mode = .config ↔ drained))

/-- MOVE in RUN to an end of a mover at rest that nobody owns. At that end already, it completes at once and MOTION_DONE is posted. With its
inputs good and its interlock passed it is accepted with the host as owner: while the pump is STARTING or READY for the other mover it
takes the wait slot, from RUN_ON it takes the pump and moves, and from OFF, with the admission granted, the contactor closes and it
waits for the ready pressure (R120 to R122, R126, R128, R158).

MOVE turned away, with nothing changed but the reply and, for NO_BUDGET, the last-admission record: by a station's ownership, by the host's
own, by FAULT, by a faulted input or, toward AT_DECK, an angle within the deck angle ± 10, by a failing interlock, by a pump in FAULT,
and by a refused admission, in that order; a resource or target that is none is BAD_VALUE (R128).

The interlock of a hatch motion asks for the platform at rest at AT_DECK or SUBMERGED, that of a platform motion with the stow flag for the
hatch at rest and CLOSED, and that of one without it for the hatch neither in WAIT_PUMP nor MOVING; the flag is set where the motion
starts or ends at STOWED, or starts at BETWEEN above the deck angle + 10; and a motion is watched with its own flag (R130). -/
def Obligations.MoveAcceptedOrRefused : Prop :=
  (∀ (s : State) (tag : Byte) (code target : Nat) (m : MoverId) (goal : Position), s.mode = .run →
    ((code = 1 ∧ m = .hatch ∧ ((target = 1 ∧ goal = .closed) ∨ (target = 2 ∧ goal = .opened)))
      ∨ (code = 2 ∧ m = .platform ∧ ((target = 3 ∧ goal = .stowed) ∨ (target = 4 ∧ goal = .atDeck) ∨ (target = 5 ∧ goal = .submerged)))) →
    (s.ownerOf (moverResource m)).owner = .none → (s.mover m).state = .atRest →
      ((s.mover m).position = goal → exec (.move tag code target) s = .next
        (State.replied
          (({ s with link := s.link.post ⟨.motionDone, code, BitVec.ofNat 8 target :: leSigned 2 (s.angle m), s.uptime⟩ } : State).deckPass s)
          0x42 tag .ok))
      ∧ ((s.mover m).position ≠ goal → ¬ (goal = .atDeck ∧ s.platform.inDeckBand (s.angle .platform) = true) →
        s.angleFaulted m = false → (s.input 3).faulted = false →
        ∀ (stow : Bool) (dir : Direction), stow = s.stowFlag m (s.mover m).position goal → s.interlock m stow = true →
          dir = (match goal with
            | .closed => .closing | .opened => .opening | .stowed => .up
            | .atDeck => if s.angle .platform < s.platform.settings.deck then .up else .down
            | _ => .down) →
          (s.hpu.state = .ready → exec (.move tag code target) s = .next
            (((((s.onHpu fun h => { h with waiting := some m }).onMover m fun r =>
                { r with state := .waitPump, motion := some ⟨.target, dir, goal, stow, r.position, none⟩ }).onOwner (moverResource m)
              fun _ => { owner := .host, dir := some dir, target := some (.position goal), acquired := some s.uptime }).deckPass s).replied
              0x42 tag .ok))
          ∧ (∀ h, s.hpu.state = .starting → s.hpu.holder = some h → exec (.move tag code target) s = .next
            (((((s.onHpu fun h => { h with waiting := some m }).onMover m fun r =>
                { r with state := .waitPump, motion := some ⟨.target, dir, goal, stow, r.position, none⟩ }).onOwner (moverResource m)
              fun _ => { owner := .host, dir := some dir, target := some (.position goal), acquired := some s.uptime }).deckPass s).replied
              0x42 tag .ok))
          ∧ (s.hpu.state = .starting → s.hpu.holder = none → exec (.move tag code target) s = .next
            (((((s.onHpu fun h => { h with holder := some m }).onMover m fun r =>
                { r with state := .waitPump, motion := some ⟨.target, dir, goal, stow, r.position, none⟩ }).onOwner (moverResource m)
              fun _ => { owner := .host, dir := some dir, target := some (.position goal), acquired := some s.uptime }).deckPass s).replied
              0x42 tag .ok))
          ∧ (s.hpu.state = .runOn → exec (.move tag code target) s = .next
            (((((s.onHpu fun h => { h with state := .ready, holder := some m, readyTimer := none, runOnTimer := none }).onMover m fun r =>
                { r with
                  state := .moving, motion := some ⟨.target, dir, goal, stow, r.position, some (s.angle m)⟩, raise := dir.raises
                  lower := !dir.raises, travelTimer := some (s.uptime + BitVec.ofNat 32 r.settings.timeout), stall := none }).onOwner
                (moverResource m)
              fun _ => { owner := .host, dir := some dir, target := some (.position goal), acquired := some s.uptime }).deckPass s).replied
              0x42 tag .ok))
          ∧ (∀ a, s.hpu.state = .off →
            s.startAdmission .hpu s.hpu.settings.rated s.hpu.settings.inrush s.hpu.settings.inrushWindow = (a, true) →
            exec (.move tag code target) s = .next
              (((((a.onHpu fun h =>
                  { h with state := .starting, contactor := true, holder := some m
                           readyTimer := some (s.uptime + BitVec.ofNat 32 h.settings.readyLimit) }).onMover m fun r =>
                  { r with state := .waitPump, motion := some ⟨.target, dir, goal, stow, (s.mover m).position, none⟩ }).onOwner
                  (moverResource m)
                fun _ => { owner := .host, dir := some dir, target := some (.position goal), acquired := some s.uptime }).deckPass s).replied
                0x42 tag .ok))))
  ∧ (∀ (s : State) (tag : Byte) (code target : Nat) (m : MoverId) (goal : Position), s.mode = .run →
    (moveTarget? m target = none ∨ mover? code = none → mover? code = some m ∨ mover? code = none →
        exec (.move tag code target) s = .next (s.replied 0x42 tag .badValue))
      ∧ (mover? code = some m → moveTarget? m target = some goal →
        (∀ a, (s.ownerOf (moverResource m)).owner = .station a → exec (.move tag code target) s = .next (s.replied 0x42 tag .notOwner))
          ∧ ((s.ownerOf (moverResource m)).owner = .host → exec (.move tag code target) s = .next (s.replied 0x42 tag .busy))
          ∧ ((s.ownerOf (moverResource m)).owner = .none →
            ((s.mover m).state = .fault → exec (.move tag code target) s = .next (s.replied 0x42 tag .faulted))
              ∧ ((s.mover m).state = .atRest → (s.mover m).position ≠ goal →
                (s.angleFaulted m = true ∨ (s.input 3).faulted = true
                      ∨ (goal = .atDeck ∧ s.platform.inDeckBand (s.angle .platform) = true) →
                    exec (.move tag code target) s = .next (s.replied 0x42 tag .notReady))
                  ∧ (s.angleFaulted m = false → (s.input 3).faulted = false →
                    ¬ (goal = .atDeck ∧ s.platform.inDeckBand (s.angle .platform) = true) →
                    (s.interlock m (s.stowFlag m (s.mover m).position goal) = false →
                        exec (.move tag code target) s = .next (s.replied 0x42 tag .interlock))
                      ∧ (s.interlock m (s.stowFlag m (s.mover m).position goal) = true →
                        (s.hpu.state = .fault → exec (.move tag code target) s = .next (s.replied 0x42 tag .faulted))
                          ∧ ∀ a, s.hpu.state = .off →
                            s.startAdmission .hpu s.hpu.settings.rated s.hpu.settings.inrush s.hpu.settings.inrushWindow = (a, false) →
                            exec (.move tag code target) s = .next (a.replied 0x42 tag .noBudget)))))))
  ∧ (∀ s : State,
    (∀ stow, s.interlock .hatch stow = true ↔
        s.platform.state = .atRest ∧ (s.platform.position = .atDeck ∨ s.platform.position = .submerged))
      ∧ (s.interlock .platform true = true ↔ s.hatch.state = .atRest ∧ s.hatch.position = .closed)
      ∧ (s.interlock .platform false = true ↔ s.hatch.state ≠ .waitPump ∧ s.hatch.state ≠ .moving)
      ∧ (∀ start goal, s.stowFlag .platform start goal = true ↔
        start = .stowed ∨ goal = .stowed ∨ (start = .between ∧ s.platform.settings.deck + 10 < s.angle .platform))
      ∧ (∀ m k, (s.mover m).motion = some k → s.motionInterlock m = s.interlock m k.stow)
      ∧ ∀ angle : Int, s.platform.inDeckBand angle = true ↔ s.platform.settings.deck - 10 ≤ angle ∧ angle ≤ s.platform.settings.deck + 10)

/-- A deck switch event: the switch takes its new state, the other switches stand, and the mover's position is that of its switches, with
AT_DECK where neither is ACTIVE and the angle, not FAULTED, lies within 10 of the deck angle. A MOVING mover whose end's switch becomes
ACTIVE closes its valve and settles, with cause TARGET or END by its motion's kind (R117, R125, R131). -/
def Obligations.DeckSwitchEvents : Prop :=
  ∀ (s : State) (sw : DeckSwitch) (active : Bool),
    ∃ t, exec (.deckSwitchEvent sw active) s = .next t
      ∧ t.hatch.lowSw = (if sw = .hatchClosed then active else s.hatch.lowSw)
      ∧ t.hatch.highSw = (if sw = .hatchOpen then active else s.hatch.highSw)
      ∧ t.platform.lowSw = (if sw = .platSubmerged then active else s.platform.lowSw)
      ∧ t.platform.highSw = (if sw = .platStowed then active else s.platform.highSw)
      ∧ (sw = .hatchClosed ∨ sw = .hatchOpen → t.platform.position = s.platform.position
        ∧ t.hatch.position = (if t.hatch.lowSw = t.hatch.highSw then .between else if t.hatch.lowSw then .closed else .opened))
      ∧ (sw = .platStowed ∨ sw = .platSubmerged → t.hatch.position = s.hatch.position
        ∧ t.platform.position =
          (if t.platform.lowSw ∧ t.platform.highSw then .between
           else if t.platform.lowSw then .submerged
           else if t.platform.highSw then .stowed
           else if s.angleFaulted .platform = false ∧ s.platform.settings.deck - 10 ≤ s.angle .platform
               ∧ s.angle .platform ≤ s.platform.settings.deck + 10 then .atDeck
           else .between))
      ∧ (∀ m k, m = switchMover sw → active = true → s.switchState sw = false → (s.mover m).state = .moving →
          (s.mover m).motion = some k → k.goal = switchEnd sw →
          (t.mover m).state = .settling ∧ (t.mover m).raise = false ∧ (t.mover m).lower = false
            ∧ (t.mover m).stopCause = some (match k.kind with | .target => .target | .jog => .ended)
            ∧ (t.mover m).settleTimer = some (s.uptime + 500))

/-- The travel timer of a MOVING mover expires: its valve closes and it settles for 500 ms with cause TRAVEL_TIMEOUT. A settle that ends with
a fault cause, a pending fault, or a switch ACTIVE more than 50 from its end's angle sends the mover to FAULT, posts DECK_FAULT and
offers it; another leaves it AT_REST, with MOTION_DONE for TARGET and END, MOTION_STOPPED for another, and the completion event
of an end it did not start from. Each way its record is released, its motion ends, and as holder it hands the pump over, to the mover
that waits where its interlock passes (R122, R132, R134, R159).

The ready time limit expires in STARTING: the pump enters FAULT with cause NO_PRESSURE, its contactor open and its grant gone, and the
movers that wait return to rest. The run-on expires: the pump is OFF, its contactor open and its grant gone. Stopped timers do not
expire (R122, R123, R133).

A MOVING mover at a sweep: it arrives at the deck where its end is AT_DECK and the angle has entered the band from outside; STALL stops
it at 2,000 ms of stall pressure with the angle within 5 of the watch's reference, and SWITCH_MISSING with the angle more than 30
beyond its end and that end's switch INACTIVE. Its angle input becoming FAULTED stops it, sends a waiting mover to rest, and counts in
SETTLING and FAULT (R131 to R135).

The pump at a sweep: the overpressure watch reaching its time faults it, or counts in FAULT; in STARTING the ready pressure gives the
pump to a holder, or else a waiter, whose interlock passes, and a pump with neither runs on; and its input becoming FAULTED
faults a running pump (R121 to R124). The order of two at one sweep is the model's choice
(notes/assumptions/13.md), and that the overpressure watch is idle in OFF is an inference (notes/assumptions/20.md).

What an expiry does early or at a stopped timer is the model's choice (notes/assumptions/7.md), and so is the side beyond an end where
both end angles are equal (notes/assumptions/35.md). -/
def Obligations.MoverAndPumpTimers : Prop :=
  (∀ (s : State) (m : MoverId), s.DeckLaw →
    (∀ e, (s.mover m).travelTimer = some e →
        ∃ t, exec (.travelTimeout m) s = .next t ∧ (t.mover m).state = .settling ∧ (t.mover m).stopCause = some .travelTimeout
          ∧ (t.mover m).raise = false ∧ (t.mover m).lower = false ∧ (t.mover m).settleTimer = some (t.uptime + 500)
          ∧ t.uptime = (s.atMoment e).uptime)
      ∧ ((s.mover m).travelTimer = none → exec (.travelTimeout m) s = .next s)
      ∧ ((s.mover m).settleTimer = none → exec (.moverSettleExpiry m) s = .next s)
      ∧ (∀ e, (s.mover m).settleTimer = some e →
        ∃ t, exec (.moverSettleExpiry m) s = .next t ∧ t.ownerOf (moverResource m) = {} ∧ (t.mover m).motion = none
          ∧ (t.mover m).stopCause = none ∧ (t.mover m).pendingFault = none ∧ t.hpu.holder ≠ some m
          ∧ (∀ c, (s.mover m).stopCause = some c → c.isFault = true →
            (t.mover m).state = .fault
              ∧ (t.mover m).fault = some ⟨c, (s.mover m).stopLater⟩)
          ∧ (∀ c p, (s.mover m).stopCause = some c → c.isFault = false → (s.mover m).pendingFault = some p →
            (t.mover m).state = .fault
              ∧ (t.mover m).fault = some (if s.angleFaulted m = false ∧ (s.mover m).disagrees (s.angle m) = true then
                    { p with later := min (p.later + 1) 255 } else p))
          ∧ (∀ c, (s.mover m).stopCause = some c → c.isFault = false → (s.mover m).pendingFault = none →
            (s.angleFaulted m = false → (s.mover m).disagrees (s.angle m) = true →
                (t.mover m).state = .fault ∧ (t.mover m).fault = some ⟨.sensorDisagree, 0⟩)
              ∧ (s.angleFaulted m = true ∨ (s.mover m).disagrees (s.angle m) = false → (t.mover m).state = .atRest))
          ∧ ∃ told left u : State, t = u.deckPass s
            ∧ left = (told.onOwner (moverResource m) fun _ => {}).onMover m (fun r =>
              { r with motion := none, stopCause := none, stopLater := 0, pendingFault := none })
            ∧ (s.hpu.holder ≠ some m → u = left) ∧ (s.hpu.holder = some m → left.HandedOver u)
            ∧ ∀ (v : State) (src : Nat) (res : DeckResource), v = s.atMoment e →
              (m = .hatch → src = 1 ∧ res = .hatch) → (m = .platform → src = 2 ∧ res = .platform) →
              (∀ f, (t.mover m).state = .fault → (t.mover m).fault = some f →
                told = State.offer
                  { v.onMover m (fun r => { r with state := .fault, fault := some f, settleTimer := none }) with
                    link := v.link.post ⟨.deckFault, src,
                      BitVec.ofNat 8 f.cause.code :: BitVec.ofNat 8 f.later :: leSigned 2 (s.angle m), v.uptime⟩ }
                  (.deck (.fault res)))
              ∧ (∀ (c : Cause) (k : Motion) (posted : State), (t.mover m).state = .atRest → (s.mover m).stopCause = some c →
                (s.mover m).motion = some k →
                posted = { v.onMover m (fun r => { r with state := .atRest, settleTimer := none }) with
                  link := v.link.post (if c = .target ∨ c = .ended then
                      ⟨.motionDone, src, BitVec.ofNat 8 (s.mover m).position.code :: leSigned 2 (s.angle m), v.uptime⟩
                    else ⟨.motionStopped, src, BitVec.ofNat 8 c.code :: BitVec.ofNat 8 (s.mover m).position.code
                      :: leSigned 2 (s.angle m), v.uptime⟩) } →
                ((s.mover m).position = k.from_ ∨ (s.mover m).position = .between → told = posted)
                  ∧ ∀ ev, (s.mover m).position ≠ k.from_ →
                    ((s.mover m).position, ev) ∈ [(Position.opened, DeckEvent.hatchOpened), (.closed, .hatchClosed),
                      (.stowed, .platformStowed), (.atDeck, .platformAtDeck), (.submerged, .platformSubmerged)] →
                    told = posted.offer (.deck ev))))
  ∧ (∀ s : State,
    (s.hpu.readyTimer = none → exec .hpuReadyTimeout s = .next s)
      ∧ (s.hpu.runOnTimer = none → exec .runOnExpiry s = .next s)
      ∧ (∀ e, s.hpu.readyTimer = some e →
        ∃ t, exec .hpuReadyTimeout s = .next t ∧ t.hpu.state = .fault ∧ t.hpu.fault = some ⟨.noPressure, 0⟩ ∧ t.hpu.contactor = false
          ∧ t.hpu.holder = none ∧ t.hpu.waiting = none ∧ t.hpu.readyTimer = none ∧ t.alloc.hpuGrant = none
          ∧ ∀ m, s.hpu.holder = some m ∧ (s.mover m).state = .waitPump ∨ s.hpu.waiting = some m →
            (t.mover m).state = .atRest ∧ (t.mover m).motion = none ∧ t.ownerOf (moverResource m) = {})
      ∧ (∀ e, s.hpu.runOnTimer = some e →
        ∃ t, exec .runOnExpiry s = .next t ∧ t.hpu.state = .off ∧ t.hpu.contactor = false ∧ t.hpu.holder = none ∧ t.hpu.waiting = none
          ∧ t.hpu.runOnTimer = none ∧ t.alloc.hpuGrant = none))
  ∧ (∀ (s : State) (m : MoverId) (r : Mover) (settle : Cause → State), r = s.mover m →
    (∀ c, settle c = s.onMover m fun x =>
      { x with state := .settling, raise := false, lower := false, travelTimer := none, stall := none, stopCause := some c, stopLater := 0
               pendingFault := none, settleTimer := some (s.uptime + 500) }) →
      (r.motion = none ∨ r.state ≠ .moving → s.moverSweep m = s)
      ∧ (∀ k (arrives missing : Prop), r.motion = some k → r.state = .moving →
        (arrives ↔ k.goal = .atDeck ∧ s.angleFaulted m = false ∧ r.inDeckBand (s.angle m) = true
          ∧ ∃ a, k.startAngle = some a ∧ r.inDeckBand a = false) →
        (missing ↔ ((k.goal = .closed ∨ k.goal = .submerged) ∧ r.lowSw = false
              ∧ (if r.settings.low ≤ r.settings.high then s.angle m < r.settings.low - 30 else r.settings.low + 30 < s.angle m))
            ∨ ((k.goal = .opened ∨ k.goal = .stowed) ∧ r.highSw = false
              ∧ (if r.settings.high ≤ r.settings.low then s.angle m < r.settings.high - 30 else r.settings.high + 30 < s.angle m))) →
        (arrives → s.moverSweep m = settle (match k.kind with | .target => .target | .jog => .ended))
          ∧ (¬ arrives → ∀ (w : Option StallWatch) (stalls : Prop),
            (r.stall = none → ¬ stalls ∧
              w = if (s.hpu.settings.stallPressure : Int) ≤ s.pressure then some ⟨s.uptime, s.angle m⟩ else none) →
            (∀ x, r.stall = some x →
              (s.pressure < s.hpu.settings.stallPressure ∨ 5 ≤ (s.angle m - x.ref).natAbs → ¬ stalls ∧ w = none)
                ∧ ((s.hpu.settings.stallPressure : Int) ≤ s.pressure → (s.angle m - x.ref).natAbs < 5 →
                  w = some x ∧ (stalls ↔ 2000 ≤ (s.uptime - x.start).toNat))) →
            (stalls → s.moverSweep m = settle .stall)
              ∧ (¬ stalls → missing → s.moverSweep m = settle .switchMissing)
              ∧ (¬ stalls → ¬ missing → s.moverSweep m = s.onMover m fun x => { x with stall := w })))
      ∧ (r.state = .atRest → s.angleHasFaulted m = s)
      ∧ (r.state = .moving → s.angleHasFaulted m = settle .sensorFault)
      ∧ (r.state = .waitPump → ((s.angleHasFaulted m).mover m).state = .atRest ∧ ((s.angleHasFaulted m).mover m).motion = none
        ∧ (s.angleHasFaulted m).ownerOf (moverResource m) = {}
        ∧ (s.mode ≠ .stopping → (s.angleHasFaulted m).link = s.link.post
          ⟨.motionStopped, match m with | .hatch => 1 | .platform => 2,
            13 :: BitVec.ofNat 8 r.position.code :: leSigned 2 (s.angle m), s.uptime⟩))
      ∧ (r.state = .settling →
        (∀ p, r.pendingFault = some p →
            s.angleHasFaulted m = s.onMover m fun x => { x with pendingFault := some { p with later := min (p.later + 1) 255 } })
          ∧ (r.pendingFault = none → (∃ c, r.stopCause = some c ∧ c.isFault = true) →
            s.angleHasFaulted m = s.onMover m fun x => { x with stopLater := min (x.stopLater + 1) 255 })
          ∧ (r.pendingFault = none → (∀ c, r.stopCause = some c → c.isFault = false) →
            s.angleHasFaulted m = s.onMover m fun x => { x with pendingFault := some ⟨.sensorFault, 0⟩ }))
      ∧ (∀ f, r.state = .fault → r.fault = some f →
        s.angleHasFaulted m = s.onMover m fun x => { x with fault := some { f with later := min (f.later + 1) 255 } }))
  ∧ (∀ (s : State) (w : Option Uptime) (trips : Prop),
    WatchAt s.uptime ((s.hpu.settings.overpressure : Int) < s.pressure) s.hpu.settings.overTime s.hpu.overWatch w trips →
      (s.hpu.state = .off → s.hpuSweep = s.onHpu fun h => { h with overWatch := none })
      ∧ (∀ f, s.hpu.state = .fault → s.hpu.fault = some f →
        (trips → s.hpuSweep = s.onHpu fun h => { h with overWatch := w, fault := some { f with later := min (f.later + 1) 255 } })
          ∧ (¬ trips → s.hpuSweep = s.onHpu fun h => { h with overWatch := w }))
      ∧ (s.hpu.state ≠ .off → s.hpu.state ≠ .fault → trips → s.PumpFaulted s.hpuSweep .overpressure)
      ∧ (s.hpu.state ≠ .off → s.hpu.state ≠ .fault → s.PumpFaulted s.pressureFaulted .sensorFault)
      ∧ (s.hpu.state = .off → s.pressureFaulted = s)
      ∧ (∀ f, s.hpu.state = .fault → s.hpu.fault = some f →
        s.pressureFaulted = s.onHpu fun h => { h with fault := some { f with later := min (f.later + 1) 255 } })
      ∧ (s.hpu.state = .ready ∨ s.hpu.state = .runOn ∨ (s.hpu.state = .starting ∧ s.pressure < s.hpu.settings.readyPressure) →
        ¬ trips → s.hpuSweep = s.onHpu fun h => { h with overWatch := w })
      ∧ (s.hpu.state = .starting → (s.hpu.settings.readyPressure : Int) ≤ s.pressure → ¬ trips →
        (∀ m, s.hpu.holder = some m ∨ (s.hpu.holder = none ∧ s.hpu.waiting = some m) → s.motionInterlock m = true →
            s.hpuSweep = State.onMover
              (s.onHpu fun h =>
                { h with overWatch := w, state := .ready, holder := some m, readyTimer := none, runOnTimer := none
                         waiting := if h.holder = none then none else h.waiting }) m fun r =>
                { r with
                  state := .moving, raise := r.motion.any (·.dir.raises), lower := !r.motion.any (·.dir.raises)
                  travelTimer := some (s.uptime + BitVec.ofNat 32 r.settings.timeout), stall := none
                  motion := r.motion.map fun k => { k with startAngle := some (s.angle m) } })
          ∧ (∀ m, s.hpu.holder = some m ∧ s.hpu.waiting ≠ some m ∨ (s.hpu.holder = none ∧ s.hpu.waiting = some m) →
            s.motionInterlock m = false →
            (s.hpuSweep.mover m).state = .atRest ∧ (s.hpuSweep.mover m).motion = none ∧ s.hpuSweep.ownerOf (moverResource m) = {})
          ∧ (s.hpu.holder = none → s.hpu.waiting = none → s.mode ≠ .stopping → s.hpu.settings.runOn ≠ 0 →
            s.hpuSweep = s.onHpu fun h =>
              { h with overWatch := w, state := .runOn, readyTimer := none, runOnTimer := some (s.uptime + BitVec.ofNat 32 h.settings.runOn) })
          ∧ (s.hpu.holder = none → s.hpu.waiting = none → s.mode = .stopping ∨ s.hpu.settings.runOn = 0 →
            s.hpuSweep.hpu.state = .off ∧ s.hpuSweep.hpu.contactor = false ∧ s.hpuSweep.alloc.hpuGrant = none)))

/-- STOP_MOTION, in every mode and while a save runs, stops the movers and the windlass that its code names, whoever owns them: a MOVING mover
and a windlass under way settle with cause STOP_REQUEST, a waiting mover returns to rest, and a resource at rest, settling or in FAULT
stands. It is answered OK whether or not anything moved, and another code is BAD_VALUE (R133, R136, R153, R156). -/
def Obligations.StopMotionStops : Prop :=
  ∀ (s : State) (tag : Byte) (code : Nat),
    (3 < code → exec (.stopMotion tag code) s = .next (s.replied 0x43 tag .badValue))
      ∧ (code ≤ 3 → ∃ u : State, exec (.stopMotion tag code) s = .next (u.replied 0x43 tag .ok)
        ∧ (∀ m, code = 0 ∨ (code = 1 ∧ m = .hatch) ∨ (code = 2 ∧ m = .platform) →
            ((s.mover m).state = .moving → (u.mover m).state = .settling ∧ (u.mover m).stopCause = some .stopRequest
                ∧ (u.mover m).raise = false ∧ (u.mover m).lower = false ∧ (u.mover m).settleTimer = some (s.uptime + 500))
              ∧ ((s.mover m).state = .waitPump → (u.mover m).state = .atRest ∧ u.ownerOf (moverResource m) = {})
              ∧ ((s.mover m).state = .atRest ∨ (s.mover m).state = .settling ∨ (s.mover m).state = .fault → u.mover m = s.mover m))
        ∧ (code = 0 ∨ code = 3 →
            (s.windlass.underWay = true → u.windlass.state = .stopping ∧ u.windlass.stopCause = some .stopRequest
                ∧ u.windlass.contactorClosed = false ∧ u.windlass.stage2 = false ∧ u.windlass.brakeRelease = false
                ∧ u.windlass.settleTimer = some (s.uptime + 300))
              ∧ (s.windlass.underWay = false → u.windlass = s.windlass))
        ∧ (code = 1 ∨ code = 2 → u.windlass = s.windlass))

/-- CLEAR_FAULT, in every mode and while a save runs: in FAULT with a fault condition present it is refused with CONDITION_PRESENT and nothing
changes; in FAULT with none the fault record becomes absent and the resource is at rest, the pump OFF with its overpressure watch idle;
not in FAULT it is answered OK and nothing changes; that another code is BAD_VALUE is the model's choice (notes/assumptions/15.md).

A mover's condition: its angle input FAULTED, a switch ACTIVE with the angle more than 50 from its end, or the angle more than 30 beyond an
end, away from the other, with that end's switch INACTIVE. The windlass's: its current input FAULTED, or above the overload current, or
the supply good and below the low limit of input 1. The pump's: its pressure input FAULTED, or above the overpressure (R124, R135, R155).

The side beyond an end where both end angles of a mover are equal is the model's choice (notes/assumptions/35.md). -/
def Obligations.ClearFaultClears : Prop :=
  ∀ (s : State) (tag : Byte),
    (∀ code, code = 0 ∨ 4 < code → exec (.clearFault tag code) s = .next (s.replied 0x44 tag .badValue))
      ∧ (∀ code m (angle : SenseInput) (r : Mover) (condition : Prop),
        (code = 1 ∧ m = .hatch ∧ angle = s.input 4) ∨ (code = 2 ∧ m = .platform ∧ angle = s.input 5) → r = s.mover m →
        (condition ↔ angle.faulted = true
          ∨ (r.lowSw = true ∧ 50 < (angle.scaled - r.settings.low).natAbs)
          ∨ (r.highSw = true ∧ 50 < (angle.scaled - r.settings.high).natAbs)
          ∨ (r.lowSw = false ∧ (if r.settings.low ≤ r.settings.high then angle.scaled < r.settings.low - 30
              else r.settings.low + 30 < angle.scaled))
          ∨ (r.highSw = false ∧ (if r.settings.high ≤ r.settings.low then angle.scaled < r.settings.high - 30
              else r.settings.high + 30 < angle.scaled))) →
        ((s.mover m).state = .fault → condition →
            exec (.clearFault tag code) s = .next (s.replied 0x44 tag .conditionPresent))
          ∧ ((s.mover m).state = .fault → ¬ condition → exec (.clearFault tag code) s = .next
            (((s.onMover m fun r => { r with state := .atRest, fault := none }).deckPass s).replied 0x44 tag .ok))
          ∧ ((s.mover m).state ≠ .fault → exec (.clearFault tag code) s = .next ((s.deckPass s).replied 0x44 tag .ok)))
      ∧ (s.windlass.state = .fault → (s.input 6).faulted = true ∨ (s.windlass.settings.overCurrent : Int) < (s.input 6).scaled
          ∨ ((s.input 1).faulted = false ∧ (s.input 1).scaled < (s.input 1).settings.lowLimit) →
        exec (.clearFault tag 3) s = .next (s.replied 0x44 tag .conditionPresent))
      ∧ (s.windlass.state = .fault → (s.input 6).faulted = false → (s.input 6).scaled ≤ s.windlass.settings.overCurrent →
        (s.input 1).faulted = true ∨ (s.input 1).settings.lowLimit ≤ (s.input 1).scaled → exec (.clearFault tag 3) s = .next
        (((s.onWindlass fun w => { w with state := .idle, fault := none }).deckPass s).replied 0x44 tag .ok))
      ∧ (s.windlass.state ≠ .fault → exec (.clearFault tag 3) s = .next ((s.deckPass s).replied 0x44 tag .ok))
      ∧ (s.hpu.state = .fault → ((s.input 3).faulted = true ∨ (s.hpu.settings.overpressure : Int) < (s.input 3).scaled) →
        exec (.clearFault tag 4) s = .next (s.replied 0x44 tag .conditionPresent))
      ∧ (s.hpu.state = .fault → (s.input 3).faulted = false → (s.input 3).scaled ≤ s.hpu.settings.overpressure →
        exec (.clearFault tag 4) s = .next
          (((s.onHpu fun h => { h with state := .off, fault := none, overWatch := none }).deckPass s).replied 0x44 tag .ok))
      ∧ (s.hpu.state ≠ .fault → exec (.clearFault tag 4) s = .next ((s.deckPass s).replied 0x44 tag .ok))

/-! ## The windlass (chapter 8) -/

/-- PAY_OUT_TO, HEAVE_TO and HEAVE_HOME in RUN, with no owner and no fault. A seek on a trusted rode whose distance, in counts of the
target clamped to 0..max rode, is within the stop band completes at once with ANCHOR_AT_TARGET; further off, and HEAVE_HOME with
the home switch INACTIVE, it starts a run where WINDLASS_I is good and the admission of G1 and the inrush is granted: the windlass
is STARTING with the host as owner, and its direction contactor closes at once, with the brake timer at 100 ms, where its deadband
has passed, and stays open otherwise. HEAVE_HOME with the switch ACTIVE sets the rode to 0, trusted, at once (R143, R146 to R148,
R150, R158).

A windlass request is turned away, with nothing changed but the reply and, for NO_BUDGET, the last-admission record: by a
station's ownership, the host's own, FAULT, a rode not trusted for a seek, a faulted current input, and a refused admission, in
that order. SET_RODE outside IDLE is BUSY, and above the max rode BAD_VALUE; otherwise the count becomes the length's counts, the
FIFO is emptied and the rode is trusted (R144, R147, R148).

That HEAVE_HOME records no target is an inference (notes/assumptions/23.md), and that its run keeps target counts and mm of 0 the model's
choice (notes/assumptions/21.md); so are that a seek that completes at once is answered with its status alone (notes/assumptions/4.md),
and that SET_RODE outside IDLE is BUSY whatever its length (notes/assumptions/15.md). That a deadband's reading further than 500 ms
ahead has passed is an inference (notes/assumptions/6.md). -/
def Obligations.WindlassRequests : Prop :=
  (∀ (s : State) (tag : Byte), s.mode = .run → s.windlassOwner.owner = .none → s.windlass.state ≠ .fault →
    (∀ (kind : Byte) (i : Instr) (dir : RodeDir) (target mm counts : Int),
        (kind = 0x49 ∧ i = .payOutTo tag target ∧ dir = .payOut) ∨ (kind = 0x4A ∧ i = .heaveTo tag target ∧ dir = .heave) →
        s.windlass.rodeValid = true → s.windlass.rodeUncertain = false →
        mm = max 0 (min target s.windlass.settings.maxRode) → counts = s.windlass.toCounts mm →
        (s.windlass.distanceTo dir counts ≤ s.windlass.toCounts s.windlass.settings.stopBand →
            exec i s = .next ((State.deckPass
              { s with link := s.link.post ⟨.anchorAtTarget, 3,
                        leSigned 4 s.windlass.rode ++ leSigned 2 (s.windlass.position - counts), s.uptime⟩ } s).replied kind tag .ok))
          ∧ ∀ a, s.windlass.toCounts s.windlass.settings.stopBand < s.windlass.distanceTo dir counts → (s.input 6).faulted = false →
            s.startAdmission .windlass s.windlass.settings.g1 s.windlass.settings.inrush s.windlass.settings.inrushWindow = (a, true) →
            exec i s = .next ((State.deckPass
              { a with
                windlass := { a.windlass with
                  state := .starting
                  run := some { kind := .seek, dir := dir, target := counts, targetMm := mm, asked := false }
                  payOut := if s.deadband dir = 0 then decide (dir = .payOut) else s.windlass.payOut
                  heave := if s.deadband dir = 0 then decide (dir = .heave) else s.windlass.heave
                  brakeTimer := if s.deadband dir = 0 then some (s.uptime + 100) else s.windlass.brakeTimer }
                windlassOwner := { owner := .host, dir := some (match dir with | .payOut => .out | .heave => .inward)
                                   target := some (.rode mm), acquired := some s.uptime } } s).replied kind tag .ok (.seek mm counts)))
      ∧ (s.windlass.homeSw = true → exec (.heaveHome tag) s = .next ((State.deckPass
          { s with windlass := { s.windlass with count := 0, fifo := [], decodeErrors := 0, rodeValid := true, rodeUncertain := false }
                   link := s.link.post ⟨.anchorHome, 3, [0, 0, 0, 0], s.uptime⟩ } s).replied 0x4B tag .ok))
      ∧ (∀ a, s.windlass.homeSw = false → (s.input 6).faulted = false →
        s.startAdmission .windlass s.windlass.settings.g1 s.windlass.settings.inrush s.windlass.settings.inrushWindow = (a, true) →
        exec (.heaveHome tag) s = .next ((State.deckPass
          { a with
            windlass := { a.windlass with
              state := .starting, run := some { kind := .home, dir := .heave, target := 0, targetMm := 0, asked := false }
              payOut := if s.deadband .heave = 0 then false else s.windlass.payOut
              heave := if s.deadband .heave = 0 then true else s.windlass.heave
              brakeTimer := if s.deadband .heave = 0 then some (s.uptime + 100) else s.windlass.brakeTimer }
            windlassOwner := { owner := .host, dir := some .inward, target := none, acquired := some s.uptime } } s).replied 0x4B tag .ok)))
  ∧ (∀ (s : State) (tag : Byte),
    (∀ (kind : Byte) (i : Instr) (dir : RodeDir) (target : Int), s.mode = .run →
        (kind = 0x49 ∧ i = .payOutTo tag target ∧ dir = .payOut) ∨ (kind = 0x4A ∧ i = .heaveTo tag target ∧ dir = .heave)
          ∨ (kind = 0x4B ∧ i = .heaveHome tag ∧ dir = .heave) →
        (∀ a, s.windlassOwner.owner = .station a → exec i s = .next (s.replied kind tag .notOwner))
          ∧ (s.windlassOwner.owner = .host → exec i s = .next (s.replied kind tag .busy))
          ∧ (s.windlassOwner.owner = .none → s.windlass.state = .fault → exec i s = .next (s.replied kind tag .faulted))
          ∧ (s.windlassOwner.owner = .none → s.windlass.state ≠ .fault →
            (kind ≠ 0x4B → s.windlass.rodeValid = false ∨ s.windlass.rodeUncertain = true →
                exec i s = .next (s.replied kind tag .notReady))
              ∧ ((kind = 0x4B ∧ s.windlass.homeSw = false)
                  ∨ (kind ≠ 0x4B ∧ s.windlass.rodeValid = true ∧ s.windlass.rodeUncertain = false
                    ∧ s.windlass.toCounts s.windlass.settings.stopBand
                      < s.windlass.distanceTo dir (s.windlass.toCounts (max 0 (min target s.windlass.settings.maxRode)))) →
                ((s.input 6).faulted = true → exec i s = .next (s.replied kind tag .notReady))
                  ∧ ∀ a, (s.input 6).faulted = false →
                    s.startAdmission .windlass s.windlass.settings.g1 s.windlass.settings.inrush s.windlass.settings.inrushWindow
                      = (a, false) →
                    exec i s = .next (a.replied kind tag .noBudget))))
      ∧ (∀ len, s.windlass.state ≠ .idle → exec (.setRode tag len) s = .next (s.replied 0x4C tag .busy))
      ∧ (∀ len, s.windlass.state = .idle → s.windlass.settings.maxRode < len →
        exec (.setRode tag len) s = .next (s.replied 0x4C tag .badValue))
      ∧ (∀ len, s.windlass.state = .idle → len ≤ s.windlass.settings.maxRode →
        ∃ u : State, exec (.setRode tag len) s = .next ((u.deckPass s).replied 0x4C tag .ok (.rode u.windlass.position u.windlass.rode))
          ∧ u = s.onWindlass fun w => { w with count := BitVec.ofInt 32 (w.toCounts len), fifo := [], decodeErrors := 0
                                               rodeValid := true, rodeUncertain := false }))

/-- The conversions: the counts of a length are the nearest whole number to length × counts_per_rev / mm_per_rev, halves away from zero, and
the rode is count × mm_per_rev / counts_per_rev truncated towards zero (R143).

The gypsy: a count step adds 1 paying out and takes 1 heaving, wrapping in 32 bits, and empties the FIFO where the direction changes;
a decode error leaves the count, makes the rode uncertain and raises the error count, saturating
at 255; an index push keeps the two latest counts, and a pair whose difference is out of tolerance makes the rode uncertain and empties
the FIFO. With no run under way nothing else changes (R141, R142).

With no run, the home switch takes its new state and nothing else of the windlass changes (R139). -/
def Obligations.GypsyCounts : Prop :=
  (∀ w : Windlass, 0 < w.settings.countsPerRev → 0 < w.settings.mmPerRev →
    (∀ mm : Int,
        2 * (w.toCounts mm * w.settings.mmPerRev - mm * w.settings.countsPerRev).natAbs ≤ w.settings.mmPerRev
          ∧ w.toCounts (-mm) = -w.toCounts mm
          ∧ (0 ≤ mm → 2 * (mm * w.settings.countsPerRev) < (2 * w.toCounts mm + 1) * w.settings.mmPerRev))
      ∧ (w.rode * w.settings.countsPerRev).natAbs ≤ (w.position * w.settings.mmPerRev).natAbs
      ∧ (w.position * w.settings.mmPerRev - w.rode * w.settings.countsPerRev).natAbs < w.settings.countsPerRev)
  ∧ (∀ s : State,
    (∀ dir, s.windlass.underWay = false → exec (.gypsyStep dir) s = .next (State.deckPass
        (s.onWindlass fun w =>
          { w with count := (match dir with | .payOut => w.count + 1 | .heave => w.count - 1), lastStep := some dir
                   fifo := if w.lastStep = none ∨ w.lastStep = some dir then w.fifo else [] }) s))
      ∧ (s.windlass.underWay = false → exec .gypsyDecodeError s = .next (State.deckPass
        { s with windlass := { s.windlass with decodeErrors := min (s.windlass.decodeErrors + 1) 255, rodeUncertain := true }
                 link := if s.windlass.rodeUncertain then s.link
                         else s.link.post ⟨.slip, 3, [2, 0, 0] ++ leSigned 3 s.windlass.rode, s.uptime⟩ } s))
      ∧ (s.windlass.fifo = [] → exec .gypsyIndex s = .next (State.deckPass (s.onWindlass fun w => { w with fifo := [w.count] }) s))
      ∧ (∀ pre older d, s.windlass.fifo = pre ++ [older] → pre.length ≤ 1 → d = s.windlass.count.toInt - older.toInt →
        (((s.windlass.settings.countsPerRev : Int) - s.windlass.settings.slipTol ≤ d.natAbs
            ∧ (d.natAbs : Int) ≤ s.windlass.settings.countsPerRev + s.windlass.settings.slipTol) →
          exec .gypsyIndex s = .next (State.deckPass (s.onWindlass fun w => { w with fifo := [older, w.count] }) s))
        ∧ (¬ ((s.windlass.settings.countsPerRev : Int) - s.windlass.settings.slipTol ≤ d.natAbs
            ∧ (d.natAbs : Int) ≤ s.windlass.settings.countsPerRev + s.windlass.settings.slipTol) → s.windlass.underWay = false →
          exec .gypsyIndex s = .next (State.deckPass
            { s with windlass := { s.windlass with fifo := [], rodeUncertain := true }
                     link := s.link.post ⟨.slip, 3, 1 :: leSigned 2 (max (-32767) (min d 32767)) ++ leSigned 3 s.windlass.rode,
                               s.uptime⟩ } s))))
  ∧ (∀ (s : State) (active : Bool), s.windlass.run = none ∨ s.windlass.underWay = false →
    exec (.homeSwitchEvent active) s = .next (State.deckPass (s.onWindlass fun w => { w with homeSw := active }) s))

/-- A run's ends, each with every output de-energised and a settle of 300 ms: a SEEK whose step brings it within the stop band of its target
stops with cause TARGET; a decode error on a trusted rode stops a SEEK with RODE_UNCERTAIN; the home switch becoming ACTIVE ends a run
that heaves, with the count 0, the rode trusted and the home flag set; and the contactor that opens starts the deadband of the other
direction, 500 ms (R146, R151, R153).

A count step under way: in RUNNING the jam timer starts again; a JOG OUT on a valid rode ends within the stop band of the max rode with
cause END, and a run that heaves on a trusted rode stops in RUNNING with HOME_NOT_FOUND beyond the home search limit; a step that ends
nothing opens STAGE2 in the slow zone, where the grant is lowered to G1 and a review runs. A SEEK that heaves ends at the home switch.
A decode error, or an index pair out of tolerance, stops a SEEK on a trusted rode with RODE_UNCERTAIN, opens STAGE2 for a run that
heaves, and lets any other run go on (R93, R141, R142, R151, R152, R154). -/
def Obligations.RunsEnd : Prop :=
  (∀ (s : State) (r : Run), s.windlass.run = some r → s.windlass.underWay = true →
    (∀ t c, (c = .target ∧ r.kind = .seek ∧ exec (.gypsyStep r.dir) s = .next t
            ∧ (match r.dir with
              | .payOut => r.target - (s.windlass.count + 1).toInt
              | .heave => (s.windlass.count - 1).toInt - r.target) ≤ s.windlass.toCounts s.windlass.settings.stopBand)
          ∨ (c = .rodeUncertain ∧ r.kind = .seek ∧ s.windlass.rodeValid = true ∧ s.windlass.rodeUncertain = false
            ∧ exec .gypsyDecodeError s = .next t)
          ∨ (c = .target ∧ r.kind = .home ∧ r.dir = .heave ∧ s.windlass.homeSw = false ∧ exec (.homeSwitchEvent true) s = .next t)
          ∨ (c = .ended ∧ r.kind = .jog ∧ r.dir = .heave ∧ s.windlass.homeSw = false ∧ exec (.homeSwitchEvent true) s = .next t) →
        t.windlass.state = .stopping ∧ t.windlass.stopCause = some c ∧ t.windlass.contactorClosed = false ∧ t.windlass.stage2 = false
          ∧ t.windlass.brakeRelease = false ∧ t.windlass.settleTimer = some (s.uptime + 300)
          ∧ (s.windlass.payOut = true → t.windlass.heaveFree = s.uptime + 500)
          ∧ (s.windlass.heave = true → t.windlass.payOutFree = s.uptime + 500)
          ∧ t.windlass.run = some r ∧ t.windlassOwner = s.windlassOwner)
      ∧ (∀ t, (r.kind = .home ∨ r.kind = .jog) → r.dir = .heave → s.windlass.homeSw = false → exec (.homeSwitchEvent true) s = .next t →
        t.windlass.count = 0 ∧ t.windlass.rodeValid = true ∧ t.windlass.rodeUncertain = false ∧ t.windlass.fifo = []
          ∧ t.windlass.homeFlag = true ∧ t.windlass.homeSw = true))
  ∧ (∀ (s u : State) (r : Run) (dir : RodeDir) (near atMax lost : Prop), s.windlass.run = some r → s.windlass.underWay = true →
    u = (s.onWindlass fun w =>
      { w with count := (match dir with | .payOut => w.count + 1 | .heave => w.count - 1), lastStep := some dir
               fifo := if w.lastStep = none ∨ w.lastStep = some dir then w.fifo else []
               jamTimer := if w.state = .running then some (s.uptime + BitVec.ofNat 32 w.settings.jamTime) else w.jamTimer }) →
    (near ↔ r.kind = .seek ∧ (match r.dir with
        | .payOut => r.target - u.windlass.count.toInt
        | .heave => u.windlass.count.toInt - r.target) ≤ u.windlass.toCounts u.windlass.settings.stopBand) →
    (atMax ↔ r.kind = .jog ∧ r.dir = .payOut ∧ u.windlass.rodeValid = true
      ∧ u.windlass.toCounts u.windlass.settings.maxRode - u.windlass.toCounts u.windlass.settings.stopBand ≤ u.windlass.count.toInt) →
    (lost ↔ r.dir = .heave ∧ u.windlass.rodeValid = true ∧ u.windlass.rodeUncertain = false ∧ u.windlass.state = .running
      ∧ u.windlass.homeSw = false ∧ u.windlass.count.toInt < -u.windlass.toCounts u.windlass.settings.homeLimit) →
      ∃ t, exec (.gypsyStep dir) s = .next t
        ∧ t.windlass.count = u.windlass.count
        ∧ (near → t.windlass.StoppedAt s.uptime .target)
        ∧ (atMax → t.windlass.StoppedAt s.uptime .ended)
        ∧ (lost → ¬ near → t.windlass.StoppedAt s.uptime .homeNotFound)
        ∧ (¬ near → ¬ atMax → ¬ lost →
          (s.windlass.state = .starting ∨ s.windlass.stage2 = false ∨ u.windlass.endDistance r = none
              ∨ (∃ d, u.windlass.endDistance r = some d ∧ u.windlass.toCounts u.windlass.settings.slowZone < d) → t = u.deckPass s)
            ∧ (∀ d, s.windlass.state = .running → s.windlass.stage2 = true → u.windlass.endDistance r = some d →
              d ≤ u.windlass.toCounts u.windlass.settings.slowZone →
              (∀ g, s.alloc.windlassGrant = some g → s.windlass.settings.g1 < g.running →
                  t = State.deckPass (State.review
                    { u with windlass := { u.windlass with stage2 := false }
                             alloc := { u.alloc with windlassGrant := some { g with running := s.windlass.settings.g1 } } }) s)
                ∧ ((∀ g, s.alloc.windlassGrant = some g → g.running ≤ s.windlass.settings.g1) →
                  t = State.deckPass { u with windlass := { u.windlass with stage2 := false } } s))))
  ∧ (∀ (s t : State) (r : Run), s.windlass.run = some r → s.windlass.underWay = true → r.kind = .seek → r.dir = .heave →
    s.windlass.homeSw = false → exec (.homeSwitchEvent true) s = .next t →
      t.windlass.StoppedAt s.uptime .target ∧ t.windlass.homeSw = true
        ∧ (s.windlass.toCounts s.windlass.settings.stopBand < s.windlass.count.toInt - r.target →
          t.windlass.count = 0 ∧ t.windlass.rodeValid = true ∧ t.windlass.rodeUncertain = false ∧ t.windlass.homeFlag = true))
  ∧ (∀ (s u : State) (r : Run) (i : Instr), s.windlass.run = some r → s.windlass.underWay = true →
    (i = .gypsyDecodeError ∧ u =
        { s with windlass := { s.windlass with decodeErrors := min (s.windlass.decodeErrors + 1) 255, rodeUncertain := true }
                 link := if s.windlass.rodeUncertain then s.link
                         else s.link.post ⟨.slip, 3, [2, 0, 0] ++ leSigned 3 s.windlass.rode, s.uptime⟩ })
      ∨ (i = .gypsyIndex ∧ ∃ pre older d, s.windlass.fifo = pre ++ [older] ∧ pre.length ≤ 1 ∧ d = s.windlass.count.toInt - older.toInt
        ∧ ¬ ((s.windlass.settings.countsPerRev : Int) - s.windlass.settings.slipTol ≤ d.natAbs
            ∧ (d.natAbs : Int) ≤ s.windlass.settings.countsPerRev + s.windlass.settings.slipTol)
        ∧ u = { s with windlass := { s.windlass with fifo := [], rodeUncertain := true }
                       link := s.link.post ⟨.slip, 3, 1 :: leSigned 2 (max (-32767) (min d 32767)) ++ leSigned 3 s.windlass.rode,
                                 s.uptime⟩ }) →
      (s.windlass.rodeValid = false ∨ s.windlass.rodeUncertain = true → exec i s = .next (u.deckPass s))
      ∧ (s.windlass.rodeValid = true → s.windlass.rodeUncertain = false →
        (r.kind = .seek → ∃ t, exec i s = .next t ∧ t.windlass.StoppedAt s.uptime .rodeUncertain ∧ t.windlass.rodeUncertain = true)
          ∧ (r.kind ≠ .seek → r.dir = .payOut ∨ s.windlass.stage2 = false → exec i s = .next (u.deckPass s))
          ∧ (∀ g, r.kind ≠ .seek → r.dir = .heave → s.windlass.stage2 = true → s.alloc.windlassGrant = some g →
            s.windlass.settings.g1 < g.running → exec i s = .next (State.deckPass (State.review
              { u with windlass := { u.windlass with stage2 := false }
                       alloc := { u.alloc with windlassGrant := some { g with running := s.windlass.settings.g1 } } }) s))))

/-- The timers of a run. At its deadband's end, 500 ms after the other contactor opened, a run that waits in STARTING closes its own direction
contactor and starts the brake timer at 100 ms; at the brake timer's the brake is released and the windlass is RUNNING with the jam timer and, for
a jog, the stage-2 delay started, and a SEEK or a trusted HOME asks for stage 2; at the delay's expiry a jog asks. A run with an end distance not
above the slow zone makes no stage admission, and any other gets STAGE2 where its stage admission is granted and stays at stage 1 where it is
refused. At the jam timer's expiry it stops with cause JAM, and a contactor that opens holds the other one off for 500 ms. Stopped timers do
not expire (R146, R150, R152 to R154).

The windlass at a sweep: in STARTING with the contactor closed, and in RUNNING, it stops with OVERLOAD when the current has stood above its limit
for the overload time, and with SUPPLY_LOW when the supply has stood below the low limit for 1,000 ms. WINDLASS_I becoming FAULTED stops a
run with SENSOR_FAULT, and counts in STOPPING and FAULT (R154, R155). The order of two that come true at one sweep is the model's choice
(notes/assumptions/13.md).

That an expiry given early moves the uptime to its moment, and that a stopped timer's expiry does nothing, is the model's choice
(notes/assumptions/7.md). That a deadband's reading further than 500 ms ahead has passed is an inference (notes/assumptions/6.md). -/
def Obligations.RunTimers : Prop :=
  (∀ (s : State) (closed : State → RodeDir → State),
    (∀ u dir, closed u dir = u.onWindlass fun w =>
      { w with payOut := decide (dir = .payOut), heave := decide (dir = .heave), brakeTimer := some (u.uptime + 100) }) →
    (∀ r free, s.windlass.state = .starting → s.windlass.contactorClosed = false → s.windlass.run = some r →
        free = (match r.dir with | .payOut => s.windlass.payOutFree | .heave => s.windlass.heaveFree) →
        (free = s.uptime ∨ 500 < (free - s.uptime).toNat → exec .deadbandExpiry s = .next (closed s r.dir))
          ∧ (free ≠ s.uptime → (free - s.uptime).toNat ≤ 500 → exec .deadbandExpiry s = .next (closed { s with uptime := free } r.dir)))
      ∧ (s.windlass.state ≠ .starting ∨ s.windlass.contactorClosed = true ∨ s.windlass.run = none → exec .deadbandExpiry s = .next s)
      ∧ (∀ e (u : State), s.windlass.brakeTimer = some e →
        u = ((s.atMoment e).onWindlass fun w =>
          { w with state := .running, brakeRelease := true, brakeTimer := none
                   jamTimer := some ((s.atMoment e).uptime + BitVec.ofNat 32 w.settings.jamTime)
                   delayTimer := match w.run with
                    | some r => if r.kind = .jog then some ((s.atMoment e).uptime + BitVec.ofNat 32 w.settings.stage2Delay) else none
                    | none => none }) →
        (s.windlass.run = none → exec .brakeTimerExpiry s = .next (u.deckPass s))
          ∧ ∀ r, s.windlass.run = some r →
            (r.kind = .jog ∨ (r.kind = .home ∧ (s.windlass.rodeValid = false ∨ s.windlass.rodeUncertain = true)) →
                exec .brakeTimerExpiry s = .next (u.deckPass s))
              ∧ (r.kind = .seek ∨ (r.kind = .home ∧ s.windlass.rodeValid = true ∧ s.windlass.rodeUncertain = false) →
                ∃ t, exec .brakeTimerExpiry s = .next (State.deckPass t s) ∧ u.Stage2Asked t r))
      ∧ (∀ e (u : State), s.windlass.delayTimer = some e → u = ((s.atMoment e).onWindlass fun w => { w with delayTimer := none }) →
        (s.windlass.run = none → exec .stage2DelayExpiry s = .next (u.deckPass s))
          ∧ ∀ r, s.windlass.run = some r → ∃ t, exec .stage2DelayExpiry s = .next (State.deckPass t s) ∧ u.Stage2Asked t r)
      ∧ (∀ e, s.windlass.jamTimer = some e → s.windlass.underWay = true →
        ∃ t, exec .jamTimeout s = .next t ∧ t.uptime = (s.atMoment e).uptime ∧ t.windlass.StoppedAt (s.atMoment e).uptime .jam
          ∧ t.windlass.heaveFree = (if s.windlass.payOut then t.uptime + 500 else s.windlass.heaveFree)
          ∧ t.windlass.payOutFree = (if s.windlass.heave then t.uptime + 500 else s.windlass.payOutFree))
      ∧ (s.windlass.brakeTimer = none → exec .brakeTimerExpiry s = .next s)
      ∧ (s.windlass.delayTimer = none → exec .stage2DelayExpiry s = .next s)
      ∧ (s.windlass.jamTimer = none → exec .jamTimeout s = .next s))
  ∧ (∀ (w : Windlass) (r : Run),
    (r.kind = .seek → w.endDistance r = some (match r.dir with | .payOut => r.target - w.count.toInt | .heave => w.count.toInt - r.target))
      ∧ (r.kind = .home ∨ (r.kind = .jog ∧ r.dir = .heave) →
        w.endDistance r = if w.rodeValid = true ∧ w.rodeUncertain = false then some w.count.toInt else none)
      ∧ (r.kind = .jog → r.dir = .payOut →
        w.endDistance r = if w.rodeValid = true then some (w.toCounts w.settings.maxRode - w.count.toInt) else none))
  ∧ (∀ (s : State) (ow lw : Option Uptime) (ov low watched : Prop),
    (watched ↔ (s.windlass.state = .starting ∧ s.windlass.contactorClosed = true) ∨ s.windlass.state = .running) →
    WatchAt s.uptime ((s.windlass.settings.overCurrent : Int) < (s.input 6).scaled) s.windlass.settings.overTime s.windlass.overWatch ow ov →
    WatchAt s.uptime ((s.input 1).faulted = false ∧ (s.input 1).scaled < (s.input 1).settings.lowLimit) 1000 s.windlass.lowWatch lw low →
      (¬ watched → s.windlassSweep = s)
        ∧ (watched → ov → s.windlassSweep.windlass.StoppedAt s.uptime .overload)
        ∧ (watched → ¬ ov → low → s.windlassSweep.windlass.StoppedAt s.uptime .supplyLow)
        ∧ (watched → ¬ ov → ¬ low → s.windlassSweep = s.onWindlass fun w => { w with overWatch := ow, lowWatch := lw }))
  ∧ (∀ s : State,
    (s.windlass.state = .idle → s.currentFaulted = s)
      ∧ (s.windlass.underWay = true → s.currentFaulted.windlass.StoppedAt s.uptime .sensorFault)
      ∧ (s.windlass.state = .stopping →
        (∀ p, s.windlass.pendingFault = some p →
            s.currentFaulted = s.onWindlass fun w => { w with pendingFault := some { p with later := min (p.later + 1) 255 } })
          ∧ (s.windlass.pendingFault = none → (∃ c, s.windlass.stopCause = some c ∧ c.isFault = true) →
            s.currentFaulted = s.onWindlass fun w => { w with stopLater := min (w.stopLater + 1) 255 })
          ∧ (s.windlass.pendingFault = none → (∀ c, s.windlass.stopCause = some c → c.isFault = false) →
            s.currentFaulted = s.onWindlass fun w => { w with pendingFault := some ⟨.sensorFault, 0⟩ }))
      ∧ (∀ f, s.windlass.state = .fault → s.windlass.fault = some f →
        s.currentFaulted = s.onWindlass fun w => { w with fault := some { f with later := min (f.later + 1) 255 } }))

/-- The settle of the windlass ends: a fault cause, or a pending fault, sends it to FAULT with its later count, and HOME_NOT_FOUND makes the
rode uncertain with it; another leaves it IDLE. Each way the grant is released, the run and its causes are gone, the home flag is
clear, the count stands, and the ownership record is NONE. The notice carries the final rode: DECK_FAULT, whose event is offered; with the
home flag ANCHOR_HOME and its event; for TARGET on a SEEK ANCHOR_AT_TARGET and its event; for END MOTION_DONE; and for another
cause MOTION_STOPPED (R93, R153, R155, R159).

That an expiry given early moves the uptime to its moment, and that a stopped timer's expiry does nothing, is the model's choice
(notes/assumptions/7.md). -/
def Obligations.WindlassSettles : Prop :=
  ∀ s : State,
    (s.windlass.settleTimer = none → exec .windlassSettleExpiry s = .next s)
      ∧ ∀ e, s.windlass.settleTimer = some e →
        ∃ t, exec .windlassSettleExpiry s = .next t ∧ t.windlass.run = none ∧ t.windlass.stopCause = none
          ∧ t.windlass.pendingFault = none ∧ t.windlass.homeFlag = false ∧ t.windlass.settleTimer = none
          ∧ t.windlass.count = s.windlass.count ∧ t.windlass.rodeValid = s.windlass.rodeValid
          ∧ t.alloc.windlassGrant = none ∧ t.windlassOwner = {}
          ∧ (∀ c, s.windlass.stopCause = some c → c.isFault = true →
            t.windlass.state = .fault ∧ t.windlass.fault = some ⟨c, s.windlass.stopLater⟩
              ∧ t.windlass.rodeUncertain = (s.windlass.rodeUncertain || decide (c = .homeNotFound)))
          ∧ (∀ c p, s.windlass.stopCause = some c → c.isFault = false → s.windlass.pendingFault = some p →
            t.windlass.state = .fault ∧ t.windlass.fault = some p)
          ∧ (∀ c, s.windlass.stopCause = some c → c.isFault = false → s.windlass.pendingFault = none →
            t.windlass.state = .idle ∧ t.windlass.rodeUncertain = s.windlass.rodeUncertain)
          ∧ ∃ told : State, t = State.deckPass ((told.onOwner .windlass fun _ => {}).onWindlass fun w =>
              { w with run := none, stopCause := none, stopLater := 0, pendingFault := none, homeFlag := false }) s
            ∧ ∀ (base : State) (rode : List Byte), rode = leSigned 4 s.windlass.rode →
              (∀ f, t.windlass.state = .fault → t.windlass.fault = some f →
                base = State.releaseGrant ((s.atMoment e).onWindlass fun w =>
                  { w with state := .fault, fault := some f, settleTimer := none
                           rodeUncertain := w.rodeUncertain || decide (f.cause = .homeNotFound) }) .windlass →
                told = State.offer { base with link := base.link.post ⟨.deckFault, 3,
                  BitVec.ofNat 8 f.cause.code :: BitVec.ofNat 8 f.later :: rode, base.uptime⟩ } (.deck (.fault .windlass)))
              ∧ (∀ c, t.windlass.state = .idle → s.windlass.stopCause = some c →
                base = State.releaseGrant ((s.atMoment e).onWindlass fun w => { w with state := .idle, settleTimer := none }) .windlass →
                (s.windlass.homeFlag = true → told = State.offer
                    { base with link := base.link.post ⟨.anchorHome, 3, rode, base.uptime⟩ } (.deck .anchorHome))
                  ∧ (s.windlass.homeFlag = false →
                    (∀ r, c = .target → s.windlass.run = some r → r.kind = .seek → told = State.offer
                        { base with link := base.link.post ⟨.anchorAtTarget, 3,
                            rode ++ leSigned 2 (s.windlass.count.toInt - r.target), base.uptime⟩ } (.deck .anchorAtTarget))
                      ∧ (c = .ended → told = { base with link := base.link.post ⟨.motionDone, 3, rode, base.uptime⟩ })
                      ∧ (c ≠ .target → c ≠ .ended → told =
                        { base with link := base.link.post ⟨.motionStopped, 3, BitVec.ofNat 8 c.code :: rode, base.uptime⟩ })))

/-! ## Roomline (chapter 1) -/

/-- OPEN_TRANSACTION in IDLE with both lines high: a pending RELEASE goes first, as the bytes 0x00, 0x08, 0xEF; otherwise the entry the arbiter
picks is in flight, the bus is OWN, and the part sends head, kind, data and check byte of a write, or head and kind of a read, with the
values read at this moment: levels or positions in two bytes each, a SWITCH8's outputs as one bit each, and two bits for each lamp. With a line low, outside IDLE, or with nothing to serve, it does not open (R3 to R8, R10, R19, R23).

The arbiter: it picks no entry in flight and none ahead of its turn. An entry with the retry mark goes first, then class A, then a class C
entry that has waited more than 500 ms, then class B, then class C, and the oldest of each; and it picks one whenever one waits (R19).

That an entry opened again in CONFIG carries what its record, as it then stands, gives is the model's choice (notes/assumptions/38.md). -/
def Obligations.TransactionOpens : Prop :=
  (∀ s : State,
    (∀ a b, s.bus.state ≠ .idle ∨ a = false ∨ b = false → exec (.openTransaction a b) s = .next s)
      ∧ (s.bus.state = .idle → s.bus.pendingRelease = true → exec (.openTransaction true true) s = .next (s.onBus fun b =>
        { b with state := .own, openedAt := s.uptime, wire := [0x00, 0x08, 0xEF], carried := .none, flightRate := b.settings.rate
                 pendingRelease := false, releaseOpen := true }))
      ∧ (s.bus.state = .idle → s.bus.pendingRelease = false → s.bus.queue = [] → exec (.openTransaction true true) s = .next s)
      ∧ (∀ before e after_, s.bus.state = .idle → s.bus.pendingRelease = false → s.bus.queue = before ++ e :: after_ →
        arbitrate s.uptime s.bus.queue = some before.length →
        ∃ (wire : List Byte) (carried : Carried), exec (.openTransaction true true) s = .next (s.onBus fun b =>
            { b with state := .own, openedAt := s.uptime, wire := wire, carried := carried, flightRate := b.settings.rate
                     queue := before ++ { e with inFlight := true } :: after_ })
          ∧ (e.kind = .identify → wire = [BitVec.ofNat 8 (128 + e.target), 0x01])
          ∧ (e.kind = .status → wire = [BitVec.ofNat 8 (128 + e.target), 0x06])
          ∧ (e.kind = .setup → ∀ body, body = [BitVec.ofNat 8 e.target, 0x03, BitVec.ofNat 8 s.bus.settings.silence,
              BitVec.ofNat 8 (match s.bus.settings.fallback with | .hold => 0 | .preset => 1)] → wire = body ++ [crc8 body])
          ∧ (∀ a n, e.kind = .assign → e.assign = some (a, n) → ∀ body, body = [BitVec.ofNat 8 e.target, 0x02, BitVec.ofNat 8 a]
              ++ leBytes 4 n.toNat → wire = body ++ [crc8 body])
          ∧ (∀ r, e.kind = .levels → s.node e.target = some r → r.type = .dimmer4 → ∃ v : Fin 4 → Nat,
            (∀ i, v i = ((s.channels.find? fun c => c.cfg.node = e.target ∧ c.cfg.index = i.val + 1).map
                fun c => min c.current c.ceiling).getD 0)
              ∧ carried = .levels [(1, v 0), (2, v 1), (3, v 2), (4, v 3)]
              ∧ ∀ body, body = [BitVec.ofNat 8 e.target, 0x04] ++ leBytes 2 (v 0) ++ leBytes 2 (v 1) ++ leBytes 2 (v 2) ++ leBytes 2 (v 3) →
                wire = body ++ [crc8 body])
          ∧ (∀ r, e.kind = .levels → s.node e.target = some r → r.type = .blind2 → ∃ v : Fin 2 → Nat,
            (∀ i, v i = ((s.channels.find? fun c => c.cfg.node = e.target ∧ c.cfg.index = i.val + 1).map
                fun c => min c.current c.ceiling).getD 0)
              ∧ carried = .levels [(1, v 0), (2, v 1)]
              ∧ ∀ body, body = [BitVec.ofNat 8 e.target, 0x04] ++ leBytes 2 (v 0) ++ leBytes 2 (v 1) → wire = body ++ [crc8 body])
          ∧ (∀ r, e.kind = .levels → s.node e.target = some r → r.type = .switch8 → ∃ v : Fin 8 → Nat,
            (∀ i, v i = ((s.channels.find? fun c => c.cfg.node = e.target ∧ c.cfg.index = i.val + 1).map
                fun c => min c.current c.ceiling).getD 0)
              ∧ carried = .levels [(1, v 0), (2, v 1), (3, v 2), (4, v 3), (5, v 4), (6, v 5), (7, v 6), (8, v 7)]
              ∧ ∀ (bits : Byte) (body : List Byte), (∀ i : Fin 8, bits.getLsbD i = decide (v i = 1000)) →
                body = [BitVec.ofNat 8 e.target, 0x04, bits] → wire = body ++ [crc8 body])
          ∧ (∀ t, e.kind = .lamps → s.station e.target = some t → carried = .lamps (s.lampsOf t)
            ∧ ∀ (code : Fin 8 → Nat) (body : List Byte),
              (∀ i : Fin 8, code i = match (s.lampsOf t)[i] with | .off => 0 | .steady => 1 | .slow => 2 | .fast => 3) →
              body = [BitVec.ofNat 8 e.target, 0x05, BitVec.ofNat 8 (code 0 + 4 * code 1 + 16 * code 2 + 64 * code 3),
                BitVec.ofNat 8 (code 4 + 4 * code 5 + 16 * code 6 + 64 * code 7)] → wire = body ++ [crc8 body])
          ∧ (e.kind = .release → e.target = 0 → wire = [0x00, 0x08, 0xEF])))
  ∧ (∀ (now : Uptime) (q : List Entry),
    (∀ i, arbitrate now q = some i → ∃ e, q[i]? = some e ∧ e.inFlight = false
        ∧ (e.retry = false → ∀ x ∈ q, x.inFlight = false → x.retry = false)
        ∧ (e.retry = false → e.cls ≠ .a → ∀ x ∈ q, x.inFlight = false → x.cls ≠ .a)
        ∧ (e.retry = false → (e.cls = .b ∨ (e.cls = .c ∧ (now - e.queued).toNat ≤ 500)) →
          ∀ x ∈ q, x.inFlight = false → x.cls = .c → (now - x.queued).toNat ≤ 500)
        ∧ (e.retry = false → e.cls = .c → (now - e.queued).toNat ≤ 500 → ∀ x ∈ q, x.inFlight = false → x.cls ≠ .b)
        ∧ ∀ j x, j < i → q[j]? = some x → x.inFlight = false → x.retry = e.retry → x.cls = e.cls → e.retry = false
          ∧ e.cls = .c ∧ 500 < (now - e.queued).toNat ∧ (now - x.queued).toNat ≤ 500)
      ∧ (arbitrate now q = none → ∀ x ∈ q, x.inFlight = true))

/-- A transaction to an ACTIVE record ends. With everything acknowledged, LEVELS leaves each channel of the node with the value sent as its last
sent, LAMPS the station with the states sent as last delivered, and the record is seen now with no misses. On a failure the record has one miss more, and at the third it is LOST, to be looked for in
1,000 ms, with NODE_LOST posted with the outcome's code. Each way the bus is IDLE, and the entry leaves the queue, or rejoins at the back
where its follow-up mark is set (R12, R16, R20, R33, R34, R56, R58, R169).

That an expiry given early moves the uptime to its moment, and that a stopped timer's expiry does nothing, is the model's choice
(notes/assumptions/7.md). -/
def Obligations.TransactionsEnd : Prop :=
  ∀ (s : State) (e : Entry) (r : NodeRecord) (b : Bus), s.bus.state = .own → s.bus.flying = some e → e.enrol = false →
    1 ≤ e.target → s.node e.target = some r → r.state = .active → r.enrolHold = false →
    b = { s.bus with
          state := .idle, wire := [], carried := .none, releaseOpen := false
          queue := s.bus.queue.filter (fun x => !x.inFlight)
            ++ (if e.followUp then [{ e with inFlight := false, retry := false, followUp := false, queued := s.uptime }] else []) } →
      (∀ outs reply, e.kind = .levels → s.bus.carried = .levels outs →
        exec (.transactionEnd ⟨true, true, true, reply⟩) s = .next (State.deckPass
          { s with
            nodes := s.nodes.map fun n => if n.addr = e.target then
              { n with lastSeen := s.uptime, misses := if n.state = .active then 0 else n.misses } else n
            channels := s.channels.map fun c => if c.cfg.node = e.target then
              (match outs.find? (fun p => p.1 == c.cfg.index) with | some p => { c with lastSent := some p.2 } | none => c) else c
            bus := b } s))
      ∧ (∀ lamps reply, e.kind = .lamps → s.bus.carried = .lamps lamps →
        exec (.transactionEnd ⟨true, true, true, reply⟩) s = .next (State.deckPass
          { s with
            nodes := s.nodes.map fun n => if n.addr = e.target then
              { n with lastSeen := s.uptime, misses := if n.state = .active then 0 else n.misses } else n
            stations := s.stations.map fun t => if t.addr = e.target then { t with delivered := some lamps } else t
            bus := b } s))
      ∧ (∀ (i : Instr) (code : Nat) (reply : List Byte), e.kind = .levels ∨ e.kind = .lamps →
        (code = 1 ∧ (∃ x y, i = .transactionEnd ⟨false, x, y, reply⟩)) ∨ (code = 2 ∧ (∃ y, i = .transactionEnd ⟨true, false, y, reply⟩))
          ∨ (code = 3 ∧ i = .transactionEnd ⟨true, true, false, reply⟩) ∨ (code = 4 ∧ i = .byteTimeout) →
        (r.misses < 2 → exec i s = .next (State.deckPass
            { s with nodes := s.nodes.map fun n => if n.addr = e.target then { n with misses := r.misses + 1 } else n, bus := b } s))
          ∧ (2 ≤ r.misses → r.type ≠ .station → exec i s = .next (State.deckPass
            { s with
              nodes := s.nodes.map fun n => if n.addr = r.addr then
                { n with state := .lost, misses := 3, returnFlag := true, pollTimer := none
                         retryTimer := some (s.uptime + 1000), held := 0 } else n
              channels := s.channels.map fun c => if c.cfg.node = r.addr ∧ c.cfg.kind = .blind then { c with moving := false } else c
              link := s.link.post ⟨.nodeLost, r.addr, [BitVec.ofNat 8 code], s.uptime⟩
              bus := b } s)))
      ∧ (r.misses < 2 → e.kind = .levels ∨ e.kind = .lamps → ∀ u : State, u = s.atMoment (s.bus.openedAt + 20) → e.followUp = false →
        exec .transactionTimeout s = .next (State.deckPass
          { u with nodes := s.nodes.map fun n => if n.addr = e.target then { n with misses := r.misses + 1 } else n, bus := b } s))
      ∧ (2 ≤ r.misses → r.type ≠ .station → e.kind = .levels ∨ e.kind = .lamps → ∀ u : State, u = s.atMoment (s.bus.openedAt + 20) →
        e.followUp = false → exec .transactionTimeout s = .next (State.deckPass
          { u with
            nodes := s.nodes.map fun n => if n.addr = r.addr then
              { n with state := .lost, misses := 3, returnFlag := true, pollTimer := none
                       retryTimer := some (u.uptime + 1000), held := 0 } else n
            channels := s.channels.map fun c => if c.cfg.node = r.addr ∧ c.cfg.kind = .blind then { c with moving := false } else c
            link := s.link.post ⟨.nodeLost, r.addr, [5], u.uptime⟩
            bus := b } s))

/-- Other parties on the bus. Arbitration lost puts the part's entry back with the retry mark and the bus in OTHER; another's OPEN in
IDLE takes the bus to OTHER, and its CLOSE back to IDLE; in any other bus state these do nothing (R10, R11).

A stuck line, in any bus state but RECOVERY, and another party's overrun take the bus to RECOVERY: the queue is empty, BUS_FAULT
is posted with the cause, the first run comes 100 ms on, and every motion a station owns that no stop has reached stops with cause
STATION_LOST. A recovery run that finds both lines high ends RECOVERY with BUS_RECOVERED and the run count; another counts, and
comes again 100 ms on (R13 to R15, R164).

That a RELEASE of the pending mark that loses is pending again is an inference (notes/assumptions/19.md). That an expiry given
early moves the uptime to its moment, and that a stopped timer's expiry does nothing, is the model's choice
(notes/assumptions/7.md). -/
def Obligations.OthersAndRecovery : Prop :=
  (∀ (s : State) (head : Byte),
    (s.bus.state = .own → exec (.arbitrationLost head) s = .next (s.onBus fun b =>
        { b with state := .other, otherHead := some head, wire := [], carried := .none, releaseOpen := false
                 pendingRelease := b.pendingRelease || b.releaseOpen
                 queue := b.queue.map fun e => if e.inFlight then { e with inFlight := false, retry := true } else e }))
      ∧ (s.bus.state ≠ .own → exec (.arbitrationLost head) s = .next s)
      ∧ (s.bus.state = .idle → exec (.otherOpen head) s = .next (s.onBus fun b =>
        { b with state := .other, otherHead := some head, openedAt := s.uptime }))
      ∧ (s.bus.state ≠ .idle → exec (.otherOpen head) s = .next s)
      ∧ (s.bus.state = .other → exec .otherClose s = .next (s.onBus fun b => { b with state := .idle, otherHead := none }))
      ∧ (s.bus.state ≠ .other → exec .otherClose s = .next s))
  ∧ (∀ s : State,
    (∀ (i : Instr) (cause : Nat), s.bus.state ≠ .recovery → s.enrolment = none →
        (i = .stuckLineTimeout true false ∧ cause = 1) ∨ (i = .stuckLineTimeout false true ∧ cause = 2)
          ∨ (i = .stuckLineTimeout true true ∧ cause = 3) ∨ (i = .overrunTimeout ∧ cause = 4 ∧ s.bus.state = .other) →
        ∃ t, exec i s = .next t ∧ t.bus.state = .recovery ∧ t.bus.queue = [] ∧ t.bus.recoveryRuns = 0
          ∧ t.bus.recoveryTimer = some (t.uptime + 100)
          ∧ (s.link.notices.length < 32 →
            (s.link.notices ++ [⟨.busFault, 127, [BitVec.ofNat 8 cause], t.uptime⟩]) <+: t.link.notices)
          ∧ (∀ a, s.windlassOwner.owner = .station a → s.windlassOwner.stopDelivered = false → s.windlass.underWay = true →
            t.windlass.state = .stopping ∧ t.windlass.stopCause = some .stationLost ∧ t.windlass.contactorClosed = false)
          ∧ (∀ m a, (s.ownerOf (moverResource m)).owner = .station a → (s.ownerOf (moverResource m)).stopDelivered = false →
            (s.mover m).state = .moving →
            (t.mover m).state = .settling ∧ (t.mover m).stopCause = some .stationLost ∧ (t.mover m).raise = false
              ∧ (t.mover m).lower = false))
      ∧ (s.bus.state ≠ .other → exec .overrunTimeout s = .next (s.deckPass s))
      ∧ (∀ e, s.bus.recoveryTimer = some e →
        exec (.recoveryRun true true) s = .next
            { s.atMoment e with
              bus := { s.bus with state := .idle, recoveryRuns := min (s.bus.recoveryRuns + 1) 255, recoveryTimer := none }
              link := s.link.post ⟨.busRecovered, 127, [BitVec.ofNat 8 (min (s.bus.recoveryRuns + 1) 255)], (s.atMoment e).uptime⟩ }
          ∧ ∀ a b, a = false ∨ b = false → exec (.recoveryRun a b) s = .next
            { s.atMoment e with
              bus := { s.bus with recoveryRuns := min (s.bus.recoveryRuns + 1) 255, recoveryTimer := some (e + 100) } })
      ∧ (s.bus.recoveryTimer = none → ∀ a b, exec (.recoveryRun a b) s = .next s))

/-- A report in IDLE, or in OTHER from a head 0x7F, with a good check byte. From an ACTIVE keypad: the record holds the keys reported and is
seen now with no misses, each event is offered to the bindings in the order sent, and the bus is IDLE. From an ACTIVE station: the record
takes them likewise, with its confirm time now, and the station's update and its events follow. From a keypad or station that is not ACTIVE:
it is seen now, and no more. From another node, or an address without a record, and with another check byte, it is discarded (R21, R22,
R33, R38, R79, R162).

That a report given in IDLE includes its own OPEN is the model's choice (notes/assumptions/17.md). -/
def Obligations.KeyReportTaken : Prop :=
  ∀ (s u : State) (addr held chk : Byte) (evs : List Byte) (es : List KeyEvent) (body : List Byte),
    s.bus.state = .idle ∨ (s.bus.state = .other ∧ s.bus.otherHead = some 0x7F) → evs.length ≤ 4 → 1 ≤ addr.toNat → addr.toNat ≤ 119 →
    body = [0x07, addr, held, BitVec.ofNat 8 evs.length] ++ evs → evs.map keyEvent? = es.map some →
    u = { s with bus := { s.bus with state := .idle, otherHead := none } } →
      (chk = crc8 (0x7F :: body) →
        (∀ r, s.node addr.toNat = some r →
          (r.type = .keypad → r.state = .active → exec (.keyReport (body ++ [chk])) s = .next (State.deckPass
              (es.foldl (fun u k => u.offer (.key addr.toNat k.key k.edge))
                { u with nodes := s.nodes.map fun n => if n.addr = addr.toNat then
                  { n with lastSeen := s.uptime, misses := if n.state = .active then 0 else n.misses, held := held } else n }) s))
            ∧ (r.type = .station → r.state = .active → exec (.keyReport (body ++ [chk])) s = .next (State.deckPass
              (State.stationKeys
                { u with nodes := s.nodes.map fun n => if n.addr = addr.toNat then
                  { n with lastSeen := s.uptime, misses := if n.state = .active then 0 else n.misses, held := held
                           confirmTime := s.uptime } else n } addr.toNat r.held held es) s))
            ∧ (r.type = .keypad ∨ r.type = .station → r.state ≠ .active → exec (.keyReport (body ++ [chk])) s = .next (State.deckPass
              { u with nodes := s.nodes.map fun n => if n.addr = addr.toNat then
                { n with lastSeen := s.uptime, misses := if n.state = .active then 0 else n.misses } else n } s))
            ∧ (r.type ≠ .keypad → r.type ≠ .station → exec (.keyReport (body ++ [chk])) s = .next (u.deckPass s)))
          ∧ (s.node addr.toNat = none → exec (.keyReport (body ++ [chk])) s = .next (u.deckPass s)))
      ∧ (chk ≠ crc8 (0x7F :: body) → exec (.keyReport (body ++ [chk])) s = .next (u.deckPass s))

/-! ## Control stations (chapter 9) -/

/-- A station's record whose confirm expiry passes is stopped with STATION_LOST; one with a stop delivered, or of another owner, is left (R163).

The test for a new motion acts in RUN alone, with key 7 held and key 8 not. With one mapped key held and unspent it attempts the key's
motion: an owned resource denies it; on OK the station owns the resource with the key and a confirm expiry 150 ms on, and the key is spent
USED; at the end USED, and refused DENIED. With two or more mapped keys held none starts, and each unspent one is spent
DENIED (R158, R162).

A station's update, in order: spent keys no longer held are released; a press of key 8, by event or held sets, stops every owned resource
not yet told, with STATION_STOP; each record of the station is confirmed for 150 ms more while key 7 and the owning key are held, else
stopped with RELEASED; the test; and the lamps. Events of keys 1 to 6 that the map gives NONE go on to the
bindings, in order (R79, R162, R163, R165).

The answers to a jog, in order: the windlass's FAULTED, AT_END, NOT_READY, NO_BUDGET and OK, and a mover's FAULTED, NOT_READY,
AT_END, NOT_READY, INTERLOCK, and the pump's answer (R129, R149).

A mapped key is FAST_FLASH where spent DENIED or its resource is in FAULT, else SLOW_FLASH where the resource is owned in its direction,
else STEADY at its end, else OFF; key 7 STEADY while the station owns a resource, and key 8 SLOW_FLASH while any is owned. LAMPS is asked
for, of class A, for an ACTIVE station whose lamps differ from those last delivered (R168, R169).

The model's choices: that the update comes before its events (notes/assumptions/24.md), the order of the resources
(notes/assumptions/13.md), that its LAMPS are asked for first (notes/assumptions/25.md), that R128's deck band check refuses no jog
(notes/assumptions/28.md), and what an expiry does early or at a stopped timer (notes/assumptions/7.md). An inference: a deadband's
reading further than 500 ms ahead has passed (notes/assumptions/6.md). -/
def Obligations.StationMotions : Prop :=
  (∀ (s : State) (r : Resource),
    ((s.ownerOf r).confirm = none → exec (.confirmExpiry r) s = .next s)
      ∧ ∀ e, (s.ownerOf r).confirm = some e →
        ((s.ownerOf r).stopDelivered = true ∨ (∀ a, (s.ownerOf r).owner ≠ .station a) →
            exec (.confirmExpiry r) s = .next ((s.atMoment e).deckPass s))
          ∧ ∀ a, (s.ownerOf r).owner = .station a → (s.ownerOf r).stopDelivered = false →
            ∃ t, exec (.confirmExpiry r) s = .next t
              ∧ (∀ m, r = moverResource m → (s.mover m).state = .moving →
                (t.mover m).state = .settling ∧ (t.mover m).stopCause = some .stationLost ∧ (t.mover m).raise = false
                  ∧ (t.mover m).lower = false ∧ t.ownerOf r = { s.ownerOf r with stopDelivered := true })
              ∧ (r = .windlass → s.windlass.underWay = true →
                t.windlass.state = .stopping ∧ t.windlass.stopCause = some .stationLost ∧ t.windlass.contactorClosed = false
                  ∧ t.windlassOwner = { s.windlassOwner with stopDelivered := true }))
  ∧ (∀ (s : State) (addr : Nat) (held : Byte) (t : Station), s.station addr = some t →
    (s.mode ≠ .run ∨ holds held 7 = false ∨ holds held 8 = true ∨ t.heldMapped held = []
          ∨ (∃ k, t.heldMapped held = [k] ∧ t.mark k ≠ none) → s.acquire addr held = s)
      ∧ (∀ k f r d, s.mode = .run → holds held 7 = true → holds held 8 = false → t.heldMapped held = [k] → t.function k = f →
        f.motion = some (r, d) → t.mark k = none →
        ((s.ownerOf r).owner ≠ .none → s.acquire addr held = s.spend addr k .denied)
          ∧ ((s.ownerOf r).owner = .none →
            (∀ u, s.jog r d = (u, .ok) → s.acquire addr held = State.spend
                (u.onOwner r fun _ => { owner := .station addr, dir := some d, acquired := some u.uptime, key := some k
                                        confirm := some (u.uptime + 150) }) addr k .used)
              ∧ (∀ u, s.jog r d = (u, .atEnd) → s.acquire addr held = u.spend addr k .used)
              ∧ (∀ u st, s.jog r d = (u, .refused st) → s.acquire addr held = u.spend addr k .denied)))
      ∧ (∀ k j ks, t.heldMapped held = k :: j :: ks →
        { s.acquire addr held with stations := s.stations } = s)
      ∧ (∀ k j ks, s.mode = .run → holds held 7 = true → holds held 8 = false → t.heldMapped held = k :: j :: ks →
        (∀ b, b ≠ addr → (s.acquire addr held).station b = s.station b)
          ∧ ∃ t', (s.acquire addr held).station addr = some t' ∧ { t' with spent := t.spent } = t
            ∧ ∀ n, n ∈ [1, 2, 3, 4, 5, 6] → t'.mark n = if n ∈ k :: j :: ks ∧ t.mark n = none then some .denied else t.mark n))
  ∧ (∀ (s s₁ s₂ : State) (addr : Nat) (old new : Byte) (events : List KeyEvent) (stops : Prop),
    s₁ = { s with stations := s.stations.map fun t => if t.addr = addr then
        { t with spent := Vector.ofFn fun i => if holds new (i.val + 1) then t.spent[i.val] else none } else t } →
    (stops ↔ (∃ e ∈ events, e.key = 8 ∧ e.edge = .press) ∨ (holds new 8 = true ∧ holds old 8 = false)) →
    (stops → s₂ = s₁.stopAll) → (¬ stops → s₂ = s₁) →
      s.stationUpdate addr old new events =
          ((((s₂.confirmRecord addr new .hatch).confirmRecord addr new .platform).confirmRecord addr new .windlass).acquire addr new).requestLamps addr
        ∧ ∀ t, s.station addr = some t → s.stationKeys addr old new events =
          (events.filter fun e => decide (1 ≤ e.key ∧ e.key ≤ 6 ∧ t.map[e.key - 1]? = some .none)).foldl
            (fun u e => u.offer (.key addr e.key e.edge)) (s.stationUpdate addr old new events))
  ∧ (∀ (s : State) (addr : Nat) (held : Byte) (r : Resource),
    ((s.ownerOf r).owner ≠ .station addr ∨ (s.ownerOf r).stopDelivered = true → s.confirmRecord addr held r = s)
      ∧ ((s.ownerOf r).owner = .station addr → (s.ownerOf r).stopDelivered = false →
        (∀ k, (s.ownerOf r).key = some k → holds held 7 = true → holds held k = true →
            s.confirmRecord addr held r = s.onOwner r fun o => { o with confirm := some (s.uptime + 150) })
          ∧ (holds held 7 = false ∨ (∀ k, (s.ownerOf r).key = some k → holds held k = false) →
            s.StopReached (s.confirmRecord addr held r) r .released ∧ ∀ q, q ≠ r → s.Untouched (s.confirmRecord addr held r) q)))
  ∧ (∀ (s : State) (r : Resource),
    ((s.ownerOf r).owner = .none ∨ (s.ownerOf r).stopDelivered = true → s.Untouched s.stopAll r)
      ∧ ((s.ownerOf r).owner ≠ .none → (s.ownerOf r).stopDelivered = false → s.StopReached s.stopAll r .stationStop))
  ∧ (∀ (s : State) (dir : RodeDir) (atEnd : Prop),
    (atEnd ↔ (dir = .payOut ∧ s.windlass.rodeValid = true
        ∧ s.windlass.toCounts s.windlass.settings.maxRode - s.windlass.toCounts s.windlass.settings.stopBand ≤ s.windlass.count.toInt)
      ∨ (dir = .heave ∧ s.windlass.homeSw = true)) →
      s.jog .windlass (match dir with | .payOut => .out | .heave => .inward) = s.windlassJog dir
        ∧ (s.windlass.state = .fault → s.windlassJog dir = (s, .refused .faulted))
        ∧ (s.windlass.state ≠ .fault → atEnd → s.windlassJog dir = (s, .atEnd))
        ∧ (s.windlass.state ≠ .fault → ¬ atEnd → (s.input 6).faulted = true → s.windlassJog dir = (s, .refused .notReady))
        ∧ (s.windlass.state ≠ .fault → ¬ atEnd → (s.input 6).faulted = false → ∀ a granted,
          s.startAdmission .windlass s.windlass.settings.g1 s.windlass.settings.inrush s.windlass.settings.inrushWindow = (a, granted) →
          (granted = false → s.windlassJog dir = (a, .refused .noBudget))
            ∧ ∀ free, free = (match dir with | .payOut => s.windlass.payOutFree | .heave => s.windlass.heaveFree) → granted = true →
              (free ≠ s.uptime → (free - s.uptime).toNat ≤ 500 → s.windlassJog dir =
                  (a.onWindlass fun w => { w with state := .starting, run := some { kind := .jog, dir := dir } }, .ok))
                ∧ (free = s.uptime ∨ 500 < (free - s.uptime).toNat → s.windlassJog dir =
                  (a.onWindlass fun w =>
                    { w with state := .starting, run := some { kind := .jog, dir := dir }, payOut := decide (dir = .payOut)
                             heave := decide (dir = .heave), brakeTimer := some (s.uptime + 100) }, .ok))))
  ∧ (∀ (s : State) (m : MoverId) (dir : Direction) (above below inBand : Prop) (goal : Option Position),
    (m = .hatch ∧ (dir = .opening ∨ dir = .closing)) ∨ (m = .platform ∧ (dir = .up ∨ dir = .down)) →
    (below ↔ s.angle .platform < s.platform.settings.deck - 10) → (above ↔ s.platform.settings.deck + 10 < s.angle .platform) →
    (inBand ↔ ¬ below ∧ ¬ above) →
    (dir = .opening → (s.hatch.position = .opened → goal = none) ∧ (s.hatch.position ≠ .opened → goal = some .opened)) →
    (dir = .closing → (s.hatch.position = .closed → goal = none) ∧ (s.hatch.position ≠ .closed → goal = some .closed)) →
    (dir = .up → (s.platform.position = .stowed → goal = none)
      ∧ (s.platform.position = .submerged ∨ (s.platform.position = .between ∧ below) → goal = some .atDeck)
      ∧ (s.platform.position = .atDeck ∨ (s.platform.position = .between ∧ above) → goal = some .stowed)) →
    (dir = .down → (s.platform.position = .submerged → goal = none)
      ∧ (s.platform.position = .stowed ∨ (s.platform.position = .between ∧ above) → goal = some .atDeck)
      ∧ (s.platform.position = .atDeck ∨ (s.platform.position = .between ∧ below) → goal = some .submerged)) →
    (m = .platform → s.platform.position ≠ .opened ∧ s.platform.position ≠ .closed) →
      s.jog (moverResource m) dir = s.moverJog m dir
        ∧ ((s.mover m).state = .fault → s.moverJog m dir = (s, .refused .faulted))
        ∧ ((s.mover m).state ≠ .fault → m = .platform → s.platform.position = .between → s.angleFaulted .platform = true ∨ inBand →
          s.moverJog m dir = (s, .refused .notReady))
        ∧ ((s.mover m).state ≠ .fault → (m = .platform → s.platform.position = .between → s.angleFaulted .platform = false ∧ ¬ inBand) →
          (goal = none → s.moverJog m dir = (s, .atEnd))
            ∧ ∀ g stow (waits : State → State), goal = some g → stow = s.stowFlag m (s.mover m).position g →
              (∀ u, waits u = u.onMover m fun r =>
                { r with state := .waitPump, motion := some ⟨.jog, dir, g, stow, (s.mover m).position, none⟩ }) →
              (s.angleFaulted m = true ∨ (s.input 3).faulted = true → s.moverJog m dir = (s, .refused .notReady))
                ∧ (s.angleFaulted m = false → (s.input 3).faulted = false →
                  (s.interlock m stow = false → s.moverJog m dir = (s, .refused .interlock))
                    ∧ (s.interlock m stow = true →
                      (s.hpu.state = .fault → s.moverJog m dir = (s, .refused .faulted))
                        ∧ (s.hpu.state = .ready → s.moverJog m dir = (waits (s.onHpu fun h => { h with waiting := some m }), .ok))
                        ∧ (∀ h, s.hpu.state = .starting → s.hpu.holder = some h →
                          s.moverJog m dir = (waits (s.onHpu fun h => { h with waiting := some m }), .ok))
                        ∧ (s.hpu.state = .starting → s.hpu.holder = none →
                          s.moverJog m dir = (waits (s.onHpu fun h => { h with holder := some m }), .ok))
                        ∧ (s.hpu.state = .runOn → s.moverJog m dir =
                          ((s.onHpu fun h => { h with state := .ready, holder := some m, readyTimer := none, runOnTimer := none }).onMover m
                            fun r =>
                              { r with
                                state := .moving, motion := some ⟨.jog, dir, g, stow, r.position, some (s.angle m)⟩, raise := dir.raises
                                lower := !dir.raises, travelTimer := some (s.uptime + BitVec.ofNat 32 r.settings.timeout), stall := none }, .ok))
                        ∧ ∀ a granted, s.hpu.state = .off →
                          s.startAdmission .hpu s.hpu.settings.rated s.hpu.settings.inrush s.hpu.settings.inrushWindow = (a, granted) →
                          (granted = false → s.moverJog m dir = (a, .refused .noBudget))
                            ∧ (granted = true → s.moverJog m dir =
                              (waits (a.onHpu fun h =>
                                { h with state := .starting, contactor := true, holder := some m
                                         readyTimer := some (s.uptime + BitVec.ofNat 32 h.settings.readyLimit) }), .ok))))))
  ∧ (∀ (s : State) (t : Station) (lamps : Vector Lamp 8), s.lampsOf t = lamps →
    (∀ i f (h : i < 6), t.map[i] = f →
        (f.motion = none → lamps[i] = .off)
          ∧ ∀ r d (failed owned rests : Prop), f.motion = some (r, d) →
            (failed ↔ t.spent[i] = some .denied ∨ (r = .hatch ∧ s.hatch.state = .fault) ∨ (r = .platform ∧ s.platform.state = .fault)
              ∨ (r = .windlass ∧ s.windlass.state = .fault)) →
            (owned ↔ (s.ownerOf r).owner ≠ .none ∧ (s.ownerOf r).dir = some d) →
            (rests ↔ (f = .hatchOpen ∧ s.hatch.state = .atRest ∧ s.hatch.position = .opened)
              ∨ (f = .hatchClose ∧ s.hatch.state = .atRest ∧ s.hatch.position = .closed)
              ∨ (f = .platformUp ∧ s.platform.state = .atRest ∧ s.platform.position = .stowed)
              ∨ (f = .platformDown ∧ s.platform.state = .atRest ∧ s.platform.position = .submerged)
              ∨ (f = .anchorOut ∧ s.windlass.state = .idle ∧ s.windlass.rodeValid = true
                ∧ s.windlass.toCounts s.windlass.settings.maxRode - s.windlass.toCounts s.windlass.settings.stopBand ≤ s.windlass.count.toInt)
              ∨ (f = .anchorIn ∧ s.windlass.state = .idle ∧ s.windlass.homeSw = true)) →
            (failed → lamps[i] = .fast) ∧ (¬ failed → owned → lamps[i] = .slow) ∧ (¬ failed → ¬ owned → rests → lamps[i] = .steady)
              ∧ (¬ failed → ¬ owned → ¬ rests → lamps[i] = .off))
      ∧ ((∃ r, (s.ownerOf r).owner = .station t.addr) → lamps[6] = .steady)
      ∧ ((∀ r, (s.ownerOf r).owner ≠ .station t.addr) → lamps[6] = .off)
      ∧ ((∃ r, (s.ownerOf r).owner ≠ .none) → lamps[7] = .slow)
      ∧ ((∀ r, (s.ownerOf r).owner = .none) → lamps[7] = .off)
      ∧ ∀ addr, s.station addr = some t →
        ((∀ r, s.node addr = some r → r.state ≠ .active) ∨ t.delivered = some lamps → s.requestLamps addr = s)
          ∧ ∀ r, s.node addr = some r → r.state = .active → t.delivered ≠ some lamps →
            (s.bus.state = .recovery ∨ s.mode = .config → s.requestLamps addr = s)
              ∧ (s.bus.state ≠ .recovery → s.mode ≠ .config →
                (∀ x ∈ s.bus.queue, ¬ (x.kind = .lamps ∧ x.target = addr)) →
                  (s.bus.queue.length < 16 → s.requestLamps addr = s.onBus fun b =>
                      { b with queue := b.queue ++ [⟨.a, .lamps, addr, none, s.uptime, false, false, false, false⟩] })
                    ∧ (16 ≤ s.bus.queue.length → s.requestLamps addr = s)))

/-! ## Room nodes and enrolment (chapter 2) -/

/-- The timers of a record in RUN and STOPPING. At its retry timer's expiry it asks for an IDENTIFY, and where the queue is full it
starts the timer again, for 5,000 ms in MISMATCH and 1,000 ms otherwise. At its poll timer's expiry the timer starts again, for 50
ms of a STATION and 250 ms of another, and one STATUS is asked for, of class A for a STATION and C for another. Stopped timers do
not expire (R17, R18, R30, R35 to R37).

The IDENTIFY reply of a record in IDENTIFY, LOST or MISMATCH: with the record's type, and its serial or a record serial of 0, the
record takes serial and firmware and enters SETUP, which is asked for; with another it is in MISMATCH with its retry timer at
5,000 ms, and NODE_MISMATCH is posted unless it was there already (R29, R31, R36).

The two steps of SETUP: a SETUP that ends DONE asks for a STATUS read, and its failure, the read's, or a refusal of the read sends the record back
to LOST or IDENTIFY, by its return flag, with its retry timer at 1,000 ms (R31). A read that ends DONE makes the record ACTIVE, with no misses
and its poll timer at its period. A DIMMER4's fault bits and a BLIND2's positions and moving bits are kept; with adoption pending, the
levels go into the untouched channels of the node; with the return flag, its channels are unsent and NODE_BACK is posted. A KEYPAD and a
STATION take the held set and no events, and a STATION's update follows and its lamps are sent (R32, R57 to R59).

That BUS_FAULT sends a step back too, and that a read keeps fault bits, positions and moving bits with adoption pending clear, are
the model's choices, both inferences (notes/assumptions/11.md, notes/assumptions/12.md).

A poll of an ACTIVE record that ends DONE: the fault bits, the positions, or the held set and the events, by its type (R38). The third miss of
a STATION: it is LOST, its motions stop with STATION_LOST, and NODE_LOST is posted (R34, R164).

What an expiry does early or at a stopped timer is the model's choice (notes/assumptions/7.md). -/
def Obligations.NodeBringUp : Prop :=
  (∀ (s : State) (a : Nat),
    ((s.node a).bind (·.retryTimer) = none → exec (.nodeRetryExpiry a) s = .next s)
      ∧ ((s.node a).bind (·.pollTimer) = none → exec (.pollExpiry a) s = .next s)
      ∧ ∀ r e, s.node a = some r → s.mode ≠ .config → s.bus.state ≠ .recovery →
        (r.retryTimer = some e → s.bus.queue.length < 16 → exec (.nodeRetryExpiry a) s = .next
            { s.atMoment e with
              nodes := s.nodes.map fun n => if n.addr = a then { n with retryTimer := none } else n
              bus := { s.bus with queue := s.bus.queue ++
                [⟨.c, .identify, a, none, (s.atMoment e).uptime, false, false, false, false⟩] } })
          ∧ (r.retryTimer = some e → 16 ≤ s.bus.queue.length → exec (.nodeRetryExpiry a) s = .next
            { s.atMoment e with
              nodes := s.nodes.map fun n => if n.addr = a then
                { n with retryTimer := some ((s.atMoment e).uptime + (if n.state = .mismatch then 5000 else 1000)) } else n })
          ∧ (r.pollTimer = some e → s.bus.queue.length < 16 → (∀ x ∈ s.bus.queue, ¬ (x.kind = .status ∧ x.target = a)) →
            exec (.pollExpiry a) s = .next
              { s.atMoment e with
                nodes := s.nodes.map fun n => if n.addr = a then
                  { n with pollTimer := some (e + (if n.type = .station then 50 else 250)) } else n
                bus := { s.bus with queue := s.bus.queue ++ [⟨if r.type = .station then .a else .c, .status, a, none,
                  (s.atMoment e).uptime, false, false, false, false⟩] } })
          ∧ (r.pollTimer = some e → (∃ x ∈ s.bus.queue, x.kind = .status ∧ x.target = a) ∨ 16 ≤ s.bus.queue.length →
            exec (.pollExpiry a) s = .next
              { s.atMoment e with
                nodes := s.nodes.map fun n => if n.addr = a then
                  { n with pollTimer := some (e + (if n.type = .station then 50 else 250)) } else n }))
  ∧ (∀ (s : State) (a : Nat) (r : NodeRecord) (ty : NodeType) (serial : Serial) (fw : Byte × Byte), s.Ordered → s.node a = some r →
    r.enrolHold = false → r.state = .identify ∨ r.state = .lost ∨ r.state = .mismatch →
      (ty = r.type → r.serial = 0 ∨ r.serial = serial → s.mode ≠ .config → s.bus.state ≠ .recovery → s.bus.queue.length < 16 →
        s.nodeOutcome .identify a .done (.identify ty serial fw) =
          { s with
            nodes := s.nodes.map fun n => if n.addr = a then
              { n with lastSeen := s.uptime, serial := serial, firmware := some fw, state := .setup .awaitSetup, retryTimer := none } else n
            bus := { s.bus with queue := s.bus.queue ++ [⟨.c, .setup, a, none, s.uptime, false, false, false, false⟩] } })
      ∧ (ty ≠ r.type ∨ (r.serial ≠ 0 ∧ r.serial ≠ serial) →
        s.nodeOutcome .identify a .done (.identify ty serial fw) =
          { s with
            nodes := s.nodes.map fun n => if n.addr = a then
              { n with lastSeen := s.uptime, state := .mismatch, retryTimer := some (s.uptime + 5000) } else n
            link := if r.state = .mismatch then s.link
                    else s.link.post ⟨.nodeMismatch, a, BitVec.ofNat 8 ty.code :: leBytes 4 serial.toNat, s.uptime⟩ }))
  ∧ (∀ (s : State) (a : Nat) (r : NodeRecord), s.Ordered → s.node a = some r → r.enrolHold = false → s.mode ≠ .config →
    ∀ (upd : (NodeRecord → NodeRecord) → List NodeRecord), (∀ f, upd f = s.nodes.map fun n => if n.addr = a then f n else n) →
    ∀ back : NodeRecord → NodeRecord,
      (∀ n, back n = { n with state := if n.returnFlag then .lost else .identify, retryTimer := some (s.uptime + 1000) }) →
      (∀ outcome, outcome ≠ .done → r.state = .identify ∨ r.state = .lost ∨ r.state = .mismatch →
          s.nodeOutcome .identify a outcome .nothing = { s with
            nodes := upd fun n => { n with retryTimer := some (s.uptime + (if r.state = .mismatch then 5000 else 1000)) } })
      ∧ (r.state = .setup .awaitSetup →
        (∀ outcome, outcome ≠ .done → s.nodeOutcome .setup a outcome .nothing = { s with nodes := upd back })
          ∧ ((∃ x ∈ s.bus.queue, x.kind = .status ∧ x.target = a) → s.bus.state ≠ .recovery →
            s.nodeOutcome .setup a .done .nothing = { s with
              nodes := upd fun n => { n with lastSeen := s.uptime, state := .setup .awaitStatus } })
          ∧ ((∀ x ∈ s.bus.queue, ¬ (x.kind = .status ∧ x.target = a)) → s.bus.state ≠ .recovery → s.bus.queue.length < 16 →
            s.nodeOutcome .setup a .done .nothing = { s with
              nodes := upd fun n => { n with lastSeen := s.uptime, state := .setup .awaitStatus }
              bus := { s.bus with queue := s.bus.queue ++
                [⟨if r.type = .station then .a else .c, .status, a, none, s.uptime, false, false, false, false⟩] } })
          ∧ (s.bus.state = .recovery ∨ ((∀ x ∈ s.bus.queue, ¬ (x.kind = .status ∧ x.target = a)) ∧ 16 ≤ s.bus.queue.length) →
            s.nodeOutcome .setup a .done .nothing = { s with nodes := upd fun n => { back n with lastSeen := s.uptime } }))
      ∧ (r.state = .setup .awaitStatus →
        (∀ outcome, outcome ≠ .done → s.nodeOutcome .status a outcome .nothing = { s with nodes := upd back })
          ∧ ∀ active : NodeRecord → NodeRecord,
            (∀ n, active n = { n with state := .active, misses := 0, retryTimer := none, lastSeen := s.uptime, adoptionPending := false
                                      returnFlag := false, pollTimer := some (s.uptime + (if r.type = .station then 50 else 250)) }) →
            (∀ (d : NodeStatus) (levels : List Nat) (faults : Option (BitVec 4)) (chs : List Channel),
              (∃ f, d = .dimmer levels f ∧ faults = some f ∧ chs = s.channels)
                ∨ (∃ b : Byte, d = .switch b ∧ levels = (List.range 8).map (fun i => if b.getLsbD i then 1000 else 0)
                  ∧ faults = r.faultBits ∧ chs = s.channels)
                ∨ (∃ mv : Byte, d = .blind levels mv ∧ faults = r.faultBits ∧ chs = s.channels.map fun c =>
                  if c.cfg.node = a ∧ c.cfg.kind = .blind then
                    { c with reported := (match levels[c.cfg.index - 1]? with | some v => some v | none => c.reported)
                             moving := mv.getLsbD (c.cfg.index - 1) }
                  else c) →
              (r.adoptionPending = true → r.returnFlag = false → s.nodeOutcome .status a .done (.status d) = { s with
                  nodes := upd fun n => { active n with faultBits := faults }
                  channels := chs.map fun c =>
                    if c.cfg.node = a ∧ c.untouched = true then
                      match levels[c.cfg.index - 1]? with
                      | some v => { c with current := v, target := v, lastSent := some v
                                           reported := if c.cfg.kind = .blind then some v else c.reported }
                      | none => c
                    else c })
                ∧ (r.adoptionPending = false → r.returnFlag = true → s.nodeOutcome .status a .done (.status d) = { s with
                  nodes := upd fun n => { active n with faultBits := faults }
                  channels := chs.map fun c => if c.cfg.node = a then { c with lastSent := none } else c
                  link := s.link.post ⟨.nodeBack, a, [], s.uptime⟩ })
                ∧ (r.adoptionPending = false → r.returnFlag = false → s.nodeOutcome .status a .done (.status d) = { s with
                  nodes := upd fun n => { active n with faultBits := faults }, channels := chs }))
            ∧ ∀ (held : Byte) (events : List KeyEvent) (u : State), r.adoptionPending = false →
              (r.returnFlag = false → u = { s with nodes := upd fun n =>
                { active n with held := held, confirmTime := if r.type = .station then s.uptime else r.confirmTime } }) →
              (r.returnFlag = true → u = { s with
                nodes := upd fun n => { active n with held := held, confirmTime := if r.type = .station then s.uptime else r.confirmTime }
                channels := s.channels.map fun c => if c.cfg.node = a then { c with lastSent := none } else c
                link := s.link.post ⟨.nodeBack, a, [], s.uptime⟩ }) →
              (r.type ≠ .station → s.nodeOutcome .status a .done (.status (.keys held events)) = u)
                ∧ (r.type = .station → s.nodeOutcome .status a .done (.status (.keys held events)) =
                  ((u.stationUpdate a 0 held []).onStation a fun t => { t with delivered := none }).requestLamps a))
      ∧ (r.state = .active → ∀ seen : NodeRecord → NodeRecord, (∀ n, seen n = { n with lastSeen := s.uptime, misses := 0 }) →
        (∀ levels f, s.nodeOutcome .status a .done (.status (.dimmer levels f)) =
            { s with nodes := upd fun n => { seen n with faultBits := some f } })
          ∧ (∀ b, s.nodeOutcome .status a .done (.status (.switch b)) = { s with nodes := upd seen })
          ∧ (∀ levels (mv : Byte), s.nodeOutcome .status a .done (.status (.blind levels mv)) = { s with
            nodes := upd seen
            channels := s.channels.map fun c =>
              if c.cfg.node = a ∧ c.cfg.kind = .blind then
                { c with reported := (match levels[c.cfg.index - 1]? with | some v => some v | none => c.reported)
                         moving := mv.getLsbD (c.cfg.index - 1) }
              else c })
          ∧ (∀ held events, r.type = .keypad → s.nodeOutcome .status a .done (.status (.keys held events)) =
            events.foldl (fun u k => u.offer (.key a k.key k.edge)) { s with nodes := upd fun n => { seen n with held := held } })
          ∧ (∀ held events, r.type = .station → s.nodeOutcome .status a .done (.status (.keys held events)) =
            State.stationKeys { s with nodes := upd fun n => { seen n with held := held, confirmTime := s.uptime } } a r.held held events)
          ∧ ∀ kind outcome, r.type = .station → r.misses = 2 → outcome ≠ .done → outcome ≠ .busFault →
            ∃ u : State, s.nodeOutcome kind a outcome .nothing = { u with
                link := u.link.post ⟨.nodeLost, a, [BitVec.ofNat 8 outcome.code], s.uptime⟩ }
              ∧ u.node a = some { r with state := .lost, misses := 3, returnFlag := true, pollTimer := none, held := 0
                                         retryTimer := some (s.uptime + 1000) }
              ∧ (∀ b, b ≠ a → u.node b = s.node b)
              ∧ ∀ q, ((s.ownerOf q).owner ≠ .station a ∨ (s.ownerOf q).stopDelivered = true → s.Untouched u q)
                ∧ ((s.ownerOf q).owner = .station a → (s.ownerOf q).stopDelivered = false → s.StopReached u q .stationLost)))

/-- DECLARE_NODE in CONFIG of an address 1..119 and a type 1..5 the enrolment does not hold: a new address becomes a DECLARED record,
a STATION with an empty key map, and FULL with 48 places taken, the one an enrolment holds among them; a record of the same type takes
the serial and keeps the rest. Another type is IN_USE while a channel, a mapped key or a KEY binding names the record, and is taken
otherwise: firmware revision and fault bits become absent, and the key map comes or goes with the type STATION. BUSY at the address an
enrolment holds, and BAD_VALUE for no address or no type. Every other record stands (R27, R44, R160).

REMOVE_NODE in CONFIG of a recorded address takes the record, its channels, its key map, the entries of its channels in every scene, each
scene this empties, every binding that acts on such a channel or takes such a scene, and every binding its keys trigger, and counts
them; every other record, channel, scene, entry and binding stands in its place, and nothing outside these tables changes (R45, R66). -/
def Obligations.NodeTableEdits : Prop :=
  (∀ (s : State) (tag : Byte) (a code : Nat) (ty : NodeType) (serial : Serial) (taken : Nat), s.mode = .config →
    s.store.state ≠ .saving → 1 ≤ a → a ≤ 119 → nodeType? code = some ty →
    taken = s.nodes.length + (if ∃ e, s.enrolment = some e ∧ s.node e.addr = none then 1 else 0) →
      ((∀ e, s.enrolment = some e → e.addr ≠ a) →
        (s.node a = none → taken < 48 →
          ∃ u : State, exec (.declareNode tag a code serial) s = .next (u.replied 0x14 tag .ok)
            ∧ u.node a = some { addr := a, type := ty, serial := serial } ∧ (∀ b, b ≠ a → u.node b = s.node b)
            ∧ (ty = .station → u.station a = some { addr := a } ∧ ∀ b, b ≠ a → u.station b = s.station b)
            ∧ (ty ≠ .station → u.stations = s.stations)
            ∧ { u with nodes := s.nodes, stations := s.stations } = s)
        ∧ (s.node a = none → 48 ≤ taken → exec (.declareNode tag a code serial) s = .next (s.replied 0x14 tag .full))
        ∧ (∀ r, s.node a = some r → r.type = ty → exec (.declareNode tag a code serial) s = .next
          (State.replied { s with nodes := s.nodes.map fun n => if n.addr = a then { n with serial := serial } else n } 0x14 tag .ok))
        ∧ (∀ r, s.node a = some r → r.type ≠ ty →
          (∃ c ∈ s.channels, c.cfg.node = a) ∨ (∃ t f, s.station a = some t ∧ f ∈ t.map.toList ∧ f ≠ .none)
              ∨ (∃ b ∈ s.bindings, ∃ k e, b.trigger = .key a k e) →
          exec (.declareNode tag a code serial) s = .next (s.replied 0x14 tag .inUse))
        ∧ (∀ r, s.node a = some r → r.type ≠ ty → (∀ c ∈ s.channels, c.cfg.node ≠ a) →
          (∀ t f, s.station a = some t → f ∈ t.map.toList → f = .none) → (∀ b ∈ s.bindings, ∀ k e, b.trigger ≠ .key a k e) →
          ∃ u : State, exec (.declareNode tag a code serial) s = .next (u.replied 0x14 tag .ok)
            ∧ u.nodes = (s.nodes.map fun n => if n.addr = a then
              { n with type := ty, serial := serial, firmware := none, faultBits := none } else n)
            ∧ (ty = .station → u.station a = some { addr := a } ∧ ∀ b, b ≠ a → u.station b = s.station b)
            ∧ (r.type = .station → u.stations = s.stations.filter fun t => t.addr ≠ a)
            ∧ (ty ≠ .station → r.type ≠ .station → u.stations = s.stations)
            ∧ { u with nodes := s.nodes, stations := s.stations } = s))
      ∧ ∀ e, s.enrolment = some e → e.addr = a → exec (.declareNode tag a code serial) s = .next (s.replied 0x14 tag .busy)
        ∧ ((s.node a).isSome = true → exec (.removeNode tag a) s = .next (s.replied 0x15 tag .busy)))
  ∧ (∀ (s : State) (tag : Byte) (a code : Nat) (serial : Serial), s.mode = .config → s.store.state ≠ .saving →
    (a < 1 ∨ 119 < a ∨ nodeType? code = none → exec (.declareNode tag a code serial) s = .next (s.replied 0x14 tag .badValue))
      ∧ (a < 1 ∨ 119 < a → exec (.removeNode tag a) s = .next (s.replied 0x15 tag .badValue))
      ∧ (1 ≤ a → a ≤ 119 → s.node a = none → exec (.removeNode tag a) s = .next (s.replied 0x15 tag .notFound)))
  ∧ (∀ (s : State) (tag : Byte) (a : Nat) (r : NodeRecord) (gone : Nat → Bool) (left : Scene → Bool), s.Ordered → s.mode = .config →
    s.store.state ≠ .saving → 1 ≤ a → a ≤ 119 → s.node a = some r → (∀ e, s.enrolment = some e → e.addr ≠ a) →
    (∀ n, gone n = true ↔ ∃ c ∈ s.channels, c.cfg.node = a ∧ c.cfg.num = n) →
    (∀ sc, left sc = true ↔ sc.entries = [] ∨ ∃ e ∈ sc.entries, gone e.channel = false) →
    ∃ (u : State) (d : Removed), exec (.removeNode tag a) s = .next (u.replied 0x15 tag .ok (.removed d))
      ∧ u.nodes = s.nodes.filter (fun n => n.addr ≠ a) ∧ u.stations = s.stations.filter (fun t => t.addr ≠ a)
      ∧ u.channels = s.channels.filter (fun c => c.cfg.node ≠ a)
      ∧ u.scenes = (s.scenes.filter left).map (fun sc => { sc with entries := sc.entries.filter fun e => !gone e.channel })
      ∧ (∀ b, b ∈ u.bindings ↔ b ∈ s.bindings ∧ (∀ k e, b.trigger ≠ .key a k e)
        ∧ (∀ n l f, gone n = true → b.action ≠ .setChannel n l f ∧ b.action ≠ .toggleChannel n)
        ∧ ∀ sc ∈ s.scenes, left sc = false → b.action ≠ .takeScene sc.num)
      ∧ u.bindings.Sublist s.bindings
      ∧ d.channels = (s.channels.filter fun c => c.cfg.node = a).length ∧ d.entries = s.poolUsed - u.poolUsed
      ∧ d.scenes = s.scenes.length - u.scenes.length ∧ d.bindings = s.bindings.length - u.bindings.length
      ∧ { u with nodes := s.nodes, stations := s.stations, channels := s.channels, scenes := s.scenes, bindings := s.bindings } = s)

/-- ENROL_NODE with no enrolment and no save running, in every mode: for an address without a record and with a free place, and for a record of
the type that is not ACTIVE, whose hold is set and whose retry timer stops, the operation begins with an IDENTIFY at 120. BUSY while one or a
save runs, IN_USE for an ACTIVE record or one of another type, and FULL without a free place. A step's refused request is asked for again
at its retry, and each step's asking is that of `State.EnrolAsked` (R40 to R42).

The outcomes of its own transactions: the search finds a node of the type and goes on to the ASSIGN, or fails with NONE_FOUND, CONFLICT,
TYPE_MISMATCH or BUS_FAULT; the ASSIGN goes on to the confirming IDENTIFY, or fails with NO_CONFIRM; and that one ends in the update,
or waits for a running save, or fails with NO_CONFIRM. A failure is that of `State.EnrolFailed` (R41 to R43). An update that waited is made
once the save has ended: `State.Enrolled` (R42).

That an expiry given early moves the uptime to its moment, and that a stopped timer's expiry does nothing, is the model's choice
(notes/assumptions/7.md). That the firmware revision is the confirming reply's, and that a later failure reports the type of the last
reply, are inferences (notes/assumptions/22.md). -/
def Obligations.EnrolmentRuns : Prop :=
  (∀ (s : State) (tag : Byte) (a code : Nat) (ty : NodeType), 1 ≤ a → a ≤ 119 → nodeType? code = some ty →
    (s.enrolment = none → s.store.state ≠ .saving →
        (s.node a = none ∧ s.nodes.length < 48) ∨ (∃ r, s.node a = some r ∧ r.state ≠ .active ∧ r.type = ty) →
        ∃ t : State, exec (.enrolNode tag a code) s = .next (t.replied 0x16 tag .ok)
          ∧ State.EnrolAsked
            { s with nodes := s.nodes.map fun n => if n.addr = a then { n with enrolHold := true, retryTimer := none } else n } t
            { addr := a, type := ty })
      ∧ (s.enrolment.isSome = true ∨ s.store.state = .saving → exec (.enrolNode tag a code) s = .next (s.replied 0x16 tag .busy))
      ∧ (∀ r, s.enrolment = none → s.store.state ≠ .saving → s.node a = some r → r.state = .active ∨ r.type ≠ ty →
        exec (.enrolNode tag a code) s = .next (s.replied 0x16 tag .inUse))
      ∧ (s.enrolment = none → s.store.state ≠ .saving → s.node a = none → 48 ≤ s.nodes.length →
        exec (.enrolNode tag a code) s = .next (s.replied 0x16 tag .full)))
  ∧ (∀ s : State,
    (∀ e n, s.enrolment = some e → e.phase ≠ .deferred → e.retryTimer = some n →
        ∃ t, exec .enrolRetryExpiry s = .next t ∧ (s.atMoment n).EnrolAsked t e)
      ∧ (∀ e n, s.enrolment = some e → e.phase = .deferred → e.retryTimer = some n →
        exec .enrolRetryExpiry s = .next { s.atMoment n with enrolment := some { e with retryTimer := none } })
      ∧ (s.enrolment.bind (·.retryTimer) = none → exec .enrolRetryExpiry s = .next s)
      ∧ (∀ e, s.enrolment = some e → e.phase = .deferred → s.store.state ≠ .saving →
        ∃ t, exec .enrolDeferredUpdate s = .next t ∧ s.Enrolled t e)
      ∧ (∀ e, s.enrolment = some e → e.phase ≠ .deferred ∨ s.store.state = .saving → exec .enrolDeferredUpdate s = .next s)
      ∧ (s.enrolment = none → exec .enrolDeferredUpdate s = .next s))
  ∧ (∀ (s : State) (e : Enrolment), s.enrolment = some e →
    (e.phase = .search →
        (∀ ty serial fw, ty = e.type → s.EnrolAsked (s.enrolOutcome .done (.identify ty serial fw))
            { e with phase := .assign, serial := serial, reported := ty.code })
          ∧ (∀ ty serial fw, ty ≠ e.type → s.EnrolFailed (s.enrolOutcome .done (.identify ty serial fw)) e.addr 3 ty.code)
          ∧ s.EnrolFailed (s.enrolOutcome .noAckHead .nothing) e.addr 1 e.reported
          ∧ s.EnrolFailed (s.enrolOutcome .checkFail .nothing) e.addr 2 e.reported
          ∧ s.EnrolFailed (s.enrolOutcome .noAckData .nothing) e.addr 2 e.reported
          ∧ s.EnrolFailed (s.enrolOutcome .timeoutByte .nothing) e.addr 5 e.reported
          ∧ s.EnrolFailed (s.enrolOutcome .timeoutTransaction .nothing) e.addr 5 e.reported
          ∧ s.EnrolFailed (s.enrolOutcome .busFault .nothing) e.addr 5 e.reported)
      ∧ (e.phase = .assign →
        s.EnrolAsked (s.enrolOutcome .done .nothing) { e with phase := .confirm }
          ∧ ∀ outcome, outcome ≠ .done → s.EnrolFailed (s.enrolOutcome outcome .nothing) e.addr 4 e.reported)
      ∧ (e.phase = .confirm →
        (∀ ty serial fw, ty = e.type → serial = e.serial →
            (s.store.state ≠ .saving → s.Enrolled (s.enrolOutcome .done (.identify ty serial fw)) { e with firmware := some fw })
              ∧ (s.store.state = .saving → s.enrolOutcome .done (.identify ty serial fw) =
                { s with enrolment := some { e with phase := .deferred, firmware := some fw, reported := ty.code } }))
          ∧ (∀ ty serial fw, ty ≠ e.type ∨ serial ≠ e.serial →
            s.EnrolFailed (s.enrolOutcome .done (.identify ty serial fw)) e.addr 4 ty.code)
          ∧ ∀ outcome, outcome ≠ .done → s.EnrolFailed (s.enrolOutcome outcome .nothing) e.addr 4 e.reported))
  ∧ (∀ (s v : State) (x : Entry) (answer : TargetAnswer) (outcome : TxOutcome) (d : Delivered), s.bus.state = .own → s.bus.flying = some x →
    s.outcomeOf x.kind x.target answer = (outcome, d) → x.kind ≠ .release → s.bus.carried = .none →
    (x.enrol = true → v = s.enrolOutcome outcome d) → (x.enrol = false → v = s.nodeOutcome x.kind x.target outcome d) →
      exec (.transactionEnd answer) s = .next (State.deckPass (v.onBus fun b =>
        { b with state := .idle, wire := [], carried := .none, releaseOpen := false, queue := retireEntry v.uptime b.queue }) s))

/-! ## The reads -/

/-- Every read answers OK with the record or list it names, and changes nothing but the reply: a channel with its output, estimate and full
estimate, a scene, a binding, a node, the Roomline record, the allocator, the sense unit and each input, the deck and each of its parts, and
a station; what has no record is NOT_FOUND (R25, R46, R64, R73, R83, R105, R116, R138, R157, R161).

That the reply of one sense input carries the average, the number of samples and the phase too is the model's choice
(notes/assumptions/34.md), and so are that READ_BINDING with slot 0 and a first slot above 64 is answered OK with an empty list
(notes/assumptions/15.md), and that the record of a HOME or a JOG run shows a target of 0 (notes/assumptions/21.md). -/
def Obligations.ReadsChangeNothing : Prop :=
  ∀ (s : State) (tag : Byte),
    (∀ n f c, 1 ≤ n → n ≤ 96 → s.channel n = some c → exec (.readChannel tag n f) s = .next
        (s.replied 0x23 tag .ok (.channel c (min c.current c.ceiling) (c.estimateAt (min c.current c.ceiling)) (c.estimateAt c.current))))
      ∧ (∀ f, f ≤ 96 → exec (.readChannel tag 0 f) s = .next (s.replied 0x23 tag .ok (.channelList s.channels.length
        (((s.channels.filter fun c => max f 1 ≤ c.cfg.num).take 40).map fun c =>
          (c.cfg.num, c.cfg.node, c.cfg.index, min c.current c.ceiling)))))
      ∧ (∀ n f, 1 ≤ n → n ≤ 96 → s.channel n = none → exec (.readChannel tag n f) s = .next (s.replied 0x23 tag .notFound))
      ∧ (∀ n f sc, 1 ≤ n → n ≤ 64 → s.scene n = some sc → exec (.readScene tag n f) s = .next (s.replied 0x2B tag .ok
        (.scene sc.num sc.fade sc.entries.length (max f 1) ((sc.entries.drop (max f 1 - 1)).take 80))))
      ∧ (∀ n f, 1 ≤ n → n ≤ 64 → s.scene n = none → exec (.readScene tag n f) s = .next (s.replied 0x2B tag .notFound))
      ∧ (∀ f, exec (.readScene tag 0 f) s = .next (s.replied 0x2B tag .ok (.sceneList s.poolUsed (1024 - s.poolUsed) s.lastTake
        (s.build.map fun b => (b.scene, b.entries.length, b.total)) (s.scenes.map fun x => (x.num, x.entries.length)))))
      ∧ (∀ n f b, 1 ≤ n → n ≤ 64 → s.binding n = some b → exec (.readBinding tag n f) s = .next (s.replied 0x2F tag .ok (.binding b)))
      ∧ (∀ n f, 1 ≤ n → n ≤ 64 → s.binding n = none → exec (.readBinding tag n f) s = .next (s.replied 0x2F tag .notFound))
      ∧ (∀ f, exec (.readBinding tag 0 f) s = .next (s.replied 0x2F tag .ok
        (.bindingList s.bindings.length (((s.bindings.filter fun b => max f 1 ≤ b.slot).take 40).map fun b =>
          { slot := b.slot, fires := b.fires
            trigger := match b.trigger with | .key _ _ _ => .key | .deck _ => .deck | .shed _ _ => .shed | .sense _ _ => .sense
            action := match b.action with
              | .takeScene _ => .takeScene | .setChannel _ _ _ => .setChannel | .toggleChannel _ => .toggleChannel }))))
      ∧ (∀ a r, 1 ≤ a → a ≤ 119 → s.node a = some r → exec (.readNode tag a) s = .next (s.replied 0x17 tag .ok
        (.node r (r.retryTimer.map (remaining s.uptime)) (r.pollTimer.map (remaining s.uptime)))))
      ∧ (∀ a, 1 ≤ a → a ≤ 119 → s.node a = none → exec (.readNode tag a) s = .next (s.replied 0x17 tag .notFound))
      ∧ exec (.readNode tag 0) s = .next (s.replied 0x17 tag .ok (.nodeList (s.nodes.map fun r => (r.addr, r.state))))
      ∧ exec (.readRoomline tag) s = .next (s.replied 0x11 tag .ok (.roomline s.bus.view))
      ∧ exec (.readAllocation tag) s = .next (s.replied 0x32 tag .ok (.allocation s.allocView))
      ∧ exec (.readSense tag 0) s = .next (s.replied 0x39 tag .ok
        (.sense (s.sense.inputs.toList.map fun x => ⟨x.raw, x.scaled, x.faulted, x.railCount, x.highTripped, x.lowTripped⟩)
          s.sense.average s.sense.window.length s.sense.phase))
      ∧ (∀ i x, 1 ≤ i → i ≤ 8 → x = s.input i → exec (.readSense tag i) s = .next
        (s.replied 0x39 tag .ok (.senseOne ⟨x.raw, x.scaled, x.faulted, x.railCount, x.highTripped, x.lowTripped⟩ x.settings
          s.sense.average s.sense.window.length s.sense.phase)))
      ∧ exec (.readDeck tag 0) s = .next (s.replied 0x45 tag .ok (.deckSummary (s.hatch.state, s.hatch.position)
        (s.platform.state, s.platform.position) s.hpu.state s.windlass.state))
      ∧ exec (.readDeck tag 1) s = .next (s.replied 0x45 tag .ok (.mover (s.moverView .hatch)))
      ∧ exec (.readDeck tag 2) s = .next (s.replied 0x45 tag .ok (.mover (s.moverView .platform)))
      ∧ exec (.readDeck tag 3) s = .next (s.replied 0x45 tag .ok (.windlass s.windlassView))
      ∧ exec (.readDeck tag 4) s = .next (s.replied 0x45 tag .ok (.hpu s.hpuView))
      ∧ (∀ a r t, 1 ≤ a → a ≤ 119 → s.node a = some r → r.type = .station → s.station a = some t →
        exec (.readStation tag a) s = .next
          (s.replied 0x51 tag .ok (.station t.map r.held r.confirmTime t.spent (s.lampsOf t) t.delivered)))
      ∧ (∀ a, 1 ≤ a → a ≤ 119 → s.node a = none → exec (.readStation tag a) s = .next (s.replied 0x51 tag .notFound))
end

