-- ==== Sys2Proof/Laws/State.lean ====
section
/-!
SUPPORT. What each update of the state leaves and what it changes: one lemma per field per update, so that no proof unfolds a
record update.
-/

namespace Sys2Proof.Machine

variable (s : State)

/-! ## onLink -/

@[simp] theorem State.onLink_pending (f : Link → Link) : (s.onLink f).pending = s.pending := rfl
@[simp] theorem State.onLink_uptime (f : Link → Link) : (s.onLink f).uptime = s.uptime := rfl
@[simp] theorem State.onLink_mode (f : Link → Link) : (s.onLink f).mode = s.mode := rfl
@[simp] theorem State.onLink_resetCause (f : Link → Link) : (s.onLink f).resetCause = s.resetCause := rfl
@[simp] theorem State.onLink_autoStart (f : Link → Link) : (s.onLink f).autoStart = s.autoStart := rfl
@[simp] theorem State.onLink_store (f : Link → Link) : (s.onLink f).store = s.store := rfl
@[simp] theorem State.onLink_bootValid (f : Link → Link) : (s.onLink f).bootValid = s.bootValid := rfl
@[simp] theorem State.onLink_bootTimer (f : Link → Link) : (s.onLink f).bootTimer = s.bootTimer := rfl
@[simp] theorem State.onLink_link (f : Link → Link) : (s.onLink f).link = f s.link := rfl
@[simp] theorem State.onLink_bus (f : Link → Link) : (s.onLink f).bus = s.bus := rfl
@[simp] theorem State.onLink_nodes (f : Link → Link) : (s.onLink f).nodes = s.nodes := rfl
@[simp] theorem State.onLink_enrolment (f : Link → Link) : (s.onLink f).enrolment = s.enrolment := rfl
@[simp] theorem State.onLink_channels (f : Link → Link) : (s.onLink f).channels = s.channels := rfl
@[simp] theorem State.onLink_refresh (f : Link → Link) : (s.onLink f).refresh = s.refresh := rfl
@[simp] theorem State.onLink_scenes (f : Link → Link) : (s.onLink f).scenes = s.scenes := rfl
@[simp] theorem State.onLink_build (f : Link → Link) : (s.onLink f).build = s.build := rfl
@[simp] theorem State.onLink_lastTake (f : Link → Link) : (s.onLink f).lastTake = s.lastTake := rfl
@[simp] theorem State.onLink_bindings (f : Link → Link) : (s.onLink f).bindings = s.bindings := rfl
@[simp] theorem State.onLink_alloc (f : Link → Link) : (s.onLink f).alloc = s.alloc := rfl
@[simp] theorem State.onLink_sense (f : Link → Link) : (s.onLink f).sense = s.sense := rfl
@[simp] theorem State.onLink_hpu (f : Link → Link) : (s.onLink f).hpu = s.hpu := rfl
@[simp] theorem State.onLink_hatch (f : Link → Link) : (s.onLink f).hatch = s.hatch := rfl
@[simp] theorem State.onLink_platform (f : Link → Link) : (s.onLink f).platform = s.platform := rfl
@[simp] theorem State.onLink_windlass (f : Link → Link) : (s.onLink f).windlass = s.windlass := rfl
@[simp] theorem State.onLink_hatchOwner (f : Link → Link) : (s.onLink f).hatchOwner = s.hatchOwner := rfl
@[simp] theorem State.onLink_platformOwner (f : Link → Link) : (s.onLink f).platformOwner = s.platformOwner := rfl
@[simp] theorem State.onLink_windlassOwner (f : Link → Link) : (s.onLink f).windlassOwner = s.windlassOwner := rfl
@[simp] theorem State.onLink_stations (f : Link → Link) : (s.onLink f).stations = s.stations := rfl

/-! ## onBus -/

@[simp] theorem State.onBus_pending (f : Bus → Bus) : (s.onBus f).pending = s.pending := rfl
@[simp] theorem State.onBus_uptime (f : Bus → Bus) : (s.onBus f).uptime = s.uptime := rfl
@[simp] theorem State.onBus_mode (f : Bus → Bus) : (s.onBus f).mode = s.mode := rfl
@[simp] theorem State.onBus_resetCause (f : Bus → Bus) : (s.onBus f).resetCause = s.resetCause := rfl
@[simp] theorem State.onBus_autoStart (f : Bus → Bus) : (s.onBus f).autoStart = s.autoStart := rfl
@[simp] theorem State.onBus_store (f : Bus → Bus) : (s.onBus f).store = s.store := rfl
@[simp] theorem State.onBus_bootValid (f : Bus → Bus) : (s.onBus f).bootValid = s.bootValid := rfl
@[simp] theorem State.onBus_bootTimer (f : Bus → Bus) : (s.onBus f).bootTimer = s.bootTimer := rfl
@[simp] theorem State.onBus_link (f : Bus → Bus) : (s.onBus f).link = s.link := rfl
@[simp] theorem State.onBus_bus (f : Bus → Bus) : (s.onBus f).bus = f s.bus := rfl
@[simp] theorem State.onBus_nodes (f : Bus → Bus) : (s.onBus f).nodes = s.nodes := rfl
@[simp] theorem State.onBus_enrolment (f : Bus → Bus) : (s.onBus f).enrolment = s.enrolment := rfl
@[simp] theorem State.onBus_channels (f : Bus → Bus) : (s.onBus f).channels = s.channels := rfl
@[simp] theorem State.onBus_refresh (f : Bus → Bus) : (s.onBus f).refresh = s.refresh := rfl
@[simp] theorem State.onBus_scenes (f : Bus → Bus) : (s.onBus f).scenes = s.scenes := rfl
@[simp] theorem State.onBus_build (f : Bus → Bus) : (s.onBus f).build = s.build := rfl
@[simp] theorem State.onBus_lastTake (f : Bus → Bus) : (s.onBus f).lastTake = s.lastTake := rfl
@[simp] theorem State.onBus_bindings (f : Bus → Bus) : (s.onBus f).bindings = s.bindings := rfl
@[simp] theorem State.onBus_alloc (f : Bus → Bus) : (s.onBus f).alloc = s.alloc := rfl
@[simp] theorem State.onBus_sense (f : Bus → Bus) : (s.onBus f).sense = s.sense := rfl
@[simp] theorem State.onBus_hpu (f : Bus → Bus) : (s.onBus f).hpu = s.hpu := rfl
@[simp] theorem State.onBus_hatch (f : Bus → Bus) : (s.onBus f).hatch = s.hatch := rfl
@[simp] theorem State.onBus_platform (f : Bus → Bus) : (s.onBus f).platform = s.platform := rfl
@[simp] theorem State.onBus_windlass (f : Bus → Bus) : (s.onBus f).windlass = s.windlass := rfl
@[simp] theorem State.onBus_hatchOwner (f : Bus → Bus) : (s.onBus f).hatchOwner = s.hatchOwner := rfl
@[simp] theorem State.onBus_platformOwner (f : Bus → Bus) : (s.onBus f).platformOwner = s.platformOwner := rfl
@[simp] theorem State.onBus_windlassOwner (f : Bus → Bus) : (s.onBus f).windlassOwner = s.windlassOwner := rfl
@[simp] theorem State.onBus_stations (f : Bus → Bus) : (s.onBus f).stations = s.stations := rfl

/-! ## onAlloc -/

@[simp] theorem State.onAlloc_pending (f : Alloc → Alloc) : (s.onAlloc f).pending = s.pending := rfl
@[simp] theorem State.onAlloc_uptime (f : Alloc → Alloc) : (s.onAlloc f).uptime = s.uptime := rfl
@[simp] theorem State.onAlloc_mode (f : Alloc → Alloc) : (s.onAlloc f).mode = s.mode := rfl
@[simp] theorem State.onAlloc_resetCause (f : Alloc → Alloc) : (s.onAlloc f).resetCause = s.resetCause := rfl
@[simp] theorem State.onAlloc_autoStart (f : Alloc → Alloc) : (s.onAlloc f).autoStart = s.autoStart := rfl
@[simp] theorem State.onAlloc_store (f : Alloc → Alloc) : (s.onAlloc f).store = s.store := rfl
@[simp] theorem State.onAlloc_bootValid (f : Alloc → Alloc) : (s.onAlloc f).bootValid = s.bootValid := rfl
@[simp] theorem State.onAlloc_bootTimer (f : Alloc → Alloc) : (s.onAlloc f).bootTimer = s.bootTimer := rfl
@[simp] theorem State.onAlloc_link (f : Alloc → Alloc) : (s.onAlloc f).link = s.link := rfl
@[simp] theorem State.onAlloc_bus (f : Alloc → Alloc) : (s.onAlloc f).bus = s.bus := rfl
@[simp] theorem State.onAlloc_nodes (f : Alloc → Alloc) : (s.onAlloc f).nodes = s.nodes := rfl
@[simp] theorem State.onAlloc_enrolment (f : Alloc → Alloc) : (s.onAlloc f).enrolment = s.enrolment := rfl
@[simp] theorem State.onAlloc_channels (f : Alloc → Alloc) : (s.onAlloc f).channels = s.channels := rfl
@[simp] theorem State.onAlloc_refresh (f : Alloc → Alloc) : (s.onAlloc f).refresh = s.refresh := rfl
@[simp] theorem State.onAlloc_scenes (f : Alloc → Alloc) : (s.onAlloc f).scenes = s.scenes := rfl
@[simp] theorem State.onAlloc_build (f : Alloc → Alloc) : (s.onAlloc f).build = s.build := rfl
@[simp] theorem State.onAlloc_lastTake (f : Alloc → Alloc) : (s.onAlloc f).lastTake = s.lastTake := rfl
@[simp] theorem State.onAlloc_bindings (f : Alloc → Alloc) : (s.onAlloc f).bindings = s.bindings := rfl
@[simp] theorem State.onAlloc_alloc (f : Alloc → Alloc) : (s.onAlloc f).alloc = f s.alloc := rfl
@[simp] theorem State.onAlloc_sense (f : Alloc → Alloc) : (s.onAlloc f).sense = s.sense := rfl
@[simp] theorem State.onAlloc_hpu (f : Alloc → Alloc) : (s.onAlloc f).hpu = s.hpu := rfl
@[simp] theorem State.onAlloc_hatch (f : Alloc → Alloc) : (s.onAlloc f).hatch = s.hatch := rfl
@[simp] theorem State.onAlloc_platform (f : Alloc → Alloc) : (s.onAlloc f).platform = s.platform := rfl
@[simp] theorem State.onAlloc_windlass (f : Alloc → Alloc) : (s.onAlloc f).windlass = s.windlass := rfl
@[simp] theorem State.onAlloc_hatchOwner (f : Alloc → Alloc) : (s.onAlloc f).hatchOwner = s.hatchOwner := rfl
@[simp] theorem State.onAlloc_platformOwner (f : Alloc → Alloc) : (s.onAlloc f).platformOwner = s.platformOwner := rfl
@[simp] theorem State.onAlloc_windlassOwner (f : Alloc → Alloc) : (s.onAlloc f).windlassOwner = s.windlassOwner := rfl
@[simp] theorem State.onAlloc_stations (f : Alloc → Alloc) : (s.onAlloc f).stations = s.stations := rfl

/-! ## onSense -/

@[simp] theorem State.onSense_pending (f : Sense → Sense) : (s.onSense f).pending = s.pending := rfl
@[simp] theorem State.onSense_uptime (f : Sense → Sense) : (s.onSense f).uptime = s.uptime := rfl
@[simp] theorem State.onSense_mode (f : Sense → Sense) : (s.onSense f).mode = s.mode := rfl
@[simp] theorem State.onSense_resetCause (f : Sense → Sense) : (s.onSense f).resetCause = s.resetCause := rfl
@[simp] theorem State.onSense_autoStart (f : Sense → Sense) : (s.onSense f).autoStart = s.autoStart := rfl
@[simp] theorem State.onSense_store (f : Sense → Sense) : (s.onSense f).store = s.store := rfl
@[simp] theorem State.onSense_bootValid (f : Sense → Sense) : (s.onSense f).bootValid = s.bootValid := rfl
@[simp] theorem State.onSense_bootTimer (f : Sense → Sense) : (s.onSense f).bootTimer = s.bootTimer := rfl
@[simp] theorem State.onSense_link (f : Sense → Sense) : (s.onSense f).link = s.link := rfl
@[simp] theorem State.onSense_bus (f : Sense → Sense) : (s.onSense f).bus = s.bus := rfl
@[simp] theorem State.onSense_nodes (f : Sense → Sense) : (s.onSense f).nodes = s.nodes := rfl
@[simp] theorem State.onSense_enrolment (f : Sense → Sense) : (s.onSense f).enrolment = s.enrolment := rfl
@[simp] theorem State.onSense_channels (f : Sense → Sense) : (s.onSense f).channels = s.channels := rfl
@[simp] theorem State.onSense_refresh (f : Sense → Sense) : (s.onSense f).refresh = s.refresh := rfl
@[simp] theorem State.onSense_scenes (f : Sense → Sense) : (s.onSense f).scenes = s.scenes := rfl
@[simp] theorem State.onSense_build (f : Sense → Sense) : (s.onSense f).build = s.build := rfl
@[simp] theorem State.onSense_lastTake (f : Sense → Sense) : (s.onSense f).lastTake = s.lastTake := rfl
@[simp] theorem State.onSense_bindings (f : Sense → Sense) : (s.onSense f).bindings = s.bindings := rfl
@[simp] theorem State.onSense_alloc (f : Sense → Sense) : (s.onSense f).alloc = s.alloc := rfl
@[simp] theorem State.onSense_sense (f : Sense → Sense) : (s.onSense f).sense = f s.sense := rfl
@[simp] theorem State.onSense_hpu (f : Sense → Sense) : (s.onSense f).hpu = s.hpu := rfl
@[simp] theorem State.onSense_hatch (f : Sense → Sense) : (s.onSense f).hatch = s.hatch := rfl
@[simp] theorem State.onSense_platform (f : Sense → Sense) : (s.onSense f).platform = s.platform := rfl
@[simp] theorem State.onSense_windlass (f : Sense → Sense) : (s.onSense f).windlass = s.windlass := rfl
@[simp] theorem State.onSense_hatchOwner (f : Sense → Sense) : (s.onSense f).hatchOwner = s.hatchOwner := rfl
@[simp] theorem State.onSense_platformOwner (f : Sense → Sense) : (s.onSense f).platformOwner = s.platformOwner := rfl
@[simp] theorem State.onSense_windlassOwner (f : Sense → Sense) : (s.onSense f).windlassOwner = s.windlassOwner := rfl
@[simp] theorem State.onSense_stations (f : Sense → Sense) : (s.onSense f).stations = s.stations := rfl

/-! ## onHpu -/

@[simp] theorem State.onHpu_pending (f : Hpu → Hpu) : (s.onHpu f).pending = s.pending := rfl
@[simp] theorem State.onHpu_uptime (f : Hpu → Hpu) : (s.onHpu f).uptime = s.uptime := rfl
@[simp] theorem State.onHpu_mode (f : Hpu → Hpu) : (s.onHpu f).mode = s.mode := rfl
@[simp] theorem State.onHpu_resetCause (f : Hpu → Hpu) : (s.onHpu f).resetCause = s.resetCause := rfl
@[simp] theorem State.onHpu_autoStart (f : Hpu → Hpu) : (s.onHpu f).autoStart = s.autoStart := rfl
@[simp] theorem State.onHpu_store (f : Hpu → Hpu) : (s.onHpu f).store = s.store := rfl
@[simp] theorem State.onHpu_bootValid (f : Hpu → Hpu) : (s.onHpu f).bootValid = s.bootValid := rfl
@[simp] theorem State.onHpu_bootTimer (f : Hpu → Hpu) : (s.onHpu f).bootTimer = s.bootTimer := rfl
@[simp] theorem State.onHpu_link (f : Hpu → Hpu) : (s.onHpu f).link = s.link := rfl
@[simp] theorem State.onHpu_bus (f : Hpu → Hpu) : (s.onHpu f).bus = s.bus := rfl
@[simp] theorem State.onHpu_nodes (f : Hpu → Hpu) : (s.onHpu f).nodes = s.nodes := rfl
@[simp] theorem State.onHpu_enrolment (f : Hpu → Hpu) : (s.onHpu f).enrolment = s.enrolment := rfl
@[simp] theorem State.onHpu_channels (f : Hpu → Hpu) : (s.onHpu f).channels = s.channels := rfl
@[simp] theorem State.onHpu_refresh (f : Hpu → Hpu) : (s.onHpu f).refresh = s.refresh := rfl
@[simp] theorem State.onHpu_scenes (f : Hpu → Hpu) : (s.onHpu f).scenes = s.scenes := rfl
@[simp] theorem State.onHpu_build (f : Hpu → Hpu) : (s.onHpu f).build = s.build := rfl
@[simp] theorem State.onHpu_lastTake (f : Hpu → Hpu) : (s.onHpu f).lastTake = s.lastTake := rfl
@[simp] theorem State.onHpu_bindings (f : Hpu → Hpu) : (s.onHpu f).bindings = s.bindings := rfl
@[simp] theorem State.onHpu_alloc (f : Hpu → Hpu) : (s.onHpu f).alloc = s.alloc := rfl
@[simp] theorem State.onHpu_sense (f : Hpu → Hpu) : (s.onHpu f).sense = s.sense := rfl
@[simp] theorem State.onHpu_hpu (f : Hpu → Hpu) : (s.onHpu f).hpu = f s.hpu := rfl
@[simp] theorem State.onHpu_hatch (f : Hpu → Hpu) : (s.onHpu f).hatch = s.hatch := rfl
@[simp] theorem State.onHpu_platform (f : Hpu → Hpu) : (s.onHpu f).platform = s.platform := rfl
@[simp] theorem State.onHpu_windlass (f : Hpu → Hpu) : (s.onHpu f).windlass = s.windlass := rfl
@[simp] theorem State.onHpu_hatchOwner (f : Hpu → Hpu) : (s.onHpu f).hatchOwner = s.hatchOwner := rfl
@[simp] theorem State.onHpu_platformOwner (f : Hpu → Hpu) : (s.onHpu f).platformOwner = s.platformOwner := rfl
@[simp] theorem State.onHpu_windlassOwner (f : Hpu → Hpu) : (s.onHpu f).windlassOwner = s.windlassOwner := rfl
@[simp] theorem State.onHpu_stations (f : Hpu → Hpu) : (s.onHpu f).stations = s.stations := rfl

/-! ## onWindlass -/

@[simp] theorem State.onWindlass_pending (f : Windlass → Windlass) : (s.onWindlass f).pending = s.pending := rfl
@[simp] theorem State.onWindlass_uptime (f : Windlass → Windlass) : (s.onWindlass f).uptime = s.uptime := rfl
@[simp] theorem State.onWindlass_mode (f : Windlass → Windlass) : (s.onWindlass f).mode = s.mode := rfl
@[simp] theorem State.onWindlass_resetCause (f : Windlass → Windlass) : (s.onWindlass f).resetCause = s.resetCause := rfl
@[simp] theorem State.onWindlass_autoStart (f : Windlass → Windlass) : (s.onWindlass f).autoStart = s.autoStart := rfl
@[simp] theorem State.onWindlass_store (f : Windlass → Windlass) : (s.onWindlass f).store = s.store := rfl
@[simp] theorem State.onWindlass_bootValid (f : Windlass → Windlass) : (s.onWindlass f).bootValid = s.bootValid := rfl
@[simp] theorem State.onWindlass_bootTimer (f : Windlass → Windlass) : (s.onWindlass f).bootTimer = s.bootTimer := rfl
@[simp] theorem State.onWindlass_link (f : Windlass → Windlass) : (s.onWindlass f).link = s.link := rfl
@[simp] theorem State.onWindlass_bus (f : Windlass → Windlass) : (s.onWindlass f).bus = s.bus := rfl
@[simp] theorem State.onWindlass_nodes (f : Windlass → Windlass) : (s.onWindlass f).nodes = s.nodes := rfl
@[simp] theorem State.onWindlass_enrolment (f : Windlass → Windlass) : (s.onWindlass f).enrolment = s.enrolment := rfl
@[simp] theorem State.onWindlass_channels (f : Windlass → Windlass) : (s.onWindlass f).channels = s.channels := rfl
@[simp] theorem State.onWindlass_refresh (f : Windlass → Windlass) : (s.onWindlass f).refresh = s.refresh := rfl
@[simp] theorem State.onWindlass_scenes (f : Windlass → Windlass) : (s.onWindlass f).scenes = s.scenes := rfl
@[simp] theorem State.onWindlass_build (f : Windlass → Windlass) : (s.onWindlass f).build = s.build := rfl
@[simp] theorem State.onWindlass_lastTake (f : Windlass → Windlass) : (s.onWindlass f).lastTake = s.lastTake := rfl
@[simp] theorem State.onWindlass_bindings (f : Windlass → Windlass) : (s.onWindlass f).bindings = s.bindings := rfl
@[simp] theorem State.onWindlass_alloc (f : Windlass → Windlass) : (s.onWindlass f).alloc = s.alloc := rfl
@[simp] theorem State.onWindlass_sense (f : Windlass → Windlass) : (s.onWindlass f).sense = s.sense := rfl
@[simp] theorem State.onWindlass_hpu (f : Windlass → Windlass) : (s.onWindlass f).hpu = s.hpu := rfl
@[simp] theorem State.onWindlass_hatch (f : Windlass → Windlass) : (s.onWindlass f).hatch = s.hatch := rfl
@[simp] theorem State.onWindlass_platform (f : Windlass → Windlass) : (s.onWindlass f).platform = s.platform := rfl
@[simp] theorem State.onWindlass_windlass (f : Windlass → Windlass) : (s.onWindlass f).windlass = f s.windlass := rfl
@[simp] theorem State.onWindlass_hatchOwner (f : Windlass → Windlass) : (s.onWindlass f).hatchOwner = s.hatchOwner := rfl
@[simp] theorem State.onWindlass_platformOwner (f : Windlass → Windlass) : (s.onWindlass f).platformOwner = s.platformOwner := rfl
@[simp] theorem State.onWindlass_windlassOwner (f : Windlass → Windlass) : (s.onWindlass f).windlassOwner = s.windlassOwner := rfl
@[simp] theorem State.onWindlass_stations (f : Windlass → Windlass) : (s.onWindlass f).stations = s.stations := rfl

/-! ## onNode -/

@[simp] theorem State.onNode_pending (a : Nat) (f : NodeRecord → NodeRecord) : (s.onNode a f).pending = s.pending := rfl
@[simp] theorem State.onNode_uptime (a : Nat) (f : NodeRecord → NodeRecord) : (s.onNode a f).uptime = s.uptime := rfl
@[simp] theorem State.onNode_mode (a : Nat) (f : NodeRecord → NodeRecord) : (s.onNode a f).mode = s.mode := rfl
@[simp] theorem State.onNode_resetCause (a : Nat) (f : NodeRecord → NodeRecord) : (s.onNode a f).resetCause = s.resetCause := rfl
@[simp] theorem State.onNode_autoStart (a : Nat) (f : NodeRecord → NodeRecord) : (s.onNode a f).autoStart = s.autoStart := rfl
@[simp] theorem State.onNode_store (a : Nat) (f : NodeRecord → NodeRecord) : (s.onNode a f).store = s.store := rfl
@[simp] theorem State.onNode_bootValid (a : Nat) (f : NodeRecord → NodeRecord) : (s.onNode a f).bootValid = s.bootValid := rfl
@[simp] theorem State.onNode_bootTimer (a : Nat) (f : NodeRecord → NodeRecord) : (s.onNode a f).bootTimer = s.bootTimer := rfl
@[simp] theorem State.onNode_link (a : Nat) (f : NodeRecord → NodeRecord) : (s.onNode a f).link = s.link := rfl
@[simp] theorem State.onNode_bus (a : Nat) (f : NodeRecord → NodeRecord) : (s.onNode a f).bus = s.bus := rfl
@[simp] theorem State.onNode_nodes (a : Nat) (f : NodeRecord → NodeRecord) : (s.onNode a f).nodes = tableModify (·.addr) a f s.nodes := rfl
@[simp] theorem State.onNode_enrolment (a : Nat) (f : NodeRecord → NodeRecord) : (s.onNode a f).enrolment = s.enrolment := rfl
@[simp] theorem State.onNode_channels (a : Nat) (f : NodeRecord → NodeRecord) : (s.onNode a f).channels = s.channels := rfl
@[simp] theorem State.onNode_refresh (a : Nat) (f : NodeRecord → NodeRecord) : (s.onNode a f).refresh = s.refresh := rfl
@[simp] theorem State.onNode_scenes (a : Nat) (f : NodeRecord → NodeRecord) : (s.onNode a f).scenes = s.scenes := rfl
@[simp] theorem State.onNode_build (a : Nat) (f : NodeRecord → NodeRecord) : (s.onNode a f).build = s.build := rfl
@[simp] theorem State.onNode_lastTake (a : Nat) (f : NodeRecord → NodeRecord) : (s.onNode a f).lastTake = s.lastTake := rfl
@[simp] theorem State.onNode_bindings (a : Nat) (f : NodeRecord → NodeRecord) : (s.onNode a f).bindings = s.bindings := rfl
@[simp] theorem State.onNode_alloc (a : Nat) (f : NodeRecord → NodeRecord) : (s.onNode a f).alloc = s.alloc := rfl
@[simp] theorem State.onNode_sense (a : Nat) (f : NodeRecord → NodeRecord) : (s.onNode a f).sense = s.sense := rfl
@[simp] theorem State.onNode_hpu (a : Nat) (f : NodeRecord → NodeRecord) : (s.onNode a f).hpu = s.hpu := rfl
@[simp] theorem State.onNode_hatch (a : Nat) (f : NodeRecord → NodeRecord) : (s.onNode a f).hatch = s.hatch := rfl
@[simp] theorem State.onNode_platform (a : Nat) (f : NodeRecord → NodeRecord) : (s.onNode a f).platform = s.platform := rfl
@[simp] theorem State.onNode_windlass (a : Nat) (f : NodeRecord → NodeRecord) : (s.onNode a f).windlass = s.windlass := rfl
@[simp] theorem State.onNode_hatchOwner (a : Nat) (f : NodeRecord → NodeRecord) : (s.onNode a f).hatchOwner = s.hatchOwner := rfl
@[simp] theorem State.onNode_platformOwner (a : Nat) (f : NodeRecord → NodeRecord) : (s.onNode a f).platformOwner = s.platformOwner := rfl
@[simp] theorem State.onNode_windlassOwner (a : Nat) (f : NodeRecord → NodeRecord) : (s.onNode a f).windlassOwner = s.windlassOwner := rfl
@[simp] theorem State.onNode_stations (a : Nat) (f : NodeRecord → NodeRecord) : (s.onNode a f).stations = s.stations := rfl

/-! ## onChannel -/

@[simp] theorem State.onChannel_pending (c : Nat) (f : Channel → Channel) : (s.onChannel c f).pending = s.pending := rfl
@[simp] theorem State.onChannel_uptime (c : Nat) (f : Channel → Channel) : (s.onChannel c f).uptime = s.uptime := rfl
@[simp] theorem State.onChannel_mode (c : Nat) (f : Channel → Channel) : (s.onChannel c f).mode = s.mode := rfl
@[simp] theorem State.onChannel_resetCause (c : Nat) (f : Channel → Channel) : (s.onChannel c f).resetCause = s.resetCause := rfl
@[simp] theorem State.onChannel_autoStart (c : Nat) (f : Channel → Channel) : (s.onChannel c f).autoStart = s.autoStart := rfl
@[simp] theorem State.onChannel_store (c : Nat) (f : Channel → Channel) : (s.onChannel c f).store = s.store := rfl
@[simp] theorem State.onChannel_bootValid (c : Nat) (f : Channel → Channel) : (s.onChannel c f).bootValid = s.bootValid := rfl
@[simp] theorem State.onChannel_bootTimer (c : Nat) (f : Channel → Channel) : (s.onChannel c f).bootTimer = s.bootTimer := rfl
@[simp] theorem State.onChannel_link (c : Nat) (f : Channel → Channel) : (s.onChannel c f).link = s.link := rfl
@[simp] theorem State.onChannel_bus (c : Nat) (f : Channel → Channel) : (s.onChannel c f).bus = s.bus := rfl
@[simp] theorem State.onChannel_nodes (c : Nat) (f : Channel → Channel) : (s.onChannel c f).nodes = s.nodes := rfl
@[simp] theorem State.onChannel_enrolment (c : Nat) (f : Channel → Channel) : (s.onChannel c f).enrolment = s.enrolment := rfl
@[simp] theorem State.onChannel_channels (c : Nat) (f : Channel → Channel) : (s.onChannel c f).channels = tableModify (·.cfg.num) c f s.channels := rfl
@[simp] theorem State.onChannel_refresh (c : Nat) (f : Channel → Channel) : (s.onChannel c f).refresh = s.refresh := rfl
@[simp] theorem State.onChannel_scenes (c : Nat) (f : Channel → Channel) : (s.onChannel c f).scenes = s.scenes := rfl
@[simp] theorem State.onChannel_build (c : Nat) (f : Channel → Channel) : (s.onChannel c f).build = s.build := rfl
@[simp] theorem State.onChannel_lastTake (c : Nat) (f : Channel → Channel) : (s.onChannel c f).lastTake = s.lastTake := rfl
@[simp] theorem State.onChannel_bindings (c : Nat) (f : Channel → Channel) : (s.onChannel c f).bindings = s.bindings := rfl
@[simp] theorem State.onChannel_alloc (c : Nat) (f : Channel → Channel) : (s.onChannel c f).alloc = s.alloc := rfl
@[simp] theorem State.onChannel_sense (c : Nat) (f : Channel → Channel) : (s.onChannel c f).sense = s.sense := rfl
@[simp] theorem State.onChannel_hpu (c : Nat) (f : Channel → Channel) : (s.onChannel c f).hpu = s.hpu := rfl
@[simp] theorem State.onChannel_hatch (c : Nat) (f : Channel → Channel) : (s.onChannel c f).hatch = s.hatch := rfl
@[simp] theorem State.onChannel_platform (c : Nat) (f : Channel → Channel) : (s.onChannel c f).platform = s.platform := rfl
@[simp] theorem State.onChannel_windlass (c : Nat) (f : Channel → Channel) : (s.onChannel c f).windlass = s.windlass := rfl
@[simp] theorem State.onChannel_hatchOwner (c : Nat) (f : Channel → Channel) : (s.onChannel c f).hatchOwner = s.hatchOwner := rfl
@[simp] theorem State.onChannel_platformOwner (c : Nat) (f : Channel → Channel) : (s.onChannel c f).platformOwner = s.platformOwner := rfl
@[simp] theorem State.onChannel_windlassOwner (c : Nat) (f : Channel → Channel) : (s.onChannel c f).windlassOwner = s.windlassOwner := rfl
@[simp] theorem State.onChannel_stations (c : Nat) (f : Channel → Channel) : (s.onChannel c f).stations = s.stations := rfl

/-! ## onChannels -/

@[simp] theorem State.onChannels_pending (f : Channel → Channel) : (s.onChannels f).pending = s.pending := rfl
@[simp] theorem State.onChannels_uptime (f : Channel → Channel) : (s.onChannels f).uptime = s.uptime := rfl
@[simp] theorem State.onChannels_mode (f : Channel → Channel) : (s.onChannels f).mode = s.mode := rfl
@[simp] theorem State.onChannels_resetCause (f : Channel → Channel) : (s.onChannels f).resetCause = s.resetCause := rfl
@[simp] theorem State.onChannels_autoStart (f : Channel → Channel) : (s.onChannels f).autoStart = s.autoStart := rfl
@[simp] theorem State.onChannels_store (f : Channel → Channel) : (s.onChannels f).store = s.store := rfl
@[simp] theorem State.onChannels_bootValid (f : Channel → Channel) : (s.onChannels f).bootValid = s.bootValid := rfl
@[simp] theorem State.onChannels_bootTimer (f : Channel → Channel) : (s.onChannels f).bootTimer = s.bootTimer := rfl
@[simp] theorem State.onChannels_link (f : Channel → Channel) : (s.onChannels f).link = s.link := rfl
@[simp] theorem State.onChannels_bus (f : Channel → Channel) : (s.onChannels f).bus = s.bus := rfl
@[simp] theorem State.onChannels_nodes (f : Channel → Channel) : (s.onChannels f).nodes = s.nodes := rfl
@[simp] theorem State.onChannels_enrolment (f : Channel → Channel) : (s.onChannels f).enrolment = s.enrolment := rfl
@[simp] theorem State.onChannels_channels (f : Channel → Channel) : (s.onChannels f).channels = s.channels.map f := rfl
@[simp] theorem State.onChannels_refresh (f : Channel → Channel) : (s.onChannels f).refresh = s.refresh := rfl
@[simp] theorem State.onChannels_scenes (f : Channel → Channel) : (s.onChannels f).scenes = s.scenes := rfl
@[simp] theorem State.onChannels_build (f : Channel → Channel) : (s.onChannels f).build = s.build := rfl
@[simp] theorem State.onChannels_lastTake (f : Channel → Channel) : (s.onChannels f).lastTake = s.lastTake := rfl
@[simp] theorem State.onChannels_bindings (f : Channel → Channel) : (s.onChannels f).bindings = s.bindings := rfl
@[simp] theorem State.onChannels_alloc (f : Channel → Channel) : (s.onChannels f).alloc = s.alloc := rfl
@[simp] theorem State.onChannels_sense (f : Channel → Channel) : (s.onChannels f).sense = s.sense := rfl
@[simp] theorem State.onChannels_hpu (f : Channel → Channel) : (s.onChannels f).hpu = s.hpu := rfl
@[simp] theorem State.onChannels_hatch (f : Channel → Channel) : (s.onChannels f).hatch = s.hatch := rfl
@[simp] theorem State.onChannels_platform (f : Channel → Channel) : (s.onChannels f).platform = s.platform := rfl
@[simp] theorem State.onChannels_windlass (f : Channel → Channel) : (s.onChannels f).windlass = s.windlass := rfl
@[simp] theorem State.onChannels_hatchOwner (f : Channel → Channel) : (s.onChannels f).hatchOwner = s.hatchOwner := rfl
@[simp] theorem State.onChannels_platformOwner (f : Channel → Channel) : (s.onChannels f).platformOwner = s.platformOwner := rfl
@[simp] theorem State.onChannels_windlassOwner (f : Channel → Channel) : (s.onChannels f).windlassOwner = s.windlassOwner := rfl
@[simp] theorem State.onChannels_stations (f : Channel → Channel) : (s.onChannels f).stations = s.stations := rfl

/-! ## onStation -/

@[simp] theorem State.onStation_pending (a : Nat) (f : Station → Station) : (s.onStation a f).pending = s.pending := rfl
@[simp] theorem State.onStation_uptime (a : Nat) (f : Station → Station) : (s.onStation a f).uptime = s.uptime := rfl
@[simp] theorem State.onStation_mode (a : Nat) (f : Station → Station) : (s.onStation a f).mode = s.mode := rfl
@[simp] theorem State.onStation_resetCause (a : Nat) (f : Station → Station) : (s.onStation a f).resetCause = s.resetCause := rfl
@[simp] theorem State.onStation_autoStart (a : Nat) (f : Station → Station) : (s.onStation a f).autoStart = s.autoStart := rfl
@[simp] theorem State.onStation_store (a : Nat) (f : Station → Station) : (s.onStation a f).store = s.store := rfl
@[simp] theorem State.onStation_bootValid (a : Nat) (f : Station → Station) : (s.onStation a f).bootValid = s.bootValid := rfl
@[simp] theorem State.onStation_bootTimer (a : Nat) (f : Station → Station) : (s.onStation a f).bootTimer = s.bootTimer := rfl
@[simp] theorem State.onStation_link (a : Nat) (f : Station → Station) : (s.onStation a f).link = s.link := rfl
@[simp] theorem State.onStation_bus (a : Nat) (f : Station → Station) : (s.onStation a f).bus = s.bus := rfl
@[simp] theorem State.onStation_nodes (a : Nat) (f : Station → Station) : (s.onStation a f).nodes = s.nodes := rfl
@[simp] theorem State.onStation_enrolment (a : Nat) (f : Station → Station) : (s.onStation a f).enrolment = s.enrolment := rfl
@[simp] theorem State.onStation_channels (a : Nat) (f : Station → Station) : (s.onStation a f).channels = s.channels := rfl
@[simp] theorem State.onStation_refresh (a : Nat) (f : Station → Station) : (s.onStation a f).refresh = s.refresh := rfl
@[simp] theorem State.onStation_scenes (a : Nat) (f : Station → Station) : (s.onStation a f).scenes = s.scenes := rfl
@[simp] theorem State.onStation_build (a : Nat) (f : Station → Station) : (s.onStation a f).build = s.build := rfl
@[simp] theorem State.onStation_lastTake (a : Nat) (f : Station → Station) : (s.onStation a f).lastTake = s.lastTake := rfl
@[simp] theorem State.onStation_bindings (a : Nat) (f : Station → Station) : (s.onStation a f).bindings = s.bindings := rfl
@[simp] theorem State.onStation_alloc (a : Nat) (f : Station → Station) : (s.onStation a f).alloc = s.alloc := rfl
@[simp] theorem State.onStation_sense (a : Nat) (f : Station → Station) : (s.onStation a f).sense = s.sense := rfl
@[simp] theorem State.onStation_hpu (a : Nat) (f : Station → Station) : (s.onStation a f).hpu = s.hpu := rfl
@[simp] theorem State.onStation_hatch (a : Nat) (f : Station → Station) : (s.onStation a f).hatch = s.hatch := rfl
@[simp] theorem State.onStation_platform (a : Nat) (f : Station → Station) : (s.onStation a f).platform = s.platform := rfl
@[simp] theorem State.onStation_windlass (a : Nat) (f : Station → Station) : (s.onStation a f).windlass = s.windlass := rfl
@[simp] theorem State.onStation_hatchOwner (a : Nat) (f : Station → Station) : (s.onStation a f).hatchOwner = s.hatchOwner := rfl
@[simp] theorem State.onStation_platformOwner (a : Nat) (f : Station → Station) : (s.onStation a f).platformOwner = s.platformOwner := rfl
@[simp] theorem State.onStation_windlassOwner (a : Nat) (f : Station → Station) : (s.onStation a f).windlassOwner = s.windlassOwner := rfl
@[simp] theorem State.onStation_stations (a : Nat) (f : Station → Station) : (s.onStation a f).stations = tableModify (·.addr) a f s.stations := rfl

/-! ## onEnrolment -/

@[simp] theorem State.onEnrolment_pending (f : Enrolment → Enrolment) : (s.onEnrolment f).pending = s.pending := rfl
@[simp] theorem State.onEnrolment_uptime (f : Enrolment → Enrolment) : (s.onEnrolment f).uptime = s.uptime := rfl
@[simp] theorem State.onEnrolment_mode (f : Enrolment → Enrolment) : (s.onEnrolment f).mode = s.mode := rfl
@[simp] theorem State.onEnrolment_resetCause (f : Enrolment → Enrolment) : (s.onEnrolment f).resetCause = s.resetCause := rfl
@[simp] theorem State.onEnrolment_autoStart (f : Enrolment → Enrolment) : (s.onEnrolment f).autoStart = s.autoStart := rfl
@[simp] theorem State.onEnrolment_store (f : Enrolment → Enrolment) : (s.onEnrolment f).store = s.store := rfl
@[simp] theorem State.onEnrolment_bootValid (f : Enrolment → Enrolment) : (s.onEnrolment f).bootValid = s.bootValid := rfl
@[simp] theorem State.onEnrolment_bootTimer (f : Enrolment → Enrolment) : (s.onEnrolment f).bootTimer = s.bootTimer := rfl
@[simp] theorem State.onEnrolment_link (f : Enrolment → Enrolment) : (s.onEnrolment f).link = s.link := rfl
@[simp] theorem State.onEnrolment_bus (f : Enrolment → Enrolment) : (s.onEnrolment f).bus = s.bus := rfl
@[simp] theorem State.onEnrolment_nodes (f : Enrolment → Enrolment) : (s.onEnrolment f).nodes = s.nodes := rfl
@[simp] theorem State.onEnrolment_enrolment (f : Enrolment → Enrolment) : (s.onEnrolment f).enrolment = s.enrolment.map f := rfl
@[simp] theorem State.onEnrolment_channels (f : Enrolment → Enrolment) : (s.onEnrolment f).channels = s.channels := rfl
@[simp] theorem State.onEnrolment_refresh (f : Enrolment → Enrolment) : (s.onEnrolment f).refresh = s.refresh := rfl
@[simp] theorem State.onEnrolment_scenes (f : Enrolment → Enrolment) : (s.onEnrolment f).scenes = s.scenes := rfl
@[simp] theorem State.onEnrolment_build (f : Enrolment → Enrolment) : (s.onEnrolment f).build = s.build := rfl
@[simp] theorem State.onEnrolment_lastTake (f : Enrolment → Enrolment) : (s.onEnrolment f).lastTake = s.lastTake := rfl
@[simp] theorem State.onEnrolment_bindings (f : Enrolment → Enrolment) : (s.onEnrolment f).bindings = s.bindings := rfl
@[simp] theorem State.onEnrolment_alloc (f : Enrolment → Enrolment) : (s.onEnrolment f).alloc = s.alloc := rfl
@[simp] theorem State.onEnrolment_sense (f : Enrolment → Enrolment) : (s.onEnrolment f).sense = s.sense := rfl
@[simp] theorem State.onEnrolment_hpu (f : Enrolment → Enrolment) : (s.onEnrolment f).hpu = s.hpu := rfl
@[simp] theorem State.onEnrolment_hatch (f : Enrolment → Enrolment) : (s.onEnrolment f).hatch = s.hatch := rfl
@[simp] theorem State.onEnrolment_platform (f : Enrolment → Enrolment) : (s.onEnrolment f).platform = s.platform := rfl
@[simp] theorem State.onEnrolment_windlass (f : Enrolment → Enrolment) : (s.onEnrolment f).windlass = s.windlass := rfl
@[simp] theorem State.onEnrolment_hatchOwner (f : Enrolment → Enrolment) : (s.onEnrolment f).hatchOwner = s.hatchOwner := rfl
@[simp] theorem State.onEnrolment_platformOwner (f : Enrolment → Enrolment) : (s.onEnrolment f).platformOwner = s.platformOwner := rfl
@[simp] theorem State.onEnrolment_windlassOwner (f : Enrolment → Enrolment) : (s.onEnrolment f).windlassOwner = s.windlassOwner := rfl
@[simp] theorem State.onEnrolment_stations (f : Enrolment → Enrolment) : (s.onEnrolment f).stations = s.stations := rfl

/-! ## post -/

@[simp] theorem State.post_pending (k : NoticeKind) (src : Nat) (d : List Byte) : (s.post k src d).pending = s.pending := rfl
@[simp] theorem State.post_uptime (k : NoticeKind) (src : Nat) (d : List Byte) : (s.post k src d).uptime = s.uptime := rfl
@[simp] theorem State.post_mode (k : NoticeKind) (src : Nat) (d : List Byte) : (s.post k src d).mode = s.mode := rfl
@[simp] theorem State.post_resetCause (k : NoticeKind) (src : Nat) (d : List Byte) : (s.post k src d).resetCause = s.resetCause := rfl
@[simp] theorem State.post_autoStart (k : NoticeKind) (src : Nat) (d : List Byte) : (s.post k src d).autoStart = s.autoStart := rfl
@[simp] theorem State.post_store (k : NoticeKind) (src : Nat) (d : List Byte) : (s.post k src d).store = s.store := rfl
@[simp] theorem State.post_bootValid (k : NoticeKind) (src : Nat) (d : List Byte) : (s.post k src d).bootValid = s.bootValid := rfl
@[simp] theorem State.post_bootTimer (k : NoticeKind) (src : Nat) (d : List Byte) : (s.post k src d).bootTimer = s.bootTimer := rfl
@[simp] theorem State.post_link (k : NoticeKind) (src : Nat) (d : List Byte) : (s.post k src d).link = s.link.post ⟨k, src, d, s.uptime⟩ := rfl
@[simp] theorem State.post_bus (k : NoticeKind) (src : Nat) (d : List Byte) : (s.post k src d).bus = s.bus := rfl
@[simp] theorem State.post_nodes (k : NoticeKind) (src : Nat) (d : List Byte) : (s.post k src d).nodes = s.nodes := rfl
@[simp] theorem State.post_enrolment (k : NoticeKind) (src : Nat) (d : List Byte) : (s.post k src d).enrolment = s.enrolment := rfl
@[simp] theorem State.post_channels (k : NoticeKind) (src : Nat) (d : List Byte) : (s.post k src d).channels = s.channels := rfl
@[simp] theorem State.post_refresh (k : NoticeKind) (src : Nat) (d : List Byte) : (s.post k src d).refresh = s.refresh := rfl
@[simp] theorem State.post_scenes (k : NoticeKind) (src : Nat) (d : List Byte) : (s.post k src d).scenes = s.scenes := rfl
@[simp] theorem State.post_build (k : NoticeKind) (src : Nat) (d : List Byte) : (s.post k src d).build = s.build := rfl
@[simp] theorem State.post_lastTake (k : NoticeKind) (src : Nat) (d : List Byte) : (s.post k src d).lastTake = s.lastTake := rfl
@[simp] theorem State.post_bindings (k : NoticeKind) (src : Nat) (d : List Byte) : (s.post k src d).bindings = s.bindings := rfl
@[simp] theorem State.post_alloc (k : NoticeKind) (src : Nat) (d : List Byte) : (s.post k src d).alloc = s.alloc := rfl
@[simp] theorem State.post_sense (k : NoticeKind) (src : Nat) (d : List Byte) : (s.post k src d).sense = s.sense := rfl
@[simp] theorem State.post_hpu (k : NoticeKind) (src : Nat) (d : List Byte) : (s.post k src d).hpu = s.hpu := rfl
@[simp] theorem State.post_hatch (k : NoticeKind) (src : Nat) (d : List Byte) : (s.post k src d).hatch = s.hatch := rfl
@[simp] theorem State.post_platform (k : NoticeKind) (src : Nat) (d : List Byte) : (s.post k src d).platform = s.platform := rfl
@[simp] theorem State.post_windlass (k : NoticeKind) (src : Nat) (d : List Byte) : (s.post k src d).windlass = s.windlass := rfl
@[simp] theorem State.post_hatchOwner (k : NoticeKind) (src : Nat) (d : List Byte) : (s.post k src d).hatchOwner = s.hatchOwner := rfl
@[simp] theorem State.post_platformOwner (k : NoticeKind) (src : Nat) (d : List Byte) : (s.post k src d).platformOwner = s.platformOwner := rfl
@[simp] theorem State.post_windlassOwner (k : NoticeKind) (src : Nat) (d : List Byte) : (s.post k src d).windlassOwner = s.windlassOwner := rfl
@[simp] theorem State.post_stations (k : NoticeKind) (src : Nat) (d : List Byte) : (s.post k src d).stations = s.stations := rfl

/-! ## onMover and onOwner, by their argument -/

@[simp] theorem State.onMover_hatch_pending (f : Mover → Mover) : (s.onMover .hatch f).pending = s.pending := rfl
@[simp] theorem State.onMover_hatch_uptime (f : Mover → Mover) : (s.onMover .hatch f).uptime = s.uptime := rfl
@[simp] theorem State.onMover_hatch_mode (f : Mover → Mover) : (s.onMover .hatch f).mode = s.mode := rfl
@[simp] theorem State.onMover_hatch_resetCause (f : Mover → Mover) : (s.onMover .hatch f).resetCause = s.resetCause := rfl
@[simp] theorem State.onMover_hatch_autoStart (f : Mover → Mover) : (s.onMover .hatch f).autoStart = s.autoStart := rfl
@[simp] theorem State.onMover_hatch_store (f : Mover → Mover) : (s.onMover .hatch f).store = s.store := rfl
@[simp] theorem State.onMover_hatch_bootValid (f : Mover → Mover) : (s.onMover .hatch f).bootValid = s.bootValid := rfl
@[simp] theorem State.onMover_hatch_bootTimer (f : Mover → Mover) : (s.onMover .hatch f).bootTimer = s.bootTimer := rfl
@[simp] theorem State.onMover_hatch_link (f : Mover → Mover) : (s.onMover .hatch f).link = s.link := rfl
@[simp] theorem State.onMover_hatch_bus (f : Mover → Mover) : (s.onMover .hatch f).bus = s.bus := rfl
@[simp] theorem State.onMover_hatch_nodes (f : Mover → Mover) : (s.onMover .hatch f).nodes = s.nodes := rfl
@[simp] theorem State.onMover_hatch_enrolment (f : Mover → Mover) : (s.onMover .hatch f).enrolment = s.enrolment := rfl
@[simp] theorem State.onMover_hatch_channels (f : Mover → Mover) : (s.onMover .hatch f).channels = s.channels := rfl
@[simp] theorem State.onMover_hatch_refresh (f : Mover → Mover) : (s.onMover .hatch f).refresh = s.refresh := rfl
@[simp] theorem State.onMover_hatch_scenes (f : Mover → Mover) : (s.onMover .hatch f).scenes = s.scenes := rfl
@[simp] theorem State.onMover_hatch_build (f : Mover → Mover) : (s.onMover .hatch f).build = s.build := rfl
@[simp] theorem State.onMover_hatch_lastTake (f : Mover → Mover) : (s.onMover .hatch f).lastTake = s.lastTake := rfl
@[simp] theorem State.onMover_hatch_bindings (f : Mover → Mover) : (s.onMover .hatch f).bindings = s.bindings := rfl
@[simp] theorem State.onMover_hatch_alloc (f : Mover → Mover) : (s.onMover .hatch f).alloc = s.alloc := rfl
@[simp] theorem State.onMover_hatch_sense (f : Mover → Mover) : (s.onMover .hatch f).sense = s.sense := rfl
@[simp] theorem State.onMover_hatch_hpu (f : Mover → Mover) : (s.onMover .hatch f).hpu = s.hpu := rfl
@[simp] theorem State.onMover_hatch_hatch (f : Mover → Mover) : (s.onMover .hatch f).hatch = f s.hatch := rfl
@[simp] theorem State.onMover_hatch_platform (f : Mover → Mover) : (s.onMover .hatch f).platform = s.platform := rfl
@[simp] theorem State.onMover_hatch_windlass (f : Mover → Mover) : (s.onMover .hatch f).windlass = s.windlass := rfl
@[simp] theorem State.onMover_hatch_hatchOwner (f : Mover → Mover) : (s.onMover .hatch f).hatchOwner = s.hatchOwner := rfl
@[simp] theorem State.onMover_hatch_platformOwner (f : Mover → Mover) : (s.onMover .hatch f).platformOwner = s.platformOwner := rfl
@[simp] theorem State.onMover_hatch_windlassOwner (f : Mover → Mover) : (s.onMover .hatch f).windlassOwner = s.windlassOwner := rfl
@[simp] theorem State.onMover_hatch_stations (f : Mover → Mover) : (s.onMover .hatch f).stations = s.stations := rfl

@[simp] theorem State.onMover_platform_pending (f : Mover → Mover) : (s.onMover .platform f).pending = s.pending := rfl
@[simp] theorem State.onMover_platform_uptime (f : Mover → Mover) : (s.onMover .platform f).uptime = s.uptime := rfl
@[simp] theorem State.onMover_platform_mode (f : Mover → Mover) : (s.onMover .platform f).mode = s.mode := rfl
@[simp] theorem State.onMover_platform_resetCause (f : Mover → Mover) : (s.onMover .platform f).resetCause = s.resetCause := rfl
@[simp] theorem State.onMover_platform_autoStart (f : Mover → Mover) : (s.onMover .platform f).autoStart = s.autoStart := rfl
@[simp] theorem State.onMover_platform_store (f : Mover → Mover) : (s.onMover .platform f).store = s.store := rfl
@[simp] theorem State.onMover_platform_bootValid (f : Mover → Mover) : (s.onMover .platform f).bootValid = s.bootValid := rfl
@[simp] theorem State.onMover_platform_bootTimer (f : Mover → Mover) : (s.onMover .platform f).bootTimer = s.bootTimer := rfl
@[simp] theorem State.onMover_platform_link (f : Mover → Mover) : (s.onMover .platform f).link = s.link := rfl
@[simp] theorem State.onMover_platform_bus (f : Mover → Mover) : (s.onMover .platform f).bus = s.bus := rfl
@[simp] theorem State.onMover_platform_nodes (f : Mover → Mover) : (s.onMover .platform f).nodes = s.nodes := rfl
@[simp] theorem State.onMover_platform_enrolment (f : Mover → Mover) : (s.onMover .platform f).enrolment = s.enrolment := rfl
@[simp] theorem State.onMover_platform_channels (f : Mover → Mover) : (s.onMover .platform f).channels = s.channels := rfl
@[simp] theorem State.onMover_platform_refresh (f : Mover → Mover) : (s.onMover .platform f).refresh = s.refresh := rfl
@[simp] theorem State.onMover_platform_scenes (f : Mover → Mover) : (s.onMover .platform f).scenes = s.scenes := rfl
@[simp] theorem State.onMover_platform_build (f : Mover → Mover) : (s.onMover .platform f).build = s.build := rfl
@[simp] theorem State.onMover_platform_lastTake (f : Mover → Mover) : (s.onMover .platform f).lastTake = s.lastTake := rfl
@[simp] theorem State.onMover_platform_bindings (f : Mover → Mover) : (s.onMover .platform f).bindings = s.bindings := rfl
@[simp] theorem State.onMover_platform_alloc (f : Mover → Mover) : (s.onMover .platform f).alloc = s.alloc := rfl
@[simp] theorem State.onMover_platform_sense (f : Mover → Mover) : (s.onMover .platform f).sense = s.sense := rfl
@[simp] theorem State.onMover_platform_hpu (f : Mover → Mover) : (s.onMover .platform f).hpu = s.hpu := rfl
@[simp] theorem State.onMover_platform_hatch (f : Mover → Mover) : (s.onMover .platform f).hatch = s.hatch := rfl
@[simp] theorem State.onMover_platform_platform (f : Mover → Mover) : (s.onMover .platform f).platform = f s.platform := rfl
@[simp] theorem State.onMover_platform_windlass (f : Mover → Mover) : (s.onMover .platform f).windlass = s.windlass := rfl
@[simp] theorem State.onMover_platform_hatchOwner (f : Mover → Mover) : (s.onMover .platform f).hatchOwner = s.hatchOwner := rfl
@[simp] theorem State.onMover_platform_platformOwner (f : Mover → Mover) : (s.onMover .platform f).platformOwner = s.platformOwner := rfl
@[simp] theorem State.onMover_platform_windlassOwner (f : Mover → Mover) : (s.onMover .platform f).windlassOwner = s.windlassOwner := rfl
@[simp] theorem State.onMover_platform_stations (f : Mover → Mover) : (s.onMover .platform f).stations = s.stations := rfl

@[simp] theorem State.onOwner_hatch_pending (f : OwnerRecord → OwnerRecord) : (s.onOwner .hatch f).pending = s.pending := rfl
@[simp] theorem State.onOwner_hatch_uptime (f : OwnerRecord → OwnerRecord) : (s.onOwner .hatch f).uptime = s.uptime := rfl
@[simp] theorem State.onOwner_hatch_mode (f : OwnerRecord → OwnerRecord) : (s.onOwner .hatch f).mode = s.mode := rfl
@[simp] theorem State.onOwner_hatch_resetCause (f : OwnerRecord → OwnerRecord) : (s.onOwner .hatch f).resetCause = s.resetCause := rfl
@[simp] theorem State.onOwner_hatch_autoStart (f : OwnerRecord → OwnerRecord) : (s.onOwner .hatch f).autoStart = s.autoStart := rfl
@[simp] theorem State.onOwner_hatch_store (f : OwnerRecord → OwnerRecord) : (s.onOwner .hatch f).store = s.store := rfl
@[simp] theorem State.onOwner_hatch_bootValid (f : OwnerRecord → OwnerRecord) : (s.onOwner .hatch f).bootValid = s.bootValid := rfl
@[simp] theorem State.onOwner_hatch_bootTimer (f : OwnerRecord → OwnerRecord) : (s.onOwner .hatch f).bootTimer = s.bootTimer := rfl
@[simp] theorem State.onOwner_hatch_link (f : OwnerRecord → OwnerRecord) : (s.onOwner .hatch f).link = s.link := rfl
@[simp] theorem State.onOwner_hatch_bus (f : OwnerRecord → OwnerRecord) : (s.onOwner .hatch f).bus = s.bus := rfl
@[simp] theorem State.onOwner_hatch_nodes (f : OwnerRecord → OwnerRecord) : (s.onOwner .hatch f).nodes = s.nodes := rfl
@[simp] theorem State.onOwner_hatch_enrolment (f : OwnerRecord → OwnerRecord) : (s.onOwner .hatch f).enrolment = s.enrolment := rfl
@[simp] theorem State.onOwner_hatch_channels (f : OwnerRecord → OwnerRecord) : (s.onOwner .hatch f).channels = s.channels := rfl
@[simp] theorem State.onOwner_hatch_refresh (f : OwnerRecord → OwnerRecord) : (s.onOwner .hatch f).refresh = s.refresh := rfl
@[simp] theorem State.onOwner_hatch_scenes (f : OwnerRecord → OwnerRecord) : (s.onOwner .hatch f).scenes = s.scenes := rfl
@[simp] theorem State.onOwner_hatch_build (f : OwnerRecord → OwnerRecord) : (s.onOwner .hatch f).build = s.build := rfl
@[simp] theorem State.onOwner_hatch_lastTake (f : OwnerRecord → OwnerRecord) : (s.onOwner .hatch f).lastTake = s.lastTake := rfl
@[simp] theorem State.onOwner_hatch_bindings (f : OwnerRecord → OwnerRecord) : (s.onOwner .hatch f).bindings = s.bindings := rfl
@[simp] theorem State.onOwner_hatch_alloc (f : OwnerRecord → OwnerRecord) : (s.onOwner .hatch f).alloc = s.alloc := rfl
@[simp] theorem State.onOwner_hatch_sense (f : OwnerRecord → OwnerRecord) : (s.onOwner .hatch f).sense = s.sense := rfl
@[simp] theorem State.onOwner_hatch_hpu (f : OwnerRecord → OwnerRecord) : (s.onOwner .hatch f).hpu = s.hpu := rfl
@[simp] theorem State.onOwner_hatch_hatch (f : OwnerRecord → OwnerRecord) : (s.onOwner .hatch f).hatch = s.hatch := rfl
@[simp] theorem State.onOwner_hatch_platform (f : OwnerRecord → OwnerRecord) : (s.onOwner .hatch f).platform = s.platform := rfl
@[simp] theorem State.onOwner_hatch_windlass (f : OwnerRecord → OwnerRecord) : (s.onOwner .hatch f).windlass = s.windlass := rfl
@[simp] theorem State.onOwner_hatch_hatchOwner (f : OwnerRecord → OwnerRecord) : (s.onOwner .hatch f).hatchOwner = f s.hatchOwner := rfl
@[simp] theorem State.onOwner_hatch_platformOwner (f : OwnerRecord → OwnerRecord) : (s.onOwner .hatch f).platformOwner = s.platformOwner := rfl
@[simp] theorem State.onOwner_hatch_windlassOwner (f : OwnerRecord → OwnerRecord) : (s.onOwner .hatch f).windlassOwner = s.windlassOwner := rfl
@[simp] theorem State.onOwner_hatch_stations (f : OwnerRecord → OwnerRecord) : (s.onOwner .hatch f).stations = s.stations := rfl

@[simp] theorem State.onOwner_platform_pending (f : OwnerRecord → OwnerRecord) : (s.onOwner .platform f).pending = s.pending := rfl
@[simp] theorem State.onOwner_platform_uptime (f : OwnerRecord → OwnerRecord) : (s.onOwner .platform f).uptime = s.uptime := rfl
@[simp] theorem State.onOwner_platform_mode (f : OwnerRecord → OwnerRecord) : (s.onOwner .platform f).mode = s.mode := rfl
@[simp] theorem State.onOwner_platform_resetCause (f : OwnerRecord → OwnerRecord) : (s.onOwner .platform f).resetCause = s.resetCause := rfl
@[simp] theorem State.onOwner_platform_autoStart (f : OwnerRecord → OwnerRecord) : (s.onOwner .platform f).autoStart = s.autoStart := rfl
@[simp] theorem State.onOwner_platform_store (f : OwnerRecord → OwnerRecord) : (s.onOwner .platform f).store = s.store := rfl
@[simp] theorem State.onOwner_platform_bootValid (f : OwnerRecord → OwnerRecord) : (s.onOwner .platform f).bootValid = s.bootValid := rfl
@[simp] theorem State.onOwner_platform_bootTimer (f : OwnerRecord → OwnerRecord) : (s.onOwner .platform f).bootTimer = s.bootTimer := rfl
@[simp] theorem State.onOwner_platform_link (f : OwnerRecord → OwnerRecord) : (s.onOwner .platform f).link = s.link := rfl
@[simp] theorem State.onOwner_platform_bus (f : OwnerRecord → OwnerRecord) : (s.onOwner .platform f).bus = s.bus := rfl
@[simp] theorem State.onOwner_platform_nodes (f : OwnerRecord → OwnerRecord) : (s.onOwner .platform f).nodes = s.nodes := rfl
@[simp] theorem State.onOwner_platform_enrolment (f : OwnerRecord → OwnerRecord) : (s.onOwner .platform f).enrolment = s.enrolment := rfl
@[simp] theorem State.onOwner_platform_channels (f : OwnerRecord → OwnerRecord) : (s.onOwner .platform f).channels = s.channels := rfl
@[simp] theorem State.onOwner_platform_refresh (f : OwnerRecord → OwnerRecord) : (s.onOwner .platform f).refresh = s.refresh := rfl
@[simp] theorem State.onOwner_platform_scenes (f : OwnerRecord → OwnerRecord) : (s.onOwner .platform f).scenes = s.scenes := rfl
@[simp] theorem State.onOwner_platform_build (f : OwnerRecord → OwnerRecord) : (s.onOwner .platform f).build = s.build := rfl
@[simp] theorem State.onOwner_platform_lastTake (f : OwnerRecord → OwnerRecord) : (s.onOwner .platform f).lastTake = s.lastTake := rfl
@[simp] theorem State.onOwner_platform_bindings (f : OwnerRecord → OwnerRecord) : (s.onOwner .platform f).bindings = s.bindings := rfl
@[simp] theorem State.onOwner_platform_alloc (f : OwnerRecord → OwnerRecord) : (s.onOwner .platform f).alloc = s.alloc := rfl
@[simp] theorem State.onOwner_platform_sense (f : OwnerRecord → OwnerRecord) : (s.onOwner .platform f).sense = s.sense := rfl
@[simp] theorem State.onOwner_platform_hpu (f : OwnerRecord → OwnerRecord) : (s.onOwner .platform f).hpu = s.hpu := rfl
@[simp] theorem State.onOwner_platform_hatch (f : OwnerRecord → OwnerRecord) : (s.onOwner .platform f).hatch = s.hatch := rfl
@[simp] theorem State.onOwner_platform_platform (f : OwnerRecord → OwnerRecord) : (s.onOwner .platform f).platform = s.platform := rfl
@[simp] theorem State.onOwner_platform_windlass (f : OwnerRecord → OwnerRecord) : (s.onOwner .platform f).windlass = s.windlass := rfl
@[simp] theorem State.onOwner_platform_hatchOwner (f : OwnerRecord → OwnerRecord) : (s.onOwner .platform f).hatchOwner = s.hatchOwner := rfl
@[simp] theorem State.onOwner_platform_platformOwner (f : OwnerRecord → OwnerRecord) : (s.onOwner .platform f).platformOwner = f s.platformOwner := rfl
@[simp] theorem State.onOwner_platform_windlassOwner (f : OwnerRecord → OwnerRecord) : (s.onOwner .platform f).windlassOwner = s.windlassOwner := rfl
@[simp] theorem State.onOwner_platform_stations (f : OwnerRecord → OwnerRecord) : (s.onOwner .platform f).stations = s.stations := rfl

@[simp] theorem State.onOwner_windlass_pending (f : OwnerRecord → OwnerRecord) : (s.onOwner .windlass f).pending = s.pending := rfl
@[simp] theorem State.onOwner_windlass_uptime (f : OwnerRecord → OwnerRecord) : (s.onOwner .windlass f).uptime = s.uptime := rfl
@[simp] theorem State.onOwner_windlass_mode (f : OwnerRecord → OwnerRecord) : (s.onOwner .windlass f).mode = s.mode := rfl
@[simp] theorem State.onOwner_windlass_resetCause (f : OwnerRecord → OwnerRecord) : (s.onOwner .windlass f).resetCause = s.resetCause := rfl
@[simp] theorem State.onOwner_windlass_autoStart (f : OwnerRecord → OwnerRecord) : (s.onOwner .windlass f).autoStart = s.autoStart := rfl
@[simp] theorem State.onOwner_windlass_store (f : OwnerRecord → OwnerRecord) : (s.onOwner .windlass f).store = s.store := rfl
@[simp] theorem State.onOwner_windlass_bootValid (f : OwnerRecord → OwnerRecord) : (s.onOwner .windlass f).bootValid = s.bootValid := rfl
@[simp] theorem State.onOwner_windlass_bootTimer (f : OwnerRecord → OwnerRecord) : (s.onOwner .windlass f).bootTimer = s.bootTimer := rfl
@[simp] theorem State.onOwner_windlass_link (f : OwnerRecord → OwnerRecord) : (s.onOwner .windlass f).link = s.link := rfl
@[simp] theorem State.onOwner_windlass_bus (f : OwnerRecord → OwnerRecord) : (s.onOwner .windlass f).bus = s.bus := rfl
@[simp] theorem State.onOwner_windlass_nodes (f : OwnerRecord → OwnerRecord) : (s.onOwner .windlass f).nodes = s.nodes := rfl
@[simp] theorem State.onOwner_windlass_enrolment (f : OwnerRecord → OwnerRecord) : (s.onOwner .windlass f).enrolment = s.enrolment := rfl
@[simp] theorem State.onOwner_windlass_channels (f : OwnerRecord → OwnerRecord) : (s.onOwner .windlass f).channels = s.channels := rfl
@[simp] theorem State.onOwner_windlass_refresh (f : OwnerRecord → OwnerRecord) : (s.onOwner .windlass f).refresh = s.refresh := rfl
@[simp] theorem State.onOwner_windlass_scenes (f : OwnerRecord → OwnerRecord) : (s.onOwner .windlass f).scenes = s.scenes := rfl
@[simp] theorem State.onOwner_windlass_build (f : OwnerRecord → OwnerRecord) : (s.onOwner .windlass f).build = s.build := rfl
@[simp] theorem State.onOwner_windlass_lastTake (f : OwnerRecord → OwnerRecord) : (s.onOwner .windlass f).lastTake = s.lastTake := rfl
@[simp] theorem State.onOwner_windlass_bindings (f : OwnerRecord → OwnerRecord) : (s.onOwner .windlass f).bindings = s.bindings := rfl
@[simp] theorem State.onOwner_windlass_alloc (f : OwnerRecord → OwnerRecord) : (s.onOwner .windlass f).alloc = s.alloc := rfl
@[simp] theorem State.onOwner_windlass_sense (f : OwnerRecord → OwnerRecord) : (s.onOwner .windlass f).sense = s.sense := rfl
@[simp] theorem State.onOwner_windlass_hpu (f : OwnerRecord → OwnerRecord) : (s.onOwner .windlass f).hpu = s.hpu := rfl
@[simp] theorem State.onOwner_windlass_hatch (f : OwnerRecord → OwnerRecord) : (s.onOwner .windlass f).hatch = s.hatch := rfl
@[simp] theorem State.onOwner_windlass_platform (f : OwnerRecord → OwnerRecord) : (s.onOwner .windlass f).platform = s.platform := rfl
@[simp] theorem State.onOwner_windlass_windlass (f : OwnerRecord → OwnerRecord) : (s.onOwner .windlass f).windlass = s.windlass := rfl
@[simp] theorem State.onOwner_windlass_hatchOwner (f : OwnerRecord → OwnerRecord) : (s.onOwner .windlass f).hatchOwner = s.hatchOwner := rfl
@[simp] theorem State.onOwner_windlass_platformOwner (f : OwnerRecord → OwnerRecord) : (s.onOwner .windlass f).platformOwner = s.platformOwner := rfl
@[simp] theorem State.onOwner_windlass_windlassOwner (f : OwnerRecord → OwnerRecord) : (s.onOwner .windlass f).windlassOwner = f s.windlassOwner := rfl
@[simp] theorem State.onOwner_windlass_stations (f : OwnerRecord → OwnerRecord) : (s.onOwner .windlass f).stations = s.stations := rfl

/-! ## onMover, onOwner, atMoment and setGrant, for every argument -/

@[simp] theorem State.onMover_pending (m : MoverId) (f : Mover → Mover) : (s.onMover m f).pending = s.pending := by cases m <;> rfl
@[simp] theorem State.onMover_uptime (m : MoverId) (f : Mover → Mover) : (s.onMover m f).uptime = s.uptime := by cases m <;> rfl
@[simp] theorem State.onMover_mode (m : MoverId) (f : Mover → Mover) : (s.onMover m f).mode = s.mode := by cases m <;> rfl
@[simp] theorem State.onMover_resetCause (m : MoverId) (f : Mover → Mover) : (s.onMover m f).resetCause = s.resetCause := by cases m <;> rfl
@[simp] theorem State.onMover_autoStart (m : MoverId) (f : Mover → Mover) : (s.onMover m f).autoStart = s.autoStart := by cases m <;> rfl
@[simp] theorem State.onMover_store (m : MoverId) (f : Mover → Mover) : (s.onMover m f).store = s.store := by cases m <;> rfl
@[simp] theorem State.onMover_bootValid (m : MoverId) (f : Mover → Mover) : (s.onMover m f).bootValid = s.bootValid := by cases m <;> rfl
@[simp] theorem State.onMover_bootTimer (m : MoverId) (f : Mover → Mover) : (s.onMover m f).bootTimer = s.bootTimer := by cases m <;> rfl
@[simp] theorem State.onMover_link (m : MoverId) (f : Mover → Mover) : (s.onMover m f).link = s.link := by cases m <;> rfl
@[simp] theorem State.onMover_bus (m : MoverId) (f : Mover → Mover) : (s.onMover m f).bus = s.bus := by cases m <;> rfl
@[simp] theorem State.onMover_nodes (m : MoverId) (f : Mover → Mover) : (s.onMover m f).nodes = s.nodes := by cases m <;> rfl
@[simp] theorem State.onMover_enrolment (m : MoverId) (f : Mover → Mover) : (s.onMover m f).enrolment = s.enrolment := by cases m <;> rfl
@[simp] theorem State.onMover_channels (m : MoverId) (f : Mover → Mover) : (s.onMover m f).channels = s.channels := by cases m <;> rfl
@[simp] theorem State.onMover_refresh (m : MoverId) (f : Mover → Mover) : (s.onMover m f).refresh = s.refresh := by cases m <;> rfl
@[simp] theorem State.onMover_scenes (m : MoverId) (f : Mover → Mover) : (s.onMover m f).scenes = s.scenes := by cases m <;> rfl
@[simp] theorem State.onMover_build (m : MoverId) (f : Mover → Mover) : (s.onMover m f).build = s.build := by cases m <;> rfl
@[simp] theorem State.onMover_lastTake (m : MoverId) (f : Mover → Mover) : (s.onMover m f).lastTake = s.lastTake := by cases m <;> rfl
@[simp] theorem State.onMover_bindings (m : MoverId) (f : Mover → Mover) : (s.onMover m f).bindings = s.bindings := by cases m <;> rfl
@[simp] theorem State.onMover_alloc (m : MoverId) (f : Mover → Mover) : (s.onMover m f).alloc = s.alloc := by cases m <;> rfl
@[simp] theorem State.onMover_sense (m : MoverId) (f : Mover → Mover) : (s.onMover m f).sense = s.sense := by cases m <;> rfl
@[simp] theorem State.onMover_hpu (m : MoverId) (f : Mover → Mover) : (s.onMover m f).hpu = s.hpu := by cases m <;> rfl
@[simp] theorem State.onMover_windlass (m : MoverId) (f : Mover → Mover) : (s.onMover m f).windlass = s.windlass := by cases m <;> rfl
@[simp] theorem State.onMover_hatchOwner (m : MoverId) (f : Mover → Mover) : (s.onMover m f).hatchOwner = s.hatchOwner := by cases m <;> rfl
@[simp] theorem State.onMover_platformOwner (m : MoverId) (f : Mover → Mover) : (s.onMover m f).platformOwner = s.platformOwner := by cases m <;> rfl
@[simp] theorem State.onMover_windlassOwner (m : MoverId) (f : Mover → Mover) : (s.onMover m f).windlassOwner = s.windlassOwner := by cases m <;> rfl
@[simp] theorem State.onMover_stations (m : MoverId) (f : Mover → Mover) : (s.onMover m f).stations = s.stations := by cases m <;> rfl
@[simp] theorem State.onOwner_pending (r : Resource) (f : OwnerRecord → OwnerRecord) : (s.onOwner r f).pending = s.pending := by cases r <;> rfl
@[simp] theorem State.onOwner_uptime (r : Resource) (f : OwnerRecord → OwnerRecord) : (s.onOwner r f).uptime = s.uptime := by cases r <;> rfl
@[simp] theorem State.onOwner_mode (r : Resource) (f : OwnerRecord → OwnerRecord) : (s.onOwner r f).mode = s.mode := by cases r <;> rfl
@[simp] theorem State.onOwner_resetCause (r : Resource) (f : OwnerRecord → OwnerRecord) : (s.onOwner r f).resetCause = s.resetCause := by cases r <;> rfl
@[simp] theorem State.onOwner_autoStart (r : Resource) (f : OwnerRecord → OwnerRecord) : (s.onOwner r f).autoStart = s.autoStart := by cases r <;> rfl
@[simp] theorem State.onOwner_store (r : Resource) (f : OwnerRecord → OwnerRecord) : (s.onOwner r f).store = s.store := by cases r <;> rfl
@[simp] theorem State.onOwner_bootValid (r : Resource) (f : OwnerRecord → OwnerRecord) : (s.onOwner r f).bootValid = s.bootValid := by cases r <;> rfl
@[simp] theorem State.onOwner_bootTimer (r : Resource) (f : OwnerRecord → OwnerRecord) : (s.onOwner r f).bootTimer = s.bootTimer := by cases r <;> rfl
@[simp] theorem State.onOwner_link (r : Resource) (f : OwnerRecord → OwnerRecord) : (s.onOwner r f).link = s.link := by cases r <;> rfl
@[simp] theorem State.onOwner_bus (r : Resource) (f : OwnerRecord → OwnerRecord) : (s.onOwner r f).bus = s.bus := by cases r <;> rfl
@[simp] theorem State.onOwner_nodes (r : Resource) (f : OwnerRecord → OwnerRecord) : (s.onOwner r f).nodes = s.nodes := by cases r <;> rfl
@[simp] theorem State.onOwner_enrolment (r : Resource) (f : OwnerRecord → OwnerRecord) : (s.onOwner r f).enrolment = s.enrolment := by cases r <;> rfl
@[simp] theorem State.onOwner_channels (r : Resource) (f : OwnerRecord → OwnerRecord) : (s.onOwner r f).channels = s.channels := by cases r <;> rfl
@[simp] theorem State.onOwner_refresh (r : Resource) (f : OwnerRecord → OwnerRecord) : (s.onOwner r f).refresh = s.refresh := by cases r <;> rfl
@[simp] theorem State.onOwner_scenes (r : Resource) (f : OwnerRecord → OwnerRecord) : (s.onOwner r f).scenes = s.scenes := by cases r <;> rfl
@[simp] theorem State.onOwner_build (r : Resource) (f : OwnerRecord → OwnerRecord) : (s.onOwner r f).build = s.build := by cases r <;> rfl
@[simp] theorem State.onOwner_lastTake (r : Resource) (f : OwnerRecord → OwnerRecord) : (s.onOwner r f).lastTake = s.lastTake := by cases r <;> rfl
@[simp] theorem State.onOwner_bindings (r : Resource) (f : OwnerRecord → OwnerRecord) : (s.onOwner r f).bindings = s.bindings := by cases r <;> rfl
@[simp] theorem State.onOwner_alloc (r : Resource) (f : OwnerRecord → OwnerRecord) : (s.onOwner r f).alloc = s.alloc := by cases r <;> rfl
@[simp] theorem State.onOwner_sense (r : Resource) (f : OwnerRecord → OwnerRecord) : (s.onOwner r f).sense = s.sense := by cases r <;> rfl
@[simp] theorem State.onOwner_hpu (r : Resource) (f : OwnerRecord → OwnerRecord) : (s.onOwner r f).hpu = s.hpu := by cases r <;> rfl
@[simp] theorem State.onOwner_hatch (r : Resource) (f : OwnerRecord → OwnerRecord) : (s.onOwner r f).hatch = s.hatch := by cases r <;> rfl
@[simp] theorem State.onOwner_platform (r : Resource) (f : OwnerRecord → OwnerRecord) : (s.onOwner r f).platform = s.platform := by cases r <;> rfl
@[simp] theorem State.onOwner_windlass (r : Resource) (f : OwnerRecord → OwnerRecord) : (s.onOwner r f).windlass = s.windlass := by cases r <;> rfl
@[simp] theorem State.onOwner_stations (r : Resource) (f : OwnerRecord → OwnerRecord) : (s.onOwner r f).stations = s.stations := by cases r <;> rfl
@[simp] theorem State.atMoment_pending (e : Uptime) : (s.atMoment e).pending = s.pending := by simp only [State.atMoment]; split <;> rfl
@[simp] theorem State.atMoment_mode (e : Uptime) : (s.atMoment e).mode = s.mode := by simp only [State.atMoment]; split <;> rfl
@[simp] theorem State.atMoment_resetCause (e : Uptime) : (s.atMoment e).resetCause = s.resetCause := by simp only [State.atMoment]; split <;> rfl
@[simp] theorem State.atMoment_autoStart (e : Uptime) : (s.atMoment e).autoStart = s.autoStart := by simp only [State.atMoment]; split <;> rfl
@[simp] theorem State.atMoment_store (e : Uptime) : (s.atMoment e).store = s.store := by simp only [State.atMoment]; split <;> rfl
@[simp] theorem State.atMoment_bootValid (e : Uptime) : (s.atMoment e).bootValid = s.bootValid := by simp only [State.atMoment]; split <;> rfl
@[simp] theorem State.atMoment_bootTimer (e : Uptime) : (s.atMoment e).bootTimer = s.bootTimer := by simp only [State.atMoment]; split <;> rfl
@[simp] theorem State.atMoment_link (e : Uptime) : (s.atMoment e).link = s.link := by simp only [State.atMoment]; split <;> rfl
@[simp] theorem State.atMoment_bus (e : Uptime) : (s.atMoment e).bus = s.bus := by simp only [State.atMoment]; split <;> rfl
@[simp] theorem State.atMoment_nodes (e : Uptime) : (s.atMoment e).nodes = s.nodes := by simp only [State.atMoment]; split <;> rfl
@[simp] theorem State.atMoment_enrolment (e : Uptime) : (s.atMoment e).enrolment = s.enrolment := by simp only [State.atMoment]; split <;> rfl
@[simp] theorem State.atMoment_channels (e : Uptime) : (s.atMoment e).channels = s.channels := by simp only [State.atMoment]; split <;> rfl
@[simp] theorem State.atMoment_refresh (e : Uptime) : (s.atMoment e).refresh = s.refresh := by simp only [State.atMoment]; split <;> rfl
@[simp] theorem State.atMoment_scenes (e : Uptime) : (s.atMoment e).scenes = s.scenes := by simp only [State.atMoment]; split <;> rfl
@[simp] theorem State.atMoment_build (e : Uptime) : (s.atMoment e).build = s.build := by simp only [State.atMoment]; split <;> rfl
@[simp] theorem State.atMoment_lastTake (e : Uptime) : (s.atMoment e).lastTake = s.lastTake := by simp only [State.atMoment]; split <;> rfl
@[simp] theorem State.atMoment_bindings (e : Uptime) : (s.atMoment e).bindings = s.bindings := by simp only [State.atMoment]; split <;> rfl
@[simp] theorem State.atMoment_alloc (e : Uptime) : (s.atMoment e).alloc = s.alloc := by simp only [State.atMoment]; split <;> rfl
@[simp] theorem State.atMoment_sense (e : Uptime) : (s.atMoment e).sense = s.sense := by simp only [State.atMoment]; split <;> rfl
@[simp] theorem State.atMoment_hpu (e : Uptime) : (s.atMoment e).hpu = s.hpu := by simp only [State.atMoment]; split <;> rfl
@[simp] theorem State.atMoment_hatch (e : Uptime) : (s.atMoment e).hatch = s.hatch := by simp only [State.atMoment]; split <;> rfl
@[simp] theorem State.atMoment_platform (e : Uptime) : (s.atMoment e).platform = s.platform := by simp only [State.atMoment]; split <;> rfl
@[simp] theorem State.atMoment_windlass (e : Uptime) : (s.atMoment e).windlass = s.windlass := by simp only [State.atMoment]; split <;> rfl
@[simp] theorem State.atMoment_hatchOwner (e : Uptime) : (s.atMoment e).hatchOwner = s.hatchOwner := by simp only [State.atMoment]; split <;> rfl
@[simp] theorem State.atMoment_platformOwner (e : Uptime) : (s.atMoment e).platformOwner = s.platformOwner := by simp only [State.atMoment]; split <;> rfl
@[simp] theorem State.atMoment_windlassOwner (e : Uptime) : (s.atMoment e).windlassOwner = s.windlassOwner := by simp only [State.atMoment]; split <;> rfl
@[simp] theorem State.atMoment_stations (e : Uptime) : (s.atMoment e).stations = s.stations := by simp only [State.atMoment]; split <;> rfl
@[simp] theorem State.setGrant_pending (m : Motor) (g : Option Grant) : (s.setGrant m g).pending = s.pending := by cases m <;> rfl
@[simp] theorem State.setGrant_uptime (m : Motor) (g : Option Grant) : (s.setGrant m g).uptime = s.uptime := by cases m <;> rfl
@[simp] theorem State.setGrant_mode (m : Motor) (g : Option Grant) : (s.setGrant m g).mode = s.mode := by cases m <;> rfl
@[simp] theorem State.setGrant_resetCause (m : Motor) (g : Option Grant) : (s.setGrant m g).resetCause = s.resetCause := by cases m <;> rfl
@[simp] theorem State.setGrant_autoStart (m : Motor) (g : Option Grant) : (s.setGrant m g).autoStart = s.autoStart := by cases m <;> rfl
@[simp] theorem State.setGrant_store (m : Motor) (g : Option Grant) : (s.setGrant m g).store = s.store := by cases m <;> rfl
@[simp] theorem State.setGrant_bootValid (m : Motor) (g : Option Grant) : (s.setGrant m g).bootValid = s.bootValid := by cases m <;> rfl
@[simp] theorem State.setGrant_bootTimer (m : Motor) (g : Option Grant) : (s.setGrant m g).bootTimer = s.bootTimer := by cases m <;> rfl
@[simp] theorem State.setGrant_link (m : Motor) (g : Option Grant) : (s.setGrant m g).link = s.link := by cases m <;> rfl
@[simp] theorem State.setGrant_bus (m : Motor) (g : Option Grant) : (s.setGrant m g).bus = s.bus := by cases m <;> rfl
@[simp] theorem State.setGrant_nodes (m : Motor) (g : Option Grant) : (s.setGrant m g).nodes = s.nodes := by cases m <;> rfl
@[simp] theorem State.setGrant_enrolment (m : Motor) (g : Option Grant) : (s.setGrant m g).enrolment = s.enrolment := by cases m <;> rfl
@[simp] theorem State.setGrant_channels (m : Motor) (g : Option Grant) : (s.setGrant m g).channels = s.channels := by cases m <;> rfl
@[simp] theorem State.setGrant_refresh (m : Motor) (g : Option Grant) : (s.setGrant m g).refresh = s.refresh := by cases m <;> rfl
@[simp] theorem State.setGrant_scenes (m : Motor) (g : Option Grant) : (s.setGrant m g).scenes = s.scenes := by cases m <;> rfl
@[simp] theorem State.setGrant_build (m : Motor) (g : Option Grant) : (s.setGrant m g).build = s.build := by cases m <;> rfl
@[simp] theorem State.setGrant_lastTake (m : Motor) (g : Option Grant) : (s.setGrant m g).lastTake = s.lastTake := by cases m <;> rfl
@[simp] theorem State.setGrant_bindings (m : Motor) (g : Option Grant) : (s.setGrant m g).bindings = s.bindings := by cases m <;> rfl
@[simp] theorem State.setGrant_sense (m : Motor) (g : Option Grant) : (s.setGrant m g).sense = s.sense := by cases m <;> rfl
@[simp] theorem State.setGrant_hpu (m : Motor) (g : Option Grant) : (s.setGrant m g).hpu = s.hpu := by cases m <;> rfl
@[simp] theorem State.setGrant_hatch (m : Motor) (g : Option Grant) : (s.setGrant m g).hatch = s.hatch := by cases m <;> rfl
@[simp] theorem State.setGrant_platform (m : Motor) (g : Option Grant) : (s.setGrant m g).platform = s.platform := by cases m <;> rfl
@[simp] theorem State.setGrant_windlass (m : Motor) (g : Option Grant) : (s.setGrant m g).windlass = s.windlass := by cases m <;> rfl
@[simp] theorem State.setGrant_hatchOwner (m : Motor) (g : Option Grant) : (s.setGrant m g).hatchOwner = s.hatchOwner := by cases m <;> rfl
@[simp] theorem State.setGrant_platformOwner (m : Motor) (g : Option Grant) : (s.setGrant m g).platformOwner = s.platformOwner := by cases m <;> rfl
@[simp] theorem State.setGrant_windlassOwner (m : Motor) (g : Option Grant) : (s.setGrant m g).windlassOwner = s.windlassOwner := by cases m <;> rfl
@[simp] theorem State.setGrant_stations (m : Motor) (g : Option Grant) : (s.setGrant m g).stations = s.stations := by cases m <;> rfl

/-! ## What an update leaves where it looks -/

@[simp] theorem State.mover_onMover (m : MoverId) (f : Mover → Mover) : (s.onMover m f).mover m = f (s.mover m) := by cases m <;> rfl
@[simp] theorem State.mover_onMover_other (m : MoverId) (f : Mover → Mover) : (s.onMover m f).mover (otherMover m) = s.mover (otherMover m) := by cases m <;> rfl
@[simp] theorem State.ownerOf_onOwner (r : Resource) (f : OwnerRecord → OwnerRecord) : (s.onOwner r f).ownerOf r = f (s.ownerOf r) := by cases r <;> rfl
@[simp] theorem State.grant_setGrant (m : Motor) (g : Option Grant) : (s.setGrant m g).grant m = g := by cases m <;> rfl

end Sys2Proof.Machine
end

