-- ==== Sys2Proof/Laws/Link.lean ====
section
/-!
SUPPORT. What the shared operations of the link port and of the outbound transaction queue can do: posting a notice, going on
with the reply path, answering a request, and asking for a transaction.
-/

namespace Sys2Proof.Machine

/-! ## Posting a notice (R176) -/

/-- Posting a notice changes the notice queue and the overflow count alone. -/
theorem Link.post_frame (l : Link) (n : Notice) : ∃ ns o, l.post n = { l with notices := ns, overflow := o } := by
  unfold Link.post; split
  · exact ⟨_, l.overflow, rfl⟩
  · exact ⟨l.notices, _, rfl⟩

theorem Link.post_room {l : Link} (n : Notice) (h : l.notices.length < 32) :
    l.post n = { l with notices := l.notices ++ [n] } := if_pos h

theorem Link.post_full {l : Link} (n : Notice) (h : ¬ l.notices.length < 32) :
    l.post n = { l with overflow := min (l.overflow + 1) 255 } := if_neg h

/-- The notices of before stand at the front of the queue after a post. -/
theorem Link.post_prefix (l : Link) (n : Notice) : l.notices <+: (l.post n).notices := by
  unfold Link.post; split <;> simp

theorem Link.post_bounded {l : Link} (n : Notice) (h : l.Bounded) : (l.post n).Bounded := by
  obtain ⟨h1, h2, h3, h4, h5⟩ := h
  unfold Link.post; split
  · exact ⟨h1, h2, by simp; omega, h4, h5⟩
  · exact ⟨h1, h2, h3, by simp, h5⟩

theorem State.post_eq (s : State) (k : NoticeKind) (n : Nat) (d : List Byte) :
    s.post k n d = s.onLink fun l => l.post ⟨k, n, d, s.uptime⟩ := rfl

/-! ## The request queue and the reply path (R173, R174) -/

theorem markServed_length (q : List QueuedFrame) : (markServed q).length = q.length := by
  induction q with
  | nil => rfl
  | cons f fs ih => simp only [markServed]; split <;> simp [ih]

theorem dropServed_length_le (q : List QueuedFrame) : (dropServed q).length ≤ q.length := by
  induction q with
  | nil => exact Nat.le_refl _
  | cons f fs ih =>
    simp only [dropServed]; split
    · simp
    · simpa using ih

/-- Going on with the reply path changes the request queue, the request handed over and the reply path alone; neither queue
grows. -/
theorem Link.proceed_frame (l : Link) :
    ∃ q h f r g, l.proceed = { l with requests := q, handed := h, fullReplies := f, replies := r, sending := g }
      ∧ q.length = l.requests.length ∧ f.length ≤ l.fullReplies.length := by
  unfold Link.proceed
  split
  · exact ⟨_, _, _, _, _, rfl, rfl, Nat.le_refl _⟩
  · split
    · exact ⟨_, _, _, _, _, rfl, rfl, Nat.le_refl _⟩
    · exact ⟨_, _, _, _, _, rfl, rfl, Nat.le_refl _⟩
    · split
      · exact ⟨_, _, _, _, _, rfl, rfl, Nat.le_refl _⟩
      · unfold Link.beginService
        split
        · exact ⟨_, _, _, _, _, rfl, rfl, Nat.le_refl _⟩
        · split
          · exact ⟨_, _, _, _, _, rfl, rfl, Nat.le_refl _⟩
          · exact ⟨_, _, _, _, _, rfl, markServed_length _, Nat.le_refl _⟩

/-- Answering a request changes the request queue, the request handed over and the reply path alone. -/
theorem Link.answer_frame (l : Link) (k t : Byte) (st : Status) (d : ReplyData) :
    ∃ q h f r g, l.answer k t st d = { l with requests := q, handed := h, fullReplies := f, replies := r, sending := g }
      ∧ q.length = l.requests.length ∧ f.length ≤ l.fullReplies.length := by
  unfold Link.answer
  split
  · obtain ⟨q, h, f, r, g, e, h1, h2⟩ := Link.proceed_frame
      { l with handed := none, requests := markServed l.requests, replies := l.replies ++ [⟨k ||| 0x80, t, st, d, true⟩] }
    exact ⟨q, h, f, r, g, e, h1.trans (markServed_length _), h2⟩
  · obtain ⟨q, h, f, r, g, e, h1, h2⟩ := Link.proceed_frame { l with replies := l.replies ++ [⟨k ||| 0x80, t, st, d, false⟩] }
    exact ⟨q, h, f, r, g, e, h1, h2⟩

theorem Link.proceed_bounded {l : Link} (h : l.Bounded) : l.proceed.Bounded := by
  obtain ⟨q, hd, f, r, g, e, h1, h2⟩ := l.proceed_frame
  obtain ⟨b1, b2, b3⟩ := h
  rw [e]; exact ⟨h1 ▸ b1, Nat.le_trans h2 b2, b3⟩

theorem Link.answer_bounded {l : Link} (k t : Byte) (st : Status) (d : ReplyData) (h : l.Bounded) : (l.answer k t st d).Bounded := by
  obtain ⟨q, hd, f, r, g, e, h1, h2⟩ := l.answer_frame k t st d
  obtain ⟨b1, b2, b3⟩ := h
  rw [e]; exact ⟨h1 ▸ b1, Nat.le_trans h2 b2, b3⟩

/-- Taking a good frame changes the request queue, the request handed over and the reply path alone. -/
theorem Link.takeFrame_frame (l : Link) (k t : Byte) (p : List Byte) :
    ∃ q h f r g, l.takeFrame k t p = { l with requests := q, handed := h, fullReplies := f, replies := r, sending := g } := by
  unfold Link.takeFrame
  split
  · obtain ⟨q, h, f, r, g, e, -⟩ := Link.proceed_frame { l with requests := l.requests ++ [⟨k, t, p, false⟩] }
    exact ⟨q, h, f, r, g, e⟩
  · split
    · obtain ⟨q, h, f, r, g, e, -⟩ := Link.proceed_frame { l with fullReplies := l.fullReplies ++ [(k, t)] }
      exact ⟨q, h, f, r, g, e⟩
    · exact ⟨_, _, _, _, _, rfl⟩

theorem Link.takeFrame_bounded {l : Link} (k t : Byte) (p : List Byte) (h : l.Bounded) : (l.takeFrame k t p).Bounded := by
  unfold Link.takeFrame
  obtain ⟨b1, b2, b3⟩ := h
  split
  · exact Link.proceed_bounded ⟨by simp; omega, b2, b3⟩
  · split
    · exact Link.proceed_bounded ⟨b1, by simp; omega, b3⟩
    · exact ⟨b1, b2, b3⟩

/-- The end of a frame's sending changes the request queue, the request handed over, the reply path and the due reset alone; neither
queue grows. -/
theorem Link.sent_frame (l : Link) :
    ∃ q h f r g d, l.sent = { l with requests := q, handed := h, fullReplies := f, replies := r, sending := g, restartDue := d }
      ∧ q.length ≤ l.requests.length ∧ f.length ≤ l.fullReplies.length := by
  have hq (b : Bool) : (if b then dropServed l.requests else l.requests).length ≤ l.requests.length := by
    split
    · exact dropServed_length_le _
    · exact Nat.le_refl _
  have hf (st : Status) : (if st = Status.queueFull then l.fullReplies.tail else l.fullReplies).length ≤ l.fullReplies.length := by
    split <;> simp
  unfold Link.sent
  split
  · exact ⟨_, _, _, _, _, _, rfl, Nat.le_refl _, Nat.le_refl _⟩
  · rename_i r _
    dsimp only
    split
    · exact ⟨_, _, _, _, _, _, rfl, hq r.queued, hf r.status⟩
    · obtain ⟨q, h, f, rs, g, e, h1, h2⟩ := Link.proceed_frame
        { l with sending := none, requests := if r.queued then dropServed l.requests else l.requests
                 fullReplies := if r.status = Status.queueFull then l.fullReplies.tail else l.fullReplies }
      exact ⟨q, h, f, rs, g, _, e, h1 ▸ hq r.queued, Nat.le_trans h2 (hf r.status)⟩

theorem Link.sent_bounded {l : Link} (h : l.Bounded) : l.sent.Bounded := by
  obtain ⟨q, hd, f, r, g, d, e, h1, h2⟩ := l.sent_frame
  obtain ⟨b1, b2, b3⟩ := h
  rw [e]; exact ⟨Nat.le_trans h1 b1, Nat.le_trans h2 b2, b3⟩

/-- The outcome of a request is the state its operation leaves with the reply made. -/
theorem answered_eq (k t : Byte) (r : Served) : answered k t r = .next (r.state.replied k t r.status r.data) := rfl

/-- The reply changes nothing outside the link port. -/
theorem State.replied_eq (s : State) (k t : Byte) (st : Status) (d : ReplyData) :
    s.replied k t st d = { s with link := s.link.answer k t st d } := rfl

/-- An edit of CONFIG is refused with nothing changed, or is served in CONFIG with no save running. -/
theorem State.configEdit_cases (s : State) (k : Served) :
    (s.mode ≠ .config ∧ s.configEdit k = s.refuse .wrongMode)
      ∨ (s.mode = .config ∧ s.saving = true ∧ s.configEdit k = s.refuse .busy)
      ∨ (s.mode = .config ∧ s.saving = false ∧ s.configEdit k = k) := by
  unfold State.configEdit
  by_cases h : s.mode = .config <;> by_cases g : s.saving = true <;> simp [h, g]

/-! ## Asking for a transaction (R17, R18, R23) -/

theorem Entry.absorb_frame (e : Entry) : ∃ f, e.absorb = { e with followUp := f } := by
  unfold Entry.absorb; split
  · exact ⟨true, rfl⟩
  · exact ⟨e.followUp, rfl⟩

/-- What asking for a transaction can do: nothing, an entry of its kind and target that absorbs it, or one entry more at the
back. -/
theorem State.queueTx_cases (s : State) (kind : TxKind) (target : Nat) (a : Option (Nat × Serial)) (enrol : Bool) :
    ((s.queueTx kind target a enrol).1 = s ∧ (s.queueTx kind target a enrol).2 ≠ .taken)
      ∨ ((s.queueTx kind target a enrol).2 = .taken ∧ s.bus.state ≠ .recovery ∧
          ((s.queueTx kind target a enrol).1 = (s.onBus fun b =>
              { b with queue := b.queue.map fun e => if e.isFor kind target then e.absorb else e })
            ∨ (s.bus.queue.length < 16 ∧ (s.queueTx kind target a enrol).1 = (s.onBus fun b => { b with queue := b.queue ++
                [⟨s.txClass kind target, kind, target, a, s.uptime, false, false, false, enrol⟩] })))) := by
  unfold State.queueTx
  split
  · exact .inl ⟨rfl, by simp⟩
  · rename_i hr
    split
    · exact .inl ⟨rfl, by simp⟩
    · split
      · exact .inr ⟨rfl, hr, .inl rfl⟩
      · split
        · exact .inl ⟨rfl, by simp⟩
        · rename_i hl
          exact .inr ⟨rfl, hr, .inr ⟨by omega, rfl⟩⟩

/-- Asking for a transaction changes the queue alone. -/
theorem State.queueTx_frame (s : State) (kind : TxKind) (target : Nat) (a : Option (Nat × Serial)) (enrol : Bool) :
    ∃ q, (s.queueTx kind target a enrol).1 = s.onBus fun b => { b with queue := q } := by
  rcases s.queueTx_cases kind target a enrol with ⟨h, -⟩ | ⟨-, -, h | ⟨-, h⟩⟩
  · exact ⟨s.bus.queue, h⟩
  · exact ⟨_, h⟩
  · exact ⟨_, h⟩

theorem State.askTx_frame (s : State) (kind : TxKind) (target : Nat) :
    ∃ q, s.askTx kind target = s.onBus fun b => { b with queue := q } := s.queueTx_frame kind target none false

/-- Asking for a transaction keeps the bounds of the queue. -/
theorem State.queueTx_bounded {s : State} (kind : TxKind) (target : Nat) (a : Option (Nat × Serial)) (enrol : Bool)
    (h : s.bus.Bounded) : (s.queueTx kind target a enrol).1.bus.Bounded := by
  have hin : ∀ e : Entry, (if e.isFor kind target then e.absorb else e).inFlight = e.inFlight := by
    intro e; split
    · obtain ⟨f, hf⟩ := e.absorb_frame; rw [hf]
    · rfl
  obtain ⟨h1, h2, h3, h4⟩ := h
  rcases s.queueTx_cases kind target a enrol with ⟨e, -⟩ | ⟨-, hr, e | ⟨hl, e⟩⟩
  · rw [e]; exact ⟨h1, h2, h3, h4⟩
  · rw [e]
    refine ⟨by simpa using h1, ?_, ?_, fun hx => absurd hx hr⟩
    · simp only [State.onBus_bus, List.filter_map, List.length_map]
      have : ((fun e : Entry => e.inFlight) ∘ fun e : Entry => if e.isFor kind target then e.absorb else e) = fun e => e.inFlight :=
        funext hin
      rw [this]; exact h2
    · intro hs x hx
      simp only [State.onBus_bus, List.mem_map] at hx
      obtain ⟨y, hy, rfl⟩ := hx
      rw [hin]; exact h3 hs y hy
  · rw [e]
    refine ⟨by simp; omega, by simpa [List.filter_append] using h2, ?_, fun hx => absurd hx hr⟩
    intro hs x hx
    simp only [State.onBus_bus, List.mem_append, List.mem_singleton] at hx
    rcases hx with hx | rfl
    · exact h3 hs x hx
    · rfl

end Sys2Proof.Machine
end

