-- ==== Sys2Proof/Laws/Lighting.lean ====
section
/-!
SUPPORT. What staging, taking a scene, toggling and offering an event can do, and what the operations of the load allocator can
do: each changes the records it names and nothing else.
-/

namespace Sys2Proof.Machine

/-! ## Staging and events (R51, R74, R78, R80, R81) -/

/-- Two channel tables that differ in staged targets and untouched flags alone. -/
def ChannelsStaged : List Channel → List Channel → Prop :=
  List.Forall₂ fun c c' => { c' with staged := c.staged, untouched := c.untouched } = c

theorem ChannelsStaged.refl {cs : List Channel} : ChannelsStaged cs cs := by
  induction cs with
  | nil => exact .nil
  | cons c cs ih => exact .cons (by cases c; simp) ih

theorem ChannelsStaged.trans {a b c : List Channel} (h : ChannelsStaged a b) (g : ChannelsStaged b c) : ChannelsStaged a c := by
  induction h generalizing c with
  | nil => cases g; exact .nil
  | cons hx _ ih =>
    cases g with
    | cons hy ht =>
      refine .cons ?_ (ih ht)
      rw [← hx, ← hy]

/-- Two binding tables that differ in fire counts alone. -/
def BindingsFired : List Binding → List Binding → Prop :=
  List.Forall₂ fun b b' => { b' with fires := b.fires } = b

theorem BindingsFired.refl {bs : List Binding} : BindingsFired bs bs := by
  induction bs with
  | nil => exact .nil
  | cons b bs ih => exact .cons (by cases b; simp) ih

theorem BindingsFired.trans {a b c : List Binding} (h : BindingsFired a b) (g : BindingsFired b c) : BindingsFired a c := by
  induction h generalizing c with
  | nil => cases g; exact .nil
  | cons hx _ ih =>
    cases g with
    | cons hy ht =>
      refine .cons ?_ (ih ht)
      rw [← hx, ← hy]

theorem State.stage_frame (s : State) (n l f : Nat) :
    ∃ cs, s.stage n l f = { s with channels := cs } ∧ ChannelsStaged s.channels cs := by
  refine ⟨_, rfl, ?_⟩
  simp only [tableModify]
  induction s.channels with
  | nil => exact .nil
  | cons c cs ih =>
    refine .cons ?_ ih
    dsimp only
    split
    · rfl
    · rfl

theorem State.take_frame (s : State) (n : Nat) (src : TakeSource) :
    ∃ cs lt, s.take n src = { s with channels := cs, lastTake := lt } ∧ ChannelsStaged s.channels cs := by
  have key : ∀ (es : List SceneEntry) (f : Nat) (u : State), ∃ cs,
      es.foldl (fun s e => s.stage e.channel e.level f) u = { u with channels := cs } ∧ ChannelsStaged u.channels cs := by
    intro es f
    induction es with
    | nil => exact fun u => ⟨u.channels, rfl, .refl⟩
    | cons e es ih =>
      intro u
      obtain ⟨cs, h, hc⟩ := u.stage_frame e.channel e.level f
      obtain ⟨ds, g, hd⟩ := ih (u.stage e.channel e.level f)
      rw [List.foldl_cons, g, h]
      rw [h] at hd
      exact ⟨ds, rfl, hc.trans hd⟩
  unfold State.take
  split
  · exact ⟨s.channels, s.lastTake, rfl, .refl⟩
  · rename_i sc _
    obtain ⟨cs, h, hc⟩ := key sc.entries sc.fade s
    rw [h]; exact ⟨cs, _, rfl, hc⟩

theorem State.toggle_frame (s : State) (n : Nat) :
    ∃ cs, s.toggle n = { s with channels := cs } ∧ ChannelsStaged s.channels cs := by
  unfold State.toggle
  split
  · exact ⟨s.channels, rfl, .refl⟩
  · exact s.stage_frame _ _ _

theorem State.fire_frame (s : State) (b : Binding) :
    ∃ bs cs lt, s.fire b = { s with bindings := bs, channels := cs, lastTake := lt }
      ∧ BindingsFired s.bindings bs ∧ ChannelsStaged s.channels cs := by
  have hb : BindingsFired s.bindings (tableModify (·.slot) b.slot (fun b => { b with fires := min (b.fires + 1) 65535 }) s.bindings) := by
    simp only [tableModify]
    induction s.bindings with
    | nil => exact .nil
    | cons c cs ih =>
      refine .cons ?_ ih
      dsimp only
      split
      · rfl
      · rfl
  unfold State.fire
  dsimp only
  split
  · obtain ⟨cs, lt, h, hc⟩ := State.take_frame
      { s with bindings := tableModify (·.slot) b.slot (fun b => { b with fires := min (b.fires + 1) 65535 }) s.bindings } _ _
    exact ⟨_, cs, lt, h, hb, hc⟩
  · obtain ⟨cs, h, hc⟩ := State.stage_frame
      { s with bindings := tableModify (·.slot) b.slot (fun b => { b with fires := min (b.fires + 1) 65535 }) s.bindings } _ _ _
    exact ⟨_, cs, s.lastTake, h, hb, hc⟩
  · obtain ⟨cs, h, hc⟩ := State.toggle_frame
      { s with bindings := tableModify (·.slot) b.slot (fun b => { b with fires := min (b.fires + 1) 65535 }) s.bindings } _
    exact ⟨_, cs, s.lastTake, h, hb, hc⟩

/-- An event offered changes fire counts, staged targets, untouched flags and the last-take record alone. -/
theorem State.offer_frame (s : State) (e : Trigger) :
    ∃ bs cs lt, s.offer e = { s with bindings := bs, channels := cs, lastTake := lt }
      ∧ BindingsFired s.bindings bs ∧ ChannelsStaged s.channels cs := by
  have key : ∀ (fs : List Binding) (u : State), ∃ bs cs lt,
      fs.foldl State.fire u = { u with bindings := bs, channels := cs, lastTake := lt }
        ∧ BindingsFired u.bindings bs ∧ ChannelsStaged u.channels cs := by
    intro fs
    induction fs with
    | nil => exact fun u => ⟨u.bindings, u.channels, u.lastTake, rfl, .refl, .refl⟩
    | cons f fs ih =>
      intro u
      obtain ⟨bs, cs, lt, h, hb, hc⟩ := u.fire_frame f
      obtain ⟨bs', cs', lt', g, hb', hc'⟩ := ih (u.fire f)
      rw [List.foldl_cons, g, h]
      rw [h] at hb' hc'
      exact ⟨bs', cs', lt', rfl, hb.trans hb', hc.trans hc'⟩
  unfold State.offer
  split
  · exact key _ s
  · exact ⟨s.bindings, s.channels, s.lastTake, rfl, .refl, .refl⟩

theorem State.offer_idle {s : State} (e : Trigger) (h : s.mode ≠ .run) : s.offer e = s := if_neg h

/-! ## The lighting looks at no mover -/

theorem State.stage_onMover (s : State) (m : MoverId) (g : Mover → Mover) (n l f : Nat) :
    (s.onMover m g).stage n l f = (s.stage n l f).onMover m g := by cases m <;> rfl

theorem State.take_onMover (s : State) (m : MoverId) (g : Mover → Mover) (n : Nat) (src : TakeSource) :
    (s.onMover m g).take n src = (s.take n src).onMover m g := by
  have key : ∀ (es : List SceneEntry) (f : Nat) (u : State),
      es.foldl (fun s e => s.stage e.channel e.level f) (u.onMover m g)
        = (es.foldl (fun s e => s.stage e.channel e.level f) u).onMover m g := by
    intro es f
    induction es with
    | nil => exact fun u => rfl
    | cons e es ih => intro u; rw [List.foldl_cons, State.stage_onMover, ih, List.foldl_cons]
  have h : (s.onMover m g).scene n = s.scene n := by cases m <;> rfl
  unfold State.take
  rw [h]
  cases s.scene n with
  | none => rfl
  | some sc => dsimp only; rw [key]; cases m <;> rfl

theorem State.toggle_onMover (s : State) (m : MoverId) (g : Mover → Mover) (n : Nat) :
    (s.onMover m g).toggle n = (s.toggle n).onMover m g := by
  have h : (s.onMover m g).channel n = s.channel n := by cases m <;> rfl
  unfold State.toggle
  rw [h]
  cases s.channel n with
  | none => rfl
  | some c => exact s.stage_onMover m g _ _ _

theorem State.fire_onMover (s : State) (m : MoverId) (g : Mover → Mover) (b : Binding) :
    (s.onMover m g).fire b = (s.fire b).onMover m g := by
  have h : ∀ bs, { s.onMover m g with bindings := bs } = ({ s with bindings := bs } : State).onMover m g := by
    intro bs; cases m <;> rfl
  have hb : (s.onMover m g).bindings = s.bindings := by cases m <;> rfl
  unfold State.fire
  rw [hb]
  dsimp only
  rw [h]
  split
  · exact State.take_onMover _ m g _ _
  · exact State.stage_onMover _ m g _ _ _
  · exact State.toggle_onMover _ m g _

/-- An event offered looks at no mover. -/
theorem State.offer_onMover (s : State) (m : MoverId) (g : Mover → Mover) (e : Trigger) :
    (s.onMover m g).offer e = (s.offer e).onMover m g := by
  have hm : (s.onMover m g).mode = s.mode := by cases m <;> rfl
  have hb : (s.onMover m g).bindings = s.bindings := by cases m <;> rfl
  have key : ∀ (fs : List Binding) (u : State), fs.foldl State.fire (u.onMover m g) = (fs.foldl State.fire u).onMover m g := by
    intro fs
    induction fs with
    | nil => exact fun u => rfl
    | cons f fs ih => intro u; rw [List.foldl_cons, State.fire_onMover, ih, List.foldl_cons]
  unfold State.offer
  rw [hm, hb]
  split
  · exact key _ s
  · rfl

/-! ## The load allocator (chapter 5) -/

/-- What an operation of the allocator may change: its own record, the channels' ceilings and staged targets, fire counts, the
last-take record and the notice queue. Limit, base load, source, settings and the review timer stand. -/
structure Allocated (s t : State) : Prop where
  frame : ∃ a cs bs lt ns o, t = { s with alloc := a, channels := cs, bindings := bs, lastTake := lt
                                          link := { s.link with notices := ns, overflow := o } }
  figures : t.alloc.limit = s.alloc.limit ∧ t.alloc.base = s.alloc.base ∧ t.alloc.source = s.alloc.source
    ∧ t.alloc.margin = s.alloc.margin ∧ t.alloc.hysteresis = s.alloc.hysteresis ∧ t.alloc.reviewTimer = s.alloc.reviewTimer
  bindings : BindingsFired s.bindings t.bindings
  channels : List.Forall₂ (fun c c' => { c' with staged := c.staged, untouched := c.untouched, ceiling := c.ceiling } = c)
    s.channels t.channels

theorem Allocated.refl {s : State} : Allocated s s where
  frame := ⟨s.alloc, s.channels, s.bindings, s.lastTake, s.link.notices, s.link.overflow, by cases s; rfl⟩
  figures := by simp
  bindings := .refl
  channels := by
    induction s.channels with
    | nil => exact .nil
    | cons c cs ih => exact .cons (by cases c; simp) ih

theorem Allocated.trans {s t u : State} (h : Allocated s t) (g : Allocated t u) : Allocated s u where
  frame := by
    obtain ⟨a, cs, bs, lt, ns, o, e⟩ := h.frame
    obtain ⟨a', cs', bs', lt', ns', o', e'⟩ := g.frame
    refine ⟨a', cs', bs', lt', ns', o', ?_⟩
    rw [e', e]
  figures := by
    obtain ⟨h1, h2, h3, h4, h5, h6⟩ := h.figures
    obtain ⟨g1, g2, g3, g4, g5, g6⟩ := g.figures
    exact ⟨g1.trans h1, g2.trans h2, g3.trans h3, g4.trans h4, g5.trans h5, g6.trans h6⟩
  bindings := h.bindings.trans g.bindings
  channels := by
    have key : ∀ {a b c : List Channel},
        List.Forall₂ (fun c c' : Channel => { c' with staged := c.staged, untouched := c.untouched, ceiling := c.ceiling } = c) a b →
        List.Forall₂ (fun c c' : Channel => { c' with staged := c.staged, untouched := c.untouched, ceiling := c.ceiling } = c) b c →
        List.Forall₂ (fun c c' : Channel => { c' with staged := c.staged, untouched := c.untouched, ceiling := c.ceiling } = c) a c := by
      intro a b c h g
      induction h generalizing c with
      | nil => cases g; exact .nil
      | cons hx _ ih =>
        cases g with
        | cons hy ht =>
          refine .cons ?_ (ih ht)
          rw [← hx, ← hy]
    exact key h.channels g.channels

theorem Allocated.of_offer (s : State) (e : Trigger) : Allocated s (s.offer e) := by
  obtain ⟨bs, cs, lt, h, hb, hc⟩ := s.offer_frame e
  refine ⟨⟨s.alloc, cs, bs, lt, s.link.notices, s.link.overflow, h⟩, by simp [h], by rw [h]; exact hb, ?_⟩
  rw [h]
  exact List.Forall₂.imp (fun c c' e => by cases c; cases c'; simp_all) hc

theorem Allocated.of_post (s : State) (k : NoticeKind) (n : Nat) (d : List Byte) : Allocated s (s.post k n d) := by
  obtain ⟨ns, o, h⟩ := s.link.post_frame ⟨k, n, d, s.uptime⟩
  refine ⟨⟨s.alloc, s.channels, s.bindings, s.lastTake, ns, o, ?_⟩, by simp [State.post], .refl, Allocated.refl.channels⟩
  simp [State.post, h]

/-- A change of the classes, the over-limit counter, the grants or the last-admission record. -/
theorem Allocated.of_onAlloc (s : State) (f : Alloc → Alloc)
    (h : (f s.alloc).limit = s.alloc.limit ∧ (f s.alloc).base = s.alloc.base ∧ (f s.alloc).source = s.alloc.source
      ∧ (f s.alloc).margin = s.alloc.margin ∧ (f s.alloc).hysteresis = s.alloc.hysteresis
      ∧ (f s.alloc).reviewTimer = s.alloc.reviewTimer) : Allocated s (s.onAlloc f) :=
  ⟨⟨f s.alloc, s.channels, s.bindings, s.lastTake, s.link.notices, s.link.overflow, rfl⟩, h, .refl, Allocated.refl.channels⟩

theorem Allocated.of_setClass (s : State) (k : Nat) (c : ClassState) : Allocated s (s.setClass k c) :=
  .of_onAlloc s _ ⟨rfl, rfl, rfl, rfl, rfl, rfl⟩

theorem Allocated.of_setGrant (s : State) (m : Motor) (g : Option Grant) : Allocated s (s.setGrant m g) := by
  cases m
  · exact .of_onAlloc s (fun a => { a with hpuGrant := g }) ⟨rfl, rfl, rfl, rfl, rfl, rfl⟩
  · exact .of_onAlloc s (fun a => { a with windlassGrant := g }) ⟨rfl, rfl, rfl, rfl, rfl, rfl⟩

theorem Allocated.of_record (s : State) (who : Requester) (r : Nat) (h : Int) (n : Option Nat) (x : AdmissionResult) (l : Option Nat) :
    Allocated s (s.recordAdmission who r h n x l) :=
  .of_onAlloc s (fun a => { a with lastAdmission := some ⟨who, r, h, n, x, l, s.uptime⟩ }) ⟨rfl, rfl, rfl, rfl, rfl, rfl⟩

theorem Allocated.of_ceilings (s : State) (f : Channel → Nat) :
    Allocated s (s.onChannels fun c => { c with ceiling := f c }) := by
  refine ⟨⟨s.alloc, _, s.bindings, s.lastTake, s.link.notices, s.link.overflow, rfl⟩, by simp, .refl, ?_⟩
  simp only [State.onChannels_channels]
  induction s.channels with
  | nil => exact .nil
  | cons c cs ih => exact .cons (by simp) ih

theorem Allocated.of_shedClass (s : State) (k : Nat) (c : ShedCause) (h : Int) : Allocated s (s.shedClass k c h) := by
  have hc : ∀ u : State, Allocated u (u.onChannels fun c => if c.cfg.cls = k then { c with ceiling := c.cfg.floor } else c) := by
    intro u
    have := Allocated.of_ceilings u fun c => if c.cfg.cls = k then c.cfg.floor else c.ceiling
    convert this using 3 with c
    split <;> rfl
  exact (((Allocated.of_setClass s k .shed).trans (hc _)).trans (.of_post _ _ _ _)).trans (.of_offer _ _)

/-- A review changes classes, ceilings, the over-limit counter, and what its notice and events change; the grants stand. -/
theorem Allocated.of_review (s : State) : Allocated s s.review := by
  unfold State.review
  dsimp only
  split
  · split
    · exact .of_shedClass _ _ _ _
    · unfold State.countOverLimit
      split
      · dsimp only
        split
        · exact (Allocated.of_onAlloc s _ ⟨rfl, rfl, rfl, rfl, rfl, rfl⟩).trans (.of_post _ _ _ _)
        · exact .of_onAlloc s _ ⟨rfl, rfl, rfl, rfl, rfl, rfl⟩
      · exact .refl
  · refine (Allocated.of_onAlloc s (fun a => { a with overLimit := 0 }) ⟨rfl, rfl, rfl, rfl, rfl, rfl⟩).trans ?_
    unfold State.tryRestore
    split
    · exact .refl
    · split
      · exact .refl
      · split
        · exact .of_setClass _ _ _
        · exact .refl

theorem Allocated.of_shedDown (s : State) (low : Nat) (c : ShedCause) (h : Int) (k : Nat) : Allocated s (s.shedDown low c h k) := by
  induction k generalizing s with
  | zero => exact .refl
  | succ k ih =>
    unfold State.shedDown
    split
    · exact .refl
    · split
      · exact ih s
      · exact (Allocated.of_shedClass s _ c h).trans (ih _)

theorem Allocated.of_seekWatts (s : State) (who : Requester) (r : Nat) : Allocated s (s.seekWatts who r).1 := by
  unfold State.seekWatts
  dsimp only
  split
  · exact .of_record _ _ _ _ _ _ _
  · split
    · exact (Allocated.of_shedDown s _ _ _ _).trans (.of_record _ _ _ _ _ _ _)
    · exact .of_record _ _ _ _ _ _ _

theorem Allocated.of_startAdmission (s : State) (m : Motor) (g i w : Nat) : Allocated s (s.startAdmission m g i w).1 := by
  unfold State.startAdmission
  split
  · exact .of_record _ _ _ _ _ _ _
  · have h := Allocated.of_seekWatts s (startRequester m) (g + i)
    split
    · rename_i hs; rw [hs] at h; exact h
    · rename_i hs; rw [hs] at h; exact h.trans (.of_setGrant _ _ _)

theorem Allocated.of_stageAdmission (s : State) (g : Nat) : Allocated s (s.stageAdmission g).1 := by
  unfold State.stageAdmission
  split
  · exact .of_record _ _ _ _ _ _ _
  · rename_i x _
    split
    · exact .of_record _ _ _ _ _ _ _
    · split
      · exact .refl
      · have h := Allocated.of_seekWatts s .windlassStage (g - x.running)
        split
        · rename_i hs; rw [hs] at h; exact h
        · rename_i hs; rw [hs] at h; exact h.trans (.of_setGrant _ .windlass _)

theorem Allocated.of_releaseGrant (s : State) (m : Motor) : Allocated s (s.releaseGrant m) := by
  unfold State.releaseGrant
  split
  · exact (Allocated.of_setGrant s m none).trans (.of_review _)
  · exact .refl

theorem Allocated.of_lowerGrant (s : State) (g : Nat) : Allocated s (s.lowerGrant g) := by
  unfold State.lowerGrant
  split
  · exact .refl
  · split
    · exact (Allocated.of_setGrant s _ _).trans (.of_review _)
    · exact .refl

theorem Allocated.of_rampClass (s : State) (k : Nat) : Allocated s (s.rampClass k) := by
  have hc : Allocated s (s.onChannels fun c => if c.cfg.cls = k then { c with ceiling := min (c.ceiling + 25) 1000 } else c) := by
    have := Allocated.of_ceilings s fun c => if c.cfg.cls = k then min (c.ceiling + 25) 1000 else c.ceiling
    convert this using 3 with c
    split <;> rfl
  unfold State.rampClass
  split
  · dsimp only
    split
    · exact ((hc.trans (.of_setClass _ _ _)).trans (.of_post _ _ _ _)).trans (.of_offer _ _)
    · exact hc
  · exact .refl

/-- What an allocator's operation leaves alone, field by field. -/
theorem Allocated.rest {s t : State} (h : Allocated s t) :
    t.pending = s.pending ∧ t.uptime = s.uptime ∧ t.mode = s.mode ∧ t.store = s.store ∧ t.bus = s.bus ∧ t.nodes = s.nodes
      ∧ t.enrolment = s.enrolment ∧ t.scenes = s.scenes ∧ t.sense = s.sense ∧ t.hpu = s.hpu ∧ t.hatch = s.hatch
      ∧ t.platform = s.platform ∧ t.windlass = s.windlass ∧ t.hatchOwner = s.hatchOwner ∧ t.platformOwner = s.platformOwner
      ∧ t.windlassOwner = s.windlassOwner ∧ t.stations = s.stations := by
  obtain ⟨a, cs, bs, lt, ns, o, e⟩ := h.frame
  simp [e]

/-! ## The grants (R92 to R98) -/

theorem State.offer_alloc (s : State) (e : Trigger) : (s.offer e).alloc = s.alloc := by
  obtain ⟨bs, cs, lt, h, -⟩ := s.offer_frame e; rw [h]

theorem State.shedClass_alloc (s : State) (k : Nat) (c : ShedCause) (h : Int) :
    (s.shedClass k c h).alloc = { s.alloc with classes := s.alloc.classes.setIfInBounds k .shed } := by
  unfold State.shedClass; rw [State.offer_alloc]; rfl

/-- A review leaves the grants and the last-admission record. -/
theorem State.review_grants (s : State) :
    s.review.alloc.hpuGrant = s.alloc.hpuGrant ∧ s.review.alloc.windlassGrant = s.alloc.windlassGrant
      ∧ s.review.alloc.lastAdmission = s.alloc.lastAdmission := by
  unfold State.review
  dsimp only
  split
  · split
    · simp [State.shedClass_alloc]
    · unfold State.countOverLimit
      split
      · dsimp only
        split <;> simp [State.post]
      · simp
  · unfold State.tryRestore
    split
    · simp
    · split
      · simp
      · split <;> simp [State.setClass]

/-- A motor that gives its grant back holds none, and the other motor's stands. -/
theorem State.releaseGrant_grant (s : State) (m : Motor) :
    (s.releaseGrant m).grant m = none ∧ ∀ n, n ≠ m → (s.releaseGrant m).grant n = s.grant n := by
  unfold State.releaseGrant
  split
  · obtain ⟨h, w, -⟩ := (s.setGrant m none).review_grants
    refine ⟨?_, fun n hn => ?_⟩
    · cases m <;> simp [State.grant, h, w] <;> rfl
    · cases m <;> cases n <;> simp_all [State.grant] <;> rfl
  · rename_i h
    exact ⟨by simpa using h, fun _ _ => rfl⟩

end Sys2Proof.Machine
end

