-- ==== Sys2Proof/Laws/Deck.lean ====
section
/-!
SUPPORT. What the shared operations of the deck can do: stops and settling, the lamps, and what follows a deck operation.
-/

namespace Sys2Proof.Machine

/-! ## Stops of a mover (R127, R132, R133) -/

/-- A mover that settles has its valves closed, its settle timer running for 500 ms and its cause noted. -/
theorem State.mover_enterSettling (s : State) (m : MoverId) (c : Cause) :
    (s.enterSettling m c).mover m =
      { s.mover m with state := .settling, raise := false, lower := false, travelTimer := none, stall := none
                       stopCause := some c, stopLater := 0, pendingFault := none, settleTimer := some (s.after 500) } := by
  cases m <;> rfl

theorem State.mover_enterSettling_other (s : State) (m : MoverId) (c : Cause) :
    (s.enterSettling m c).mover (otherMover m) = s.mover (otherMover m) := by cases m <;> rfl

/-- A waiting mover that returns to rest: its motion gone, its record NONE, and MOTION_STOPPED posted. -/
theorem State.returnToRest_eq (s : State) (m : MoverId) (c : Cause) :
    ∃ n, s.returnToRest m c =
      ((s.onMover m fun r => { r with state := .atRest, motion := none }).onLink (·.post n)).onOwner (moverResource m) fun _ => {} := by
  cases m <;> exact ⟨_, rfl⟩

/-- What a stop does to a mover, by its state (R133). -/
theorem State.moverStop_cases (s : State) (m : MoverId) (c : Cause) :
    ((s.mover m).state = .moving ∧ s.moverStop m c = s.enterSettling m c)
      ∨ ((s.mover m).state = .waitPump ∧ s.moverStop m c = s.withdraw m c)
      ∨ ((s.mover m).state ≠ .moving ∧ (s.mover m).state ≠ .waitPump ∧ s.moverStop m c = s) := by
  unfold State.moverStop
  cases h : (s.mover m).state <;> simp

/-- What the interlock watch does to one mover (R130). -/
theorem State.watchInterlockOf_cases (s : State) (m : MoverId) :
    ((s.mover m).state = .moving ∧ s.motionInterlock m = false ∧ s.watchInterlockOf m = s.enterSettling m .interlock)
      ∨ (((s.mover m).state ≠ .moving ∨ s.motionInterlock m = true) ∧ s.watchInterlockOf m = s) := by
  unfold State.watchInterlockOf
  by_cases h : (s.mover m).state = .moving <;> cases g : s.motionInterlock m <;> simp [h]

/-! ## Stops of the windlass (R146, R153) -/

/-- What a stop does to the windlass: under way, every output is de-energised and it settles for 300 ms; otherwise nothing. -/
theorem State.windlassStop_cases (s : State) (c : Cause) :
    (s.windlass.underWay = true ∧ s.windlassStop c = s.onWindlass fun w =>
        { w with payOut := false, heave := false, stage2 := false, brakeRelease := false
                 heaveFree := if w.payOut then s.after 500 else w.heaveFree
                 payOutFree := if w.heave then s.after 500 else w.payOutFree
                 state := .stopping, stopCause := some c, stopLater := 0, pendingFault := none
                 settleTimer := some (s.after 300), brakeTimer := none, jamTimer := none, delayTimer := none
                 overWatch := none, lowWatch := none })
      ∨ (s.windlass.underWay = false ∧ s.windlassStop c = s) := by
  unfold State.windlassStop
  cases h : s.windlass.underWay
  · exact .inr ⟨rfl, by simp⟩
  · exact .inl ⟨rfl, by simp [Windlass.open_]⟩

/-! ## Lamps (R168, R169) -/

/-- Lamps are asked for in the outbound queue alone, and each entry it then holds was there or is of kind LAMPS. -/
theorem State.requestLamps_frame (s : State) (a : Nat) :
    ∃ q, s.requestLamps a = s.onBus (fun b => { b with queue := q })
      ∧ ∀ e ∈ q, (∃ x ∈ s.bus.queue, x.kind = e.kind ∧ x.target = e.target) ∨ e.kind = .lamps := by
  have keep : ∃ q, s = s.onBus (fun b => { b with queue := q })
      ∧ ∀ e ∈ q, (∃ x ∈ s.bus.queue, x.kind = e.kind ∧ x.target = e.target) ∨ e.kind = .lamps :=
    ⟨s.bus.queue, rfl, fun e he => .inl ⟨e, he, rfl, rfl⟩⟩
  unfold State.requestLamps
  split
  · exact keep
  · split
    · unfold State.askTx
      rcases s.queueTx_cases .lamps a none false with ⟨h, -⟩ | ⟨-, -, h | ⟨-, h⟩⟩
      · rw [h]; exact keep
      · rw [h]
        refine ⟨_, rfl, fun e he => .inl ?_⟩
        obtain ⟨x, hx, rfl⟩ := List.mem_map.mp he
        refine ⟨x, hx, ?_⟩
        split
        · obtain ⟨f, hf⟩ := x.absorb_frame; rw [hf]; exact ⟨rfl, rfl⟩
        · exact ⟨rfl, rfl⟩
      · rw [h]
        refine ⟨_, rfl, fun e he => ?_⟩
        rcases List.mem_append.mp he with he | he
        · exact .inl ⟨e, he, rfl, rfl⟩
        · rw [List.mem_singleton.mp he]; exact .inr rfl
    · exact keep

theorem State.requestLamps_bounded {s : State} (a : Nat) (h : s.bus.Bounded) : (s.requestLamps a).bus.Bounded := by
  unfold State.requestLamps
  split
  · exact h
  · split
    · exact s.queueTx_bounded .lamps a none false h
    · exact h

/-- The lamp pass changes the outbound queue alone, and each entry it then holds was there or is of kind LAMPS. -/
theorem State.lampPass_frame (s b : State) :
    ∃ q, s.lampPass b = s.onBus (fun c => { c with queue := q })
      ∧ ∀ e ∈ q, (∃ x ∈ s.bus.queue, x.kind = e.kind ∧ x.target = e.target) ∨ e.kind = .lamps := by
  have key : ∀ (ts : List Station) (u : State), ∃ q,
      ts.foldl (fun s t =>
          if (b.station t.addr).map b.lampsOf = (s.station t.addr).map s.lampsOf then s else s.requestLamps t.addr) u
        = u.onBus (fun c => { c with queue := q })
        ∧ ∀ e ∈ q, (∃ x ∈ u.bus.queue, x.kind = e.kind ∧ x.target = e.target) ∨ e.kind = .lamps := by
    intro ts
    induction ts with
    | nil => exact fun u => ⟨u.bus.queue, rfl, fun e he => .inl ⟨e, he, rfl, rfl⟩⟩
    | cons t ts ih =>
      intro u
      rw [List.foldl_cons]
      split
      · exact ih u
      · obtain ⟨q, h, hq⟩ := u.requestLamps_frame t.addr
        obtain ⟨q', h', hq'⟩ := ih (u.requestLamps t.addr)
        refine ⟨q', by rw [h', h]; rfl, fun e he => ?_⟩
        rcases hq' e he with ⟨x, hx, hk, ht⟩ | hl
        · rw [h] at hx
          rcases hq x hx with ⟨y, hy, hk', ht'⟩ | hl
          · exact .inl ⟨y, hy, hk'.trans hk, ht'.trans ht⟩
          · exact .inr (hk.symm.trans hl)
        · exact .inr hl
  exact key s.stations s

theorem State.lampPass_bounded {s : State} (b : State) (h : s.bus.Bounded) : (s.lampPass b).bus.Bounded := by
  have key : ∀ (ts : List Station) (u : State), u.bus.Bounded →
      (ts.foldl (fun s t =>
          if (b.station t.addr).map b.lampsOf = (s.station t.addr).map s.lampsOf then s else s.requestLamps t.addr) u).bus.Bounded := by
    intro ts
    induction ts with
    | nil => exact fun u hu => hu
    | cons t ts ih =>
      intro u hu
      rw [List.foldl_cons]
      split
      · exact ih u hu
      · exact ih _ (State.requestLamps_bounded t.addr hu)
  exact key s.stations s h

/-- A queue in which lamps are waiting for a station still has them waiting after a request of LAMPS. -/
theorem State.requestLamps_keeps {s : State} (a b : Nat)
    (h : (∃ x ∈ s.bus.queue, x.kind = .lamps ∧ x.target = a ∧ (x.inFlight = true → x.followUp = true)) ∨ 16 ≤ s.bus.queue.length) :
    (∃ x ∈ (s.requestLamps b).bus.queue, x.kind = .lamps ∧ x.target = a ∧ (x.inFlight = true → x.followUp = true))
      ∨ 16 ≤ (s.requestLamps b).bus.queue.length := by
  unfold State.requestLamps
  split
  · exact h
  · split
    · unfold State.askTx
      rcases s.queueTx_cases .lamps b none false with ⟨e, -⟩ | ⟨-, -, e | ⟨-, e⟩⟩
      · rw [e]; exact h
      · rw [e]
        rcases h with ⟨x, hx, hk, ht, hf⟩ | h
        · refine .inl ⟨_, List.mem_map.mpr ⟨x, hx, rfl⟩, ?_⟩
          split
          · unfold Entry.absorb; split
            · exact ⟨hk, ht, fun _ => rfl⟩
            · exact ⟨hk, ht, hf⟩
          · exact ⟨hk, ht, hf⟩
        · exact .inr (by simpa using h)
      · rw [e]
        rcases h with ⟨x, hx, h⟩ | h
        · exact .inl ⟨x, List.mem_append_left _ hx, h⟩
        · exact .inr (by simp; omega)
    · exact h

/-- Outside CONFIG and RECOVERY a request of LAMPS for an ACTIVE station whose lamps differ from those last delivered leaves them
waiting, or in flight with the follow-up mark set, unless the queue is full (R17, R18, R169). -/
theorem State.requestLamps_waits {s : State} {a : Nat} {t : Station} {r : NodeRecord} (hm : s.mode ≠ .config) (hb : s.bus.state ≠ .recovery)
    (ht : s.station a = some t) (hr : s.node a = some r) (ha : r.state = .active) (hd : t.delivered ≠ some (s.lampsOf t)) :
    (∃ x ∈ (s.requestLamps a).bus.queue, x.kind = .lamps ∧ x.target = a ∧ (x.inFlight = true → x.followUp = true))
      ∨ 16 ≤ (s.requestLamps a).bus.queue.length := by
  unfold State.requestLamps
  rw [ht]
  dsimp only
  rw [if_pos ⟨by simp [hr, ha], hd⟩]
  unfold State.askTx State.queueTx
  rw [if_neg hb, if_neg (by simp [State.modeTakes, hm])]
  split
  · rename_i h
    obtain ⟨x, hx, hf⟩ := List.any_eq_true.mp h.2
    have hkt : x.kind = .lamps ∧ x.target = a := by simpa [Entry.isFor] using hf
    refine .inl ⟨_, List.mem_map.mpr ⟨x, hx, rfl⟩, ?_⟩
    rw [if_pos hf]
    unfold Entry.absorb
    split
    · exact ⟨hkt.1, hkt.2, fun _ => rfl⟩
    · rename_i hn
      exact ⟨hkt.1, hkt.2, fun hi => absurd ⟨hi, by rw [hkt.1]; decide⟩ hn⟩
  · split
    · exact .inr ‹_›
    · exact .inl ⟨_, List.mem_append_right _ (List.mem_singleton_self _), rfl, rfl, nofun⟩

/-- After the lamp pass an ACTIVE station whose lamps the operation has changed, and differ from those last delivered, has them waiting,
or in flight with the follow-up mark set, unless the queue is full (R169). -/
theorem State.lampPass_waits {s : State} (b : State) {a : Nat} {t : Station} {r : NodeRecord} (hm : s.mode ≠ .config)
    (hb : s.bus.state ≠ .recovery) (ht : s.station a = some t) (hr : s.node a = some r) (ha : r.state = .active)
    (hd : t.delivered ≠ some (s.lampsOf t)) (hc : (b.station a).map b.lampsOf ≠ some (s.lampsOf t)) :
    (∃ x ∈ (s.lampPass b).bus.queue, x.kind = .lamps ∧ x.target = a ∧ (x.inFlight = true → x.followUp = true))
      ∨ 16 ≤ (s.lampPass b).bus.queue.length := by
  have key : ∀ (ts : List Station) (u : State), (∃ q, u = s.onBus fun c => { c with queue := q }) →
      (∃ x ∈ ts, x.addr = a)
          ∨ (∃ x ∈ u.bus.queue, x.kind = .lamps ∧ x.target = a ∧ (x.inFlight = true → x.followUp = true)) ∨ 16 ≤ u.bus.queue.length →
      let v := ts.foldl (fun s t =>
        if (b.station t.addr).map b.lampsOf = (s.station t.addr).map s.lampsOf then s else s.requestLamps t.addr) u
      (∃ x ∈ v.bus.queue, x.kind = .lamps ∧ x.target = a ∧ (x.inFlight = true → x.followUp = true)) ∨ 16 ≤ v.bus.queue.length := by
    intro ts
    induction ts with
    | nil =>
      rintro u - (⟨x, hx, -⟩ | h)
      · exact absurd hx List.not_mem_nil
      · exact h
    | cons y ts ih =>
      rintro u ⟨q, rfl⟩ h
      rw [List.foldl_cons]
      split
      · rename_i same
        refine ih _ ⟨q, rfl⟩ ?_
        rcases h with ⟨x, hx, hxa⟩ | h
        · rcases List.mem_cons.mp hx with rfl | hx
          · rw [hxa] at same
            exact absurd (same.trans (congrArg (·.map s.lampsOf) ht)) hc
          · exact .inl ⟨x, hx, hxa⟩
        · exact .inr h
      · obtain ⟨q', e, -⟩ := State.requestLamps_frame (s.onBus fun c => { c with queue := q }) y.addr
        refine ih _ ⟨q', by rw [e]; rfl⟩ ?_
        rcases h with ⟨x, hx, hxa⟩ | h
        · rcases List.mem_cons.mp hx with rfl | hx
          · rw [hxa]
            exact .inr (State.requestLamps_waits (s := s.onBus fun c => { c with queue := q }) hm hb ht hr ha hd)
          · exact .inl ⟨x, hx, hxa⟩
        · exact .inr (State.requestLamps_keeps a y.addr h)
  exact key s.stations s ⟨s.bus.queue, rfl⟩
    (.inl ⟨t, List.mem_of_find?_eq_some ht, by simpa using List.find?_some ht⟩)

/-! ## What follows a deck operation (R130, R168, R188) -/

/-- In CONFIG and RUN, and in STOPPING before the drain, what follows a deck operation is the interlock watch and then the
lamps. -/
theorem State.deckPass_undrained {s : State} (b : State) (h : s.watchInterlock.mode ≠ .stopping ∨ s.watchInterlock.drained = false) :
    s.deckPass b = s.watchInterlock.lampPass b := by
  unfold State.deckPass State.drainPass
  rcases h with h | h <;> simp [h]

/-- The drain that follows a deck operation in STOPPING. -/
theorem State.deckPass_drained {s : State} (b : State) (h : s.watchInterlock.mode = .stopping) (g : s.watchInterlock.drained = true) :
    s.deckPass b = s.watchInterlock.enterConfig.lampPass b := by
  unfold State.deckPass State.drainPass
  simp [h, g]

/-- An interlock watch with no MOVING mover whose interlock fails does nothing. -/
theorem State.watchInterlock_idle {s : State} (h : ∀ m, (s.mover m).state = .moving → s.motionInterlock m = true) :
    s.watchInterlock = s := by
  have one : ∀ m, s.watchInterlockOf m = s := fun m => by
    rcases s.watchInterlockOf_cases m with ⟨hm, hi, -⟩ | ⟨-, e⟩
    · rw [h m hm] at hi; cases hi
    · exact e
  unfold State.watchInterlock
  rw [one .hatch, one .platform]

/-- The interlock watch changes the two movers alone. -/
theorem State.watchInterlock_frame (s : State) :
    ∃ h p, s.watchInterlock = { s with hatch := h, platform := p } := by
  have one : ∀ (u : State) (m : MoverId), ∃ h p, u.watchInterlockOf m = { u with hatch := h, platform := p } := by
    intro u m
    rcases u.watchInterlockOf_cases m with ⟨-, -, e⟩ | ⟨-, e⟩
    · rw [e]
      cases m
      · exact ⟨_, u.platform, rfl⟩
      · exact ⟨u.hatch, _, rfl⟩
    · exact ⟨u.hatch, u.platform, e⟩
  obtain ⟨h, p, e⟩ := one s .hatch
  obtain ⟨h', p', e'⟩ := one (s.watchInterlockOf .hatch) .platform
  exact ⟨h', p', by unfold State.watchInterlock; rw [e', e]⟩

end Sys2Proof.Machine
end

