-- ==== Sys2Proof/Laws/Tables.lean ====
section
/-!
SUPPORT. What the operations on a table in ascending order of a key do: which item each key then finds, and that the
order stands.
-/

namespace Sys2Proof.Machine

variable {α : Type} (key : α → Nat)

theorem tableGet_cons (k : Nat) (y : α) (ys : List α) :
    tableGet key k (y :: ys) = if key y = k then some y else tableGet key k ys := by
  by_cases h : key y = k <;> simp [tableGet, h]

theorem tableModify_cons (k : Nat) (f : α → α) (y : α) (ys : List α) :
    tableModify key k f (y :: ys) = (if key y = k then f y else y) :: tableModify key k f ys := rfl

theorem tableErase_cons (k : Nat) (y : α) (ys : List α) :
    tableErase key k (y :: ys) = if key y = k then tableErase key k ys else y :: tableErase key k ys := by
  by_cases h : key y = k <;> simp [tableErase, h]

theorem tableGet_eq_some_imp {k : Nat} {t : List α} {x : α} (h : tableGet key k t = some x) : x ∈ t ∧ key x = k := by
  have := List.find?_some h
  exact ⟨List.mem_of_find?_eq_some h, by simpa using this⟩

theorem tableGet_eq_none_iff {k : Nat} {t : List α} : tableGet key k t = none ↔ ∀ x ∈ t, key x ≠ k := by
  simp [tableGet]

theorem tableGet_of_mem {t : List α} {x : α} (ht : (t.map key).Pairwise (· < ·)) (hx : x ∈ t) :
    tableGet key (key x) t = some x := by
  induction t with
  | nil => cases hx
  | cons y ys ih =>
    simp only [List.map_cons, List.pairwise_cons] at ht
    rcases List.mem_cons.mp hx with rfl | hm
    · simp [tableGet]
    · have : key y < key x := ht.1 _ (List.mem_map_of_mem hm)
      have hne : (key y == key x) = false := by simp; omega
      simpa [tableGet, hne] using ih ht.2 hm

theorem tableModify_keys {k : Nat} {f : α → α} {t : List α} (hf : ∀ x, key (f x) = key x) :
    (tableModify key k f t).map key = t.map key := by
  simp only [tableModify, List.map_map]
  refine List.map_congr_left fun x _ => ?_
  simp only [Function.comp_apply]
  split <;> simp [hf]

theorem tableGet_tableModify_self {k : Nat} {f : α → α} {t : List α} (hf : ∀ x, key (f x) = key x) :
    tableGet key k (tableModify key k f t) = (tableGet key k t).map f := by
  induction t with
  | nil => rfl
  | cons y ys ih =>
    rw [tableModify_cons, tableGet_cons, tableGet_cons, ih]
    by_cases h : key y = k <;> simp [h, hf]

theorem tableGet_tableModify_other {k j : Nat} {f : α → α} {t : List α} (hf : ∀ x, key (f x) = key x) (hj : j ≠ k) :
    tableGet key j (tableModify key k f t) = tableGet key j t := by
  induction t with
  | nil => rfl
  | cons y ys ih =>
    rw [tableModify_cons, tableGet_cons, tableGet_cons, ih]
    by_cases h : key y = k
    · simp [h, hf, Ne.symm hj]
    · simp [h]

theorem mem_tablePut {x y : α} {t : List α} (h : y ∈ tablePut key x t) : y = x ∨ y ∈ t := by
  induction t with
  | nil => simpa [tablePut] using h
  | cons z zs ih =>
    simp only [tablePut] at h
    split at h
    · simpa using h
    · split at h
      · rcases List.mem_cons.mp h with rfl | h
        · exact .inl rfl
        · exact .inr (List.mem_cons_of_mem _ h)
      · rcases List.mem_cons.mp h with rfl | h
        · exact .inr List.mem_cons_self
        · exact (ih h).imp_right (List.mem_cons_of_mem _)

theorem tablePut_ordered {x : α} {t : List α} (ht : (t.map key).Pairwise (· < ·)) :
    ((tablePut key x t).map key).Pairwise (· < ·) := by
  induction t with
  | nil => simp [tablePut]
  | cons y ys ih =>
    simp only [List.map_cons, List.pairwise_cons] at ht
    simp only [tablePut]
    split
    · rename_i hlt
      simp only [List.map_cons, List.pairwise_cons, List.mem_cons, forall_eq_or_imp]
      exact ⟨⟨hlt, fun z hz => lt_trans hlt (ht.1 z hz)⟩, ht⟩
    · split
      · rename_i heq
        simp only [List.map_cons, List.pairwise_cons]
        exact ⟨fun z hz => heq ▸ ht.1 z hz, ht.2⟩
      · rename_i hlt heq
        simp only [List.map_cons, List.pairwise_cons]
        refine ⟨fun z hz => ?_, ih ht.2⟩
        obtain ⟨w, hw, rfl⟩ := List.mem_map.mp hz
        rcases mem_tablePut key hw with rfl | hw
        · omega
        · exact ht.1 _ (List.mem_map_of_mem hw)

theorem tableGet_tablePut_self (x : α) (t : List α) : tableGet key (key x) (tablePut key x t) = some x := by
  induction t with
  | nil => simp [tablePut, tableGet]
  | cons y ys ih =>
    simp only [tablePut]
    split
    · simp [tableGet]
    · split
      · simp [tableGet]
      · rename_i h
        have hy : (key y == key x) = false := by simpa using fun e => h e.symm
        simp only [tableGet, List.find?_cons, hy] at ih ⊢
        exact ih

theorem tableGet_tablePut_other {x : α} {k : Nat} {t : List α} (hk : k ≠ key x) :
    tableGet key k (tablePut key x t) = tableGet key k t := by
  have hx : (key x == k) = false := by simpa using fun e => hk e.symm
  induction t with
  | nil => simp [tablePut, tableGet, hx]
  | cons y ys ih =>
    simp only [tablePut]
    split
    · simp [tableGet, hx]
    · split
      · rename_i heq
        simp [tableGet, hx, ← heq]
      · simp only [tableGet, List.find?_cons] at ih ⊢
        split <;> simp_all

theorem tableErase_ordered {k : Nat} {t : List α} (ht : (t.map key).Pairwise (· < ·)) :
    ((tableErase key k t).map key).Pairwise (· < ·) :=
  ht.sublist ((List.filter_sublist).map key)

theorem tableGet_tableErase_self {k : Nat} {t : List α} : tableGet key k (tableErase key k t) = none := by
  simp [tableGet_eq_none_iff, tableErase]

theorem tableGet_tableErase_other {k j : Nat} {t : List α} (hj : j ≠ k) :
    tableGet key j (tableErase key k t) = tableGet key j t := by
  induction t with
  | nil => rfl
  | cons y ys ih =>
    rw [tableErase_cons, tableGet_cons]
    by_cases h : key y = k
    · simp [h, ih, Ne.symm hj]
    · simp [h, tableGet_cons, ih]

end Sys2Proof.Machine
end

