-- ==== Sys2Proof/Laws/Words.lean ====
section
/-!
SUPPORT. What the shared operations come to in the words of Safety.lean: watches at a sweep, stops of the windlass and of the movers,
the asking for stage 2, the store's image at a reset, and the enrolments.
-/

namespace Sys2Proof.Machine

/-- A watch at a sweep is that of `WatchAt`, and it trips where it says so (R123, R154). -/
theorem watchStep_of_watchAt {now : Uptime} {limit : Nat} {w w' : Option Uptime} {holds trips : Prop} [Decidable holds]
    (h : WatchAt now holds limit w w' trips) : ∃ b, watchStep now (decide holds) limit w = (w', b) ∧ (b = true ↔ trips) := by
  obtain ⟨h1, h2, h3⟩ := h
  by_cases hh : holds
  · cases w with
    | none => obtain ⟨rfl, g⟩ := h2 hh rfl; exact ⟨false, by simp [watchStep, hh], by simp [g]⟩
    | some t =>
      obtain ⟨a, b⟩ := h3 t hh rfl
      by_cases g : limit ≤ elapsed t now
      · obtain ⟨rfl, k⟩ := a g; exact ⟨true, by simp [watchStep, hh, g], by simp [k]⟩
      · obtain ⟨rfl, k⟩ := b (Nat.lt_of_not_le g); exact ⟨false, by simp [watchStep, hh, g], by simp [k]⟩
  · obtain ⟨rfl, g⟩ := h1 hh; exact ⟨false, by simp [watchStep, hh], by simp [g]⟩

/-- A stop of a windlass under way leaves it stopped at this moment with the cause (R153). -/
theorem State.windlassStop_stoppedAt (s : State) (c : Cause) (h : s.windlass.underWay = true) :
    (s.windlassStop c).windlass.StoppedAt s.uptime c := by
  rcases s.windlassStop_cases c with ⟨-, e⟩ | ⟨e, -⟩
  · rw [e]; exact ⟨rfl, rfl, rfl, rfl, rfl, rfl, rfl, rfl, rfl, rfl, rfl, rfl⟩
  · simp [h] at e

/-- A mover that settles is stopped at this moment with the cause (R132, R133). -/
theorem State.enterSettling_stoppedAt (s : State) (m : MoverId) (c : Cause) : ((s.enterSettling m c).mover m).StoppedAt s.uptime c := by
  rw [s.mover_enterSettling m c]; exact ⟨rfl, rfl, rfl, rfl, rfl, rfl⟩

/-- A run that asks for stage 2 asks as `State.Stage2Asked` says (R152). -/
theorem State.askStage2_asked (s : State) (r : Run) (h : s.windlass.run = some r) : s.Stage2Asked s.askStage2 r := by
  rintro u rfl
  constructor
  · intro d hd hle
    simp [State.askStage2, h, hd, Windlass.slowCounts, hle]
  · intro hd a g ha
    have : (s.windlass.endDistance r).any (fun d => decide (d ≤ s.windlass.slowCounts)) = false := by
      rcases hd with hd | ⟨d, hd, hl⟩
      · simp [hd]
      · rw [hd]; exact decide_eq_false (Int.not_le.2 hl)
    simp only [State.askStage2, h, this, ha]
    cases g <;> rfl

/-- The image check of a reset answers the image whose contents give the CRC kept with it (R190). -/
theorem Store.checked_eq_some (r : Store) (m : Image) : r.checked = some m ↔ r.image = some m ∧ m.crc = r.crc := by
  unfold Store.checked
  cases h : r.image with
  | none => simp
  | some x => simp [Option.filter_eq_some_iff]

/-- A pump left with neither holder nor waiter is as `State.PumpIdled` says (R122). -/
theorem State.hpuIdle_pumpIdled (s : State) : s.PumpIdled s.hpuIdle := by
  constructor
  · intro h g; simp [State.hpuIdle, h, g, State.after, later]
  · intro h; simp [State.hpuIdle, h, State.hpuOff]

/-- A motion's interlock looks at no part of the pump (R130). -/
theorem State.motionInterlock_onHpu (s : State) (f : Hpu → Hpu) (m : MoverId) : (s.onHpu f).motionInterlock m = s.motionInterlock m := by
  cases m <;> rfl

/-- The hand-over at the end of the holder's settle is that of `State.HandedOver` (R122). -/
theorem State.handOver_handedOver (s : State) (m : MoverId) (h : s.hpu.holder = some m) : s.HandedOver (s.handOver m) := by
  constructor
  · intro g; simp [State.handOver, h, State.onHpu, g]
  · intro g
    constructor
    · intro k
      have e : s.handOver m = s.hpuIdle := by
        simp [State.handOver, h, State.onHpu, g, State.serveWaiter, k, State.hpuIdle, State.hpuOff, State.after, later]
      rw [e]; exact s.hpuIdle_pumpIdled
    · intro w k
      constructor
      · intro i
        have := s.motionInterlock_onHpu (fun h => { h with holder := none, waiting := none }) w
        cases w <;> simp_all [State.handOver, State.onHpu, State.serveWaiter, State.givePump, State.enterMoving, State.onMover, State.after, later, State.angle, State.input]
      · rintro i u rfl
        have := s.motionInterlock_onHpu (fun h => { h with holder := none, waiting := none }) w
        have e : s.handOver m = (State.returnToRest (s.onHpu fun h => { h with holder := none, waiting := none }) w .interlock).hpuIdle := by
          simp only [State.handOver, h, if_pos]
          simp only [State.onHpu, g, if_neg, not_false_iff, State.serveWaiter, k]
          simp only [State.onHpu] at this
          rw [if_neg]
          · simp [this, i]
        rw [e]
        convert State.hpuIdle_pumpIdled _ using 1
        cases w <;> rfl

/-- A record that enters IDENTIFY in RUN or STOPPING asks for one at once, or starts its retry timer (R28). -/
theorem State.enterIdentify_eq (s : State) (a : Nat) (hm : s.mode ≠ .config) :
    (s.QueueRoom → s.enterIdentify a =
        { s with nodes := s.nodes.map fun n => if n.addr = a then
                   { n with state := .identify, retryTimer := none, pollTimer := none } else n
                 bus := { s.bus with queue := s.bus.queue ++ [⟨.c, .identify, a, none, s.uptime, false, false, false, false⟩] } })
      ∧ (¬ s.QueueRoom → s.enterIdentify a = { s with nodes := s.nodes.map fun n => if n.addr = a then
          { n with state := .identify, retryTimer := some (s.uptime + 1000), pollTimer := none } else n }) := by
  constructor
  · rintro ⟨h1, h2⟩
    have h2 : ¬ 16 ≤ s.bus.queue.length := by omega
    simp [State.enterIdentify, State.askIdentify, State.queueTx, State.onNode, h1, h2, State.modeTakes, hm, TxKind.merges,
      State.onBus, State.txClass, tableModify]
  · intro h
    have e : s.enterIdentify a = State.startRetry (s.onNode a fun r =>
        { r with state := .identify, retryTimer := none, pollTimer := none }) a := by
      by_cases g : s.bus.state = .recovery
      · simp [State.enterIdentify, State.askIdentify, State.queueTx, State.onNode, g]
      · have h2 : 16 ≤ s.bus.queue.length := by
          by_contra k; exact h ⟨g, by omega⟩
        simp [State.enterIdentify, State.askIdentify, State.queueTx, State.onNode, g, h2, State.modeTakes, hm, TxKind.merges]
    rw [e]
    simp only [State.startRetry, State.onNode, tableModify, List.map_map]
    congr 1
    refine List.map_congr_left fun n _ => ?_
    simp only [Function.comp]
    split <;> simp_all [NodeState.retryPeriod, State.after, later]

/-- A failed enrolment fails as `State.EnrolFailed` says (R43). -/
theorem State.enrolFail_failed (s : State) (e : Enrolment) (why : EnrolFailure) :
    s.EnrolFailed (s.enrolFail e why) e.addr why.code e.reported := by
  rintro u upd rfl hupd
  have hn : (State.post { s with enrolment := none } .enrolFailed e.addr (leBytes 1 why.code ++ leBytes 1 e.reported)).node e.addr
      = s.node e.addr := rfl
  refine ⟨fun h => by simp only [State.enrolFail, hn, h]; rfl, fun r h => ?_⟩
  have hra : r.addr = e.addr := by
    simp only [State.node, tableGet] at h; simpa using List.find?_some h
  have hf : s.enrolFail e why =
      State.resume (State.post { s with enrolment := none } .enrolFailed e.addr (leBytes 1 why.code ++ leBytes 1 e.reported)) r := by
    simp only [State.enrolFail, hn, h]
  have hr : ∀ v : State, v.resume r = if v.mode = .config then v.onNode e.addr fun n => { n with enrolHold := false } else
      match r.state with
      | .declared => (v.onNode e.addr fun n => { n with enrolHold := false }).enterIdentify e.addr
      | .identify | .lost | .mismatch => (v.onNode e.addr fun n => { n with enrolHold := false }).startRetry e.addr
      | .setup _ => (v.onNode e.addr fun n => { n with enrolHold := false }).leaveSetup e.addr
      | .active => v.onNode e.addr fun n => { n with enrolHold := false } := by
    intro v; rw [← hra]; rfl
  rw [hf, hr]
  simp only [hupd]
  have hv : (State.post { s with enrolment := none } .enrolFailed e.addr (leBytes 1 why.code ++ leBytes 1 e.reported)).mode
      = s.mode := rfl
  rw [hv]
  by_cases hm : s.mode = .config
  · rw [if_pos hm]
    exact ⟨fun _ => rfl, fun g => absurd hm g⟩
  · rw [if_neg hm]
    refine ⟨fun g => by rw [g.resolve_left hm]; rfl, fun _ => ⟨fun g => ?_, ?_, fun g hq => ?_, fun g hq => ?_⟩⟩
    · have : State.startRetry (State.onNode (State.post { s with enrolment := none } .enrolFailed e.addr
          (leBytes 1 why.code ++ leBytes 1 e.reported)) e.addr fun n => { n with enrolHold := false }) e.addr
          = { s with enrolment := none
                     link := s.link.post ⟨.enrolFailed, e.addr, [BitVec.ofNat 8 why.code, BitVec.ofNat 8 e.reported], s.uptime⟩
                     nodes := s.nodes.map fun n => if n.addr = e.addr then
                       { n with retryTimer := some (s.uptime + (if n.state = .mismatch then 5000 else 1000)), enrolHold := false }
                       else n } := by
        simp only [State.startRetry, State.onNode, tableModify, List.map_map, State.post]
        congr 1
        refine List.map_congr_left fun n _ => ?_
        simp only [Function.comp]
        by_cases hx : n.addr = e.addr
        · cases hs : n.state <;> simp [hx, NodeState.retryPeriod, State.after, later]
        · simp [hx]
      rcases g with g | g | g <;> rw [g] <;> exact this
    · rintro ⟨st, g⟩
      rw [g]
      simp only [State.leaveSetup, State.onNode, tableModify, List.map_map, State.post]
      congr 2
      funext n
      simp only [Function.comp]
      split <;> simp_all [State.after, later]
    · rw [g]
      refine (show State.enterIdentify _ _ = _ from (State.enterIdentify_eq _ _ (by exact hm)).1 (by exact hq)).trans ?_
      simp only [State.onNode, tableModify, List.map_map, State.post]
      congr 2
      funext n
      simp only [Function.comp]
      split <;> simp_all
    · rw [g]
      refine (show State.enterIdentify _ _ = _ from (State.enterIdentify_eq _ _ (by exact hm)).2 (by exact hq)).trans ?_
      simp only [State.onNode, tableModify, List.map_map, State.post]
      congr 2
      funext n
      simp only [Function.comp]
      split <;> simp_all

/-- An enrolment at a step asks for its transaction as `State.EnrolAsked` says (R41, R42). -/
theorem State.enrolAsk_asked (s : State) (e : Enrolment) (hp : e.phase ≠ .deferred) :
    s.EnrolAsked (State.enrolAsk { s with enrolment := some e }) e := by
  refine ⟨fun ⟨g1, g2⟩ x h1 h2 h3 => ?_, fun g1 g2 => ?_, fun g => ?_⟩
  · have g2 : ¬ 16 ≤ s.bus.queue.length := by omega
    cases hph : e.phase with
    | search => simp [h1 hph, State.enrolAsk, State.queueEnrolment, hph, State.queueTx, g1, g2, State.modeTakes, TxKind.merges,
        State.onEnrolment, State.onBus, State.txClass]
    | assign => simp [h2 hph, State.enrolAsk, State.queueEnrolment, hph, State.queueTx, g1, g2, State.modeTakes, TxKind.merges,
        State.onEnrolment, State.onBus, State.txClass]
    | confirm => simp [h3 hph, State.enrolAsk, State.queueEnrolment, hph, State.queueTx, g1, g2, State.modeTakes, TxKind.merges,
        State.onEnrolment, State.onBus, State.txClass]
    | deferred => exact absurd hph hp
  · cases hph : e.phase <;> first
      | exact absurd hph hp
      | simp [State.enrolAsk, State.queueEnrolment, hph, State.queueTx, g1, g2, State.modeTakes, TxKind.merges, State.onEnrolment,
          State.after, later]
  · have : State.enrolAsk { s with enrolment := some e }
        = State.enrolFail { s with enrolment := some e } e (if e.phase = .search then .busFault else .noConfirm) := by
      cases hph : e.phase <;> first
        | exact absurd hph hp
        | simp [State.enrolAsk, State.queueEnrolment, hph, State.queueTx, g]
    rw [this]
    have h := State.enrolFail_failed { s with enrolment := some e } e (if e.phase = .search then .busFault else .noConfirm)
    by_cases hph : e.phase = .search <;> simp only [hph, if_true, if_false] at h ⊢ <;> exact h

/-- An enrolment updates the table as `State.Enrolled` says (R42, R160). -/
theorem State.enrolCommit_enrolled (s : State) (e : Enrolment) : s.Enrolled (s.enrolCommit e) e := by
  rintro link asked rfl rfl
  refine ⟨fun r hr upd hupd => ?_, fun hr new outputs hnew hout => ?_⟩
  · have e0 : State.enrolRecord { s with enrolment := none } e
        = ({ s with enrolment := none } : State).onNode e.addr fun r =>
            { r with serial := e.serial, firmware := e.firmware, enrolHold := false } := by
      simp only [State.enrolRecord, show ({ s with enrolment := none } : State).node e.addr = some r from hr]
    have e1 : s.enrolCommit e = State.post (if s.mode = .config then State.enrolRecord { s with enrolment := none } e
        else (State.enrolRecord { s with enrolment := none } e).enterIdentify e.addr) .enrolDone e.addr
          (leBytes 1 e.type.code ++ leBytes 4 e.serial.toNat) := by
      unfold State.enrolCommit; rw [e0]; rfl
    have hw := State.enterIdentify_eq (State.enrolRecord { s with enrolment := none } e) e.addr
    rw [e0] at hw
    rw [e1, e0]
    refine ⟨fun h => ?_, fun hm hq => ?_, fun hm hq => ?_⟩
    · rw [if_pos h, hupd]; rfl
    · rw [if_neg hm, (hw hm).1 hq, hupd]
      simp only [State.onNode, tableModify, List.map_map, State.post]
      congr 2; funext n; simp only [Function.comp]; split <;> simp_all
    · rw [if_neg hm, (hw hm).2 hq, hupd]
      simp only [State.onNode, tableModify, List.map_map, State.post]
      congr 2; funext n; simp only [Function.comp]; split <;> simp_all
  · have hout' : outputs = e.type.hasOutputs := by
      rw [hout]; cases e.type <;> rfl
    have e0 : State.enrolRecord { s with enrolment := none } e
        = { s with enrolment := none
                   nodes := tablePut (·.addr) { new with adoptionPending := decide (s.mode ≠ .config) && outputs } s.nodes
                   stations := if e.type = .station then tablePut (·.addr) { addr := e.addr } s.stations else s.stations } := by
      simp only [State.enrolRecord, show ({ s with enrolment := none } : State).node e.addr = none from hr, hnew, hout']
      split <;> rfl
    obtain ⟨put, hput⟩ : ∃ put : NodeRecord, put = { new with adoptionPending := decide (s.mode ≠ .config) && outputs } := ⟨_, rfl⟩
    have hpa : put.addr = e.addr := by rw [hput, hnew]
    rw [← hput] at e0
    have hself : tableGet (·.addr) e.addr (tablePut (·.addr) put s.nodes) = some put := by
      rw [← hpa]; exact tableGet_tablePut_self _ _ _
    have hother : ∀ b, b ≠ e.addr → tableGet (·.addr) b (tablePut (·.addr) put s.nodes) = tableGet (·.addr) b s.nodes :=
      fun b hb => tableGet_tablePut_other _ (by rw [hpa]; exact hb)
    have hst : (e.type = .station → tableGet (·.addr) e.addr (if e.type = .station then
          tablePut (·.addr) ({ addr := e.addr } : Station) s.stations else s.stations) = some { addr := e.addr }
        ∧ ∀ b, b ≠ e.addr → tableGet (·.addr) b (if e.type = .station then
          tablePut (·.addr) ({ addr := e.addr } : Station) s.stations else s.stations) = tableGet (·.addr) b s.stations)
        ∧ (e.type ≠ .station → (if e.type = .station then
          tablePut (·.addr) ({ addr := e.addr } : Station) s.stations else s.stations) = s.stations) := by
      refine ⟨fun h => ?_, fun h => if_neg h⟩
      rw [if_pos h]
      exact ⟨tableGet_tablePut_self (·.addr) ({ addr := e.addr } : Station) s.stations, fun b hb => tableGet_tablePut_other _ hb⟩
    by_cases hm : s.mode = .config
    · have e1 : s.enrolCommit e = State.post (State.enrolRecord { s with enrolment := none } e) .enrolDone e.addr
          (leBytes 1 e.type.code ++ leBytes 4 e.serial.toNat) := by
        unfold State.enrolCommit; rw [e0]; dsimp only; rw [if_pos hm]
      rw [e1, e0]
      exact ⟨rfl, rfl, hother, hst.1, hst.2, rfl, fun _ => ⟨hself.trans (by simp [hput, hm, hnew]), rfl⟩, fun g => absurd hm g,
        fun g => absurd hm g⟩
    · have e1 : s.enrolCommit e = State.post ((State.enrolRecord { s with enrolment := none } e).enterIdentify e.addr) .enrolDone e.addr
          (leBytes 1 e.type.code ++ leBytes 4 e.serial.toNat) := by
        unfold State.enrolCommit; rw [e0]; dsimp only; rw [if_neg hm]
      have hmod : ∀ f : NodeRecord → NodeRecord, (∀ n, (f n).addr = n.addr) →
          tableGet (·.addr) e.addr (tableModify (·.addr) e.addr f (tablePut (·.addr) put s.nodes)) = some (f put)
          ∧ ∀ b, b ≠ e.addr → tableGet (·.addr) b (tableModify (·.addr) e.addr f (tablePut (·.addr) put s.nodes))
            = tableGet (·.addr) b s.nodes :=
        fun f hf => ⟨by rw [tableGet_tableModify_self _ hf, hself]; rfl,
          fun b hb => by rw [tableGet_tableModify_other _ hf hb, hother b hb]⟩
      have hw := State.enterIdentify_eq (State.enrolRecord { s with enrolment := none } e) e.addr
      rw [e0] at hw
      by_cases hq : s.QueueRoom
      · obtain ⟨h1, h2⟩ := hmod (fun n => { n with state := .identify, retryTimer := none, pollTimer := none }) (fun _ => rfl)
        rw [e1, e0, (hw hm).1 hq]
        exact ⟨rfl, rfl, h2, hst.1, hst.2, rfl, fun g => absurd g hm, fun _ _ => ⟨h1.trans (by simp [hput, hm, hnew]), rfl⟩,
          fun _ g => absurd hq g⟩
      · obtain ⟨h1, h2⟩ := hmod (fun n => { n with state := .identify, retryTimer := some (s.uptime + 1000), pollTimer := none })
          (fun _ => rfl)
        rw [e1, e0, (hw hm).2 hq]
        exact ⟨rfl, rfl, h2, hst.1, hst.2, rfl, fun g => absurd g hm, fun _ g => absurd g hq,
          fun _ _ => ⟨h1.trans (by simp [hput, hm, hnew]), rfl⟩⟩

end Sys2Proof.Machine
end

