-- ==== Sys2Proof/Tests/Slice0.lean ====
section
/-!
SUPPORT. The model's own tests: the checks of well-formedness, the manual's reference values and worked figures, and, for every
statement with hypotheses, operands and states that meet them.
-/

namespace Sys2Proof.Tests

open Sys2Proof Sys2Proof.Machine

set_option Elab.async false

/-- The state a command leaves; the blank state where it stops. -/
def done (o : Outcome) : State := match o with | .next s => s | _ => {}

/-! ## Well-formedness: each check refuses an ill-formed term -/

theorem test_wf_one_byte_field : (Instr.readNotices 0 256).wf = false ∧ (Instr.readNotices 0 255).wf = true := by decide +kernel
theorem test_wf_two_byte_field : (Instr.setSupervision 0 65536).wf = false ∧ (Instr.setSupervision 0 65535).wf = true := by decide +kernel
theorem test_wf_four_byte_field : (Instr.setRode 0 4294967296).wf = false ∧ (Instr.setRode 0 4294967295).wf = true := by decide +kernel
theorem test_wf_signed_two_bytes :
    (Instr.setSense 0 1 (-32769) 0 0 0 0).wf = false ∧ (Instr.setSense 0 1 0 32768 0 0 0).wf = false
      ∧ (Instr.setSense 0 1 (-32768) 32767 0 0 0).wf = true := by decide +kernel
theorem test_wf_signed_four_bytes :
    (Instr.payOutTo 0 2147483648).wf = false ∧ (Instr.heaveTo 0 (-2147483649)).wf = false
      ∧ (Instr.heaveTo 0 (-2147483648)).wf = true := by decide +kernel
theorem test_wf_fields_of_a_table :
    (Instr.saveSettings 0 256).wf = false ∧ (Instr.setRoomline 0 50 256 0).wf = false ∧ (Instr.enrolNode 0 256 1).wf = false
      ∧ (Instr.declareNode 0 1 256 0).wf = false ∧ (Instr.removeNode 0 256).wf = false ∧ (Instr.readNode 0 256).wf = false
      ∧ (Instr.defineChannel 0 1 1 1 1 65536 0 0 0).wf = false ∧ (Instr.removeChannel 0 256).wf = false
      ∧ (Instr.setLevel 0 1 65536 0).wf = false ∧ (Instr.setLevel 0 1 0 4294967296).wf = false
      ∧ (Instr.readChannel 0 0 256).wf = false ∧ (Instr.removeScene 0 256).wf = false ∧ (Instr.readScene 0 256 0).wf = false
      ∧ (Instr.takeScene 0 256).wf = false ∧ (Instr.clearBinding 0 256).wf = false ∧ (Instr.readBinding 0 0 256).wf = false := by
  decide +kernel
theorem test_wf_fields_of_a_deck :
    (Instr.setSupply 0 4294967296 0 0).wf = false ∧ (Instr.setAllocation 0 65536 0).wf = false ∧ (Instr.readSense 0 256).wf = false
      ∧ (Instr.setHpu 0 { readyLimit := 65536 }).wf = false ∧ (Instr.setMover 0 1 0 0 0 4294967296).wf = false
      ∧ (Instr.setMover 0 1 0 32768 0 1000).wf = false ∧ (Instr.move 0 1 256).wf = false ∧ (Instr.clearFault 0 256).wf = false
      ∧ (Instr.stopMotion 0 256).wf = false ∧ (Instr.readDeck 0 256).wf = false
      ∧ (Instr.setWindlass 0 { slipTol := 256 }).wf = false ∧ (Instr.readStation 0 256).wf = false := by decide +kernel
theorem test_wf_lengths :
    (Instr.keyReport (.replicate 21 0)).wf = false ∧ (Instr.transactionEnd ⟨true, true, true, .replicate 19 0⟩).wf = false
      ∧ (Instr.defineScene 0 (.replicate 249 0)).wf = false ∧ (Instr.scenePart 0 (.replicate 249 0)).wf = false
      ∧ (Instr.setBinding 0 1 1 [0, 0] 1 (.replicate 7 0)).wf = false ∧ (Instr.setBinding 0 1 1 [0, 0, 0] 1 (.replicate 6 0)).wf = false
      ∧ (Instr.setStationMap 0 1 [0, 0, 0, 0, 0]).wf = false ∧ (Instr.setStationMap 0 1 [0, 0, 0, 0, 0, 256]).wf = false := by decide +kernel
theorem test_wf_addresses :
    (Instr.nodeRetryExpiry 0).wf = false ∧ (Instr.nodeRetryExpiry 120).wf = false ∧ (Instr.pollExpiry 0).wf = false
      ∧ (Instr.pollExpiry 119).wf = true := by decide +kernel
theorem test_wf_stuck_line : (Instr.stuckLineTimeout false false).wf = false ∧ (Instr.stuckLineTimeout true false).wf = true := by
  decide +kernel

/-! ## The manual's reference values (R4, R171, R190) -/

theorem test_crc8_reference : crc8 [0x00, 0x08] = 0xEF := by decide +kernel
theorem test_crc16_reference : crc16 [0x31, 0x32, 0x33, 0x34, 0x35, 0x36, 0x37, 0x38, 0x39] = 0x29B1 := by decide +kernel
theorem test_crc32_reference : crc32 [0x31, 0x32, 0x33, 0x34, 0x35, 0x36, 0x37, 0x38, 0x39] = 0xCBF43926 := by decide +kernel

/-! ## The manual's worked figures -/

/-- Section 6.6. -/
theorem test_scaling :
    SenseSettings.scale { low := 0, high := 3000 } 3140 = 2300 ∧ SenseSettings.scale { low := 0, high := 800 } 1602 = 313
      ∧ SenseSettings.scale { low := 0, high := 2500 } 2048 = 1250 ∧ SenseSettings.scale { low := -200, high := 1200 } 3000 = 826
      ∧ SenseSettings.scale { low := 1000, high := -300 } 1000 = 683 := by decide +kernel

/-- Section 6.7: the windows of the third and the tenth sample, and the supply power of section 6.6. -/
theorem test_supply_average :
    Sense.average { window := [7199, 7215, 7240] } = 7218
      ∧ (let w := pushSample (pushSample [7199, 7215, 7240, 7180, 7206, 7199, 7230, 7222] 11900) 12050
         w.length = 8 ∧ Sense.average { window := w } = 8403)
      ∧ State.supplyPower
          { sense := { inputs := ((Vector.replicate 8 {}).set 0 { scaled := 2300 }).set 1 { scaled := 313 } } } = 7199 := by decide +kernel

/-- Sections 3.4 and 3.8: the steps of two fades, and the estimate at a ceiling of 100 for a rating of 400. -/
theorem test_fades :
    Fade.levelAt ⟨200, 850, 1, 8⟩ 1 = 281 ∧ Fade.levelAt ⟨200, 850, 1, 8⟩ 2 = 363 ∧ Fade.levelAt ⟨200, 850, 1, 8⟩ 3 = 444
      ∧ Fade.levelAt ⟨850, 200, 1, 8⟩ 2 = 687 ∧ fadeSteps 150 = 8
      ∧ Channel.estimateAt { cfg := ⟨1, 5, 1, .dim, 400, 3, 100, 1000⟩ } 100 = 40 := by decide +kernel

/-- The table of section 8.2, and the readouts that follow it. -/
theorem test_rode_conversions :
    Windlass.toCounts {} 110000 = 4714 ∧ Windlass.toCounts {} 3000 = 129 ∧ Windlass.toCounts {} 100 = 4
      ∧ Windlass.toCounts {} 60000 = 2571 ∧ Windlass.rode { count := 1800 } = 42000 ∧ Windlass.rode { count := 2569 } = 59943
      ∧ Windlass.rode { count := 2571 } = 59990 := by decide +kernel

/-- Section 8.2: index edges at a difference of 48 and 49 pass, and of 54 fail. -/
theorem test_index_check :
    Windlass.indexPasses {} (1879 - 1831) = true ∧ Windlass.indexPasses {} (1975 - 1926) = true
      ∧ Windlass.indexPasses {} (1980 - 1926) = false := by decide +kernel

/-- The part of section 5.9 before 60,130: the channels of classes 6 and 7, and the others' 2,920 W as one SWITCH. -/
def worked : State :=
  { mode := .run, uptime := 60130
    channels := [{ cfg := ⟨1, 1, 1, .switch, 2920, 0, 0, 1000⟩, current := 1000 }, { cfg := ⟨12, 2, 1, .dim, 800, 7, 0, 1000⟩, current := 1000 },
                 { cfg := ⟨13, 2, 2, .dim, 600, 7, 200, 1000⟩, current := 750 }, { cfg := ⟨20, 3, 1, .dim, 1200, 6, 300, 1000⟩, current := 800 }]
    alloc := { limit := 17000, base := 2400, hysteresis := 500 }
    sense := { window := [7199] } }

/-- Section 5.9 at 60,130: the draw, the walk and the shed that the windlass's start admission makes. -/
theorem test_start_admission :
    worked.committed = 7530 ∧ worked.headroom = 9470 ∧ worked.sheddable 7 = 1130 ∧ worked.sheddable 6 = 600
      ∧ (worked.startAdmission .windlass 6000 5000 2000).2 = true
      ∧ (worked.startAdmission .windlass 6000 5000 2000).1.alloc.windlassGrant = some ⟨6000, 5000, 60130, some 62130⟩
      ∧ (worked.startAdmission .windlass 6000 5000 2000).1.alloc.lastAdmission
        = some ⟨.windlassStart, 11000, 9470, some 1530, .grantedAfterShed, some 6, 60130⟩
      ∧ ((worked.startAdmission .windlass 6000 5000 2000).1.channels.map (·.ceiling)) = [1000, 0, 200, 300]
      ∧ (worked.startAdmission .windlass 6000 5000 2000).1.headroom = 200 := by decide +kernel

/-- Section 5.9 at 62,130: the inrush expiry's review makes class 6 RESTORING, and C counts it in full. -/
theorem test_inrush_expiry_review :
    (let t := done (execInrushExpiry .windlass (worked.startAdmission .windlass 6000 5000 2000).1)
     t.uptime = 62130 ∧ t.classState 6 = .restoring ∧ t.classState 7 = .shed ∧ t.committed = 12400 ∧ t.headroom = 4600) := by decide +kernel

/-! ## Resets, frames and the queue of commands -/

/-- A power reset with no valid image leaves the reset state. -/
theorem test_reset_is_a_power_reset : exec (.hardReset .power false false) {} = .next State.reset := by rfl

/-- The frame of a STATUS request with tag 7: the request is served from the queue, and its reply is sent. -/
theorem test_status_frame :
    (let s := done (exec (.requestFrame (frameBytes 0x01 7 [])) State.reset)
     s.link.handed = some (.status 7)
       ∧ (done (step s)).link.sending
         = some ⟨0x81, 7, .ok, .status .config .power 1 0 .invalid 0, true⟩) := by decide +kernel

/-- A request of another length is answered BAD_LENGTH, and one of no kind UNKNOWN_KIND. -/
theorem test_bad_frames :
    (done (exec (.requestFrame (frameBytes 0x01 7 [0])) State.reset)).link.sending = some ⟨0x81, 7, .badLength, .none, true⟩
      ∧ ((done (step (done (exec (.requestFrame (frameBytes 0x06 9 [])) State.reset)))).link.sending.map fun r => (r.kind, r.status))
        = some (0x86, .unknownKind) := by decide +kernel

/-- The command at the front of the queue is taken first. -/
theorem test_queue_order :
    (done (step { State.reset with pending := [.otherOpen 0x05, .otherClose] })).pending = [.otherClose]
      ∧ (done (step { State.reset with pending := [.otherOpen 0x05, .otherClose] })).bus.state = .other := by decide +kernel

/-- The host's table words spell no command: the table gives no bits. -/
theorem test_no_table_words : decodeTableWord 0 0 = none ∧ State.reset.withFetchWord 8 1 = State.reset := by decide +kernel

/-! ## The statements' hypotheses are met: the queue, the replies and the resets -/

theorem test_meets_StepRunsFrontCommand :
    ({ pending := [.status 1, .otherClose] } : State).pending = .status 1 :: [.otherClose]
      ∧ (({ link := { handed := some (.status 1) } } : State).pending = []
        ∧ ({ link := { handed := some (.status 1) } } : State).link.handed = some (.status 1))
      ∧ (State.reset.pending = [] ∧ State.reset.link.handed = none) := by decide +kernel

theorem test_meets_EveryCommandCompletes :
    exec (.otherOpen 5) {} = .next (({} : State).onBus fun b => { b with state := .other, otherHead := some 5, openedAt := 0 }) := by
  rfl

theorem test_meets_RequestsAnsweredOnce :
    requestKey (.start 9) = some (0x08, 9) ∧ requestKey (.unknownKind 9 0x06) = some (0x06, 9)
      ∧ (done (exec (.start 9) { mode := .run })).link.sending = some ⟨0x88, 9, .wrongMode, .none, false⟩ := by decide +kernel

/-- A store with a valid image, one whose image does not give the CRC kept with it, and one whose save runs. -/
def stored : Store := ⟨.valid, some {}, crc32 (Config.imageBytes {}), none⟩
def broken : Store := { stored with crc := stored.crc + 1 }
def saving : Store := ⟨.saving, none, 0, some {}⟩

theorem test_meets_ResetWithoutImage :
    ({} : State).store.image = none ∧ ({ store := { saving with image := some {} } } : State).store.state = .saving
      ∧ (∀ m, broken.image = some m → crc32 (Config.imageBytes m) ≠ broken.crc) ∧ ({ store := broken } : State).store.state ≠ .saving
      ∧ ({ store := saving } : State).store.state = .saving ∧ ({ restartDue := true } : Link).restartDue = true := by
  refine ⟨rfl, rfl, fun m h => ?_, by simp [broken, stored], rfl, rfl⟩
  cases h
  show stored.crc ≠ stored.crc + 1
  simp

theorem test_meets_ResetLoadsValidImage :
    ({ store := stored } : State).store.image = some {} ∧ crc32 (Config.imageBytes {}) = ({ store := stored } : State).store.crc
      ∧ ({ store := stored } : State).store.state ≠ .saving
      ∧ ((Instr.hardReset .pin true false, ResetCause.pin) = (.hardReset .pin true false, .pin)
        ∧ (Instr.restartReset true false, ResetCause.restart) = (.restartReset true false, .restart)) :=
  ⟨rfl, rfl, by simp [stored], rfl, rfl⟩

/-- A state at its bounds: four requests, four QUEUE_FULL replies, 32 notices, the counts full, sixteen entries with one in
flight, and eight samples. -/
def full : State :=
  { mode := .run
    link := { requests := .replicate 4 ⟨0x01, 1, [], false⟩, fullReplies := .replicate 4 (0x01, 2)
              notices := .replicate 32 ⟨.nodeBack, 1, [], 0⟩, overflow := 255, gapErrors := 65535, crcErrors := 65535
              framingErrors := 65535 }
    bus := { state := .own, queue := ⟨.c, .identify, 1, none, 0, true, false, false, false⟩
               :: .replicate 15 ⟨.b, .levels, 2, none, 0, false, false, false, false⟩ }
    sense := { window := .replicate 8 100, phase := 4 } }

theorem test_meets_BoundsKept : full.link.Bounded ∧ full.sense.Bounded ∧ full.bus.Bounded
    ∧ step full = .next { full with uptime := 1 } :=
  ⟨⟨by decide, by decide, by decide, by decide, by decide, by decide, by decide⟩, ⟨by decide, by decide⟩,
    ⟨by decide, by decide, fun h => absurd rfl h, fun h => nomatch h⟩, rfl⟩

/-- Class 6 RESTORING below class 7 SHED. -/
def classes6 : Vector ClassState 8 := #v[.normal, .normal, .normal, .normal, .normal, .normal, .restoring, .shed]

theorem test_meets_ClassLawKept : ({ alloc := { classes := classes6 } } : State).ClassLaw
    ∧ step { alloc := { classes := classes6 } } = .next { alloc := { classes := classes6 }, uptime := 1 } := by
  refine ⟨⟨6, by decide, fun j h1 h2 => ?_, by decide, ?_, by decide⟩, rfl⟩
  · obtain rfl : j = 7 := by omega
    decide
  · decide +kernel

/-- The deck at work in RUN: the hatch opens with the pump READY and the platform waiting, and the windlass heaves at stage 1. -/
def atWork : State :=
  { mode := .run, uptime := 1000
    alloc := { limit := 20000, hpuGrant := some ⟨7500, 0, 0, none⟩, windlassGrant := some ⟨6000, 0, 0, none⟩, reviewTimer := some 1200 }
    hpu := { state := .ready, contactor := true, holder := some .hatch, waiting := some .platform }
    hatch := { state := .moving, raise := true, travelTimer := some 61000, settings := hatchDefaults
               motion := some ⟨.target, .opening, .opened, false, .closed, some 0⟩ }
    platform := { state := .waitPump, position := .atDeck, settings := platformDefaults
                  motion := some ⟨.jog, .down, .submerged, false, .atDeck, none⟩ }
    windlass := { state := .running, run := some { kind := .seek, dir := .heave, target := 100 }, heave := true, brakeRelease := true
                  jamTimer := some 2500, count := 2000, rodeValid := true }
    hatchOwner := { owner := .host, dir := some .opening, target := some (.position .opened), acquired := some 0 }
    platformOwner := { owner := .station 5, dir := some .down, acquired := some 0, key := some 4, confirm := some 1100 }
    windlassOwner := { owner := .host, dir := some .inward, target := some (.rode 0), acquired := some 0 } }

theorem test_meets_DeckLawKept : atWork.DeckLaw ∧ step atWork = .next { atWork with uptime := 1001 } :=
  ⟨{ contactor := by decide +kernel
     granted := by decide +kernel
     unheld := by decide +kernel
     runOn := by decide +kernel
     holder := by intro m; cases m <;> decide +kernel
     waiter := by intro m; cases m <;> decide +kernel
     moving := by intro m; cases m <;> decide +kernel
     valves := by intro m; cases m <;> exact ⟨by decide +kernel, by decide +kernel⟩
     timers := by intro m; cases m <;> decide +kernel
     unowned := by intro m; cases m <;> decide +kernel
     config := by intro h; cases h }, rfl⟩

theorem test_meets_WindlassLawKept : atWork.WindlassLaw ∧ step atWork = .next { atWork with uptime := 1001 } :=
  ⟨{ oneWay := by decide +kernel
     behind := by decide +kernel
     closed := by decide +kernel
     granted := by decide +kernel
     timers := by decide +kernel
     unowned := by decide +kernel
     config := by intro h; cases h }, rfl⟩

/-- A lit part in RUN: two nodes and a station, five channels at the numbers' ends and between, two scenes, three bindings. -/
def lit : State :=
  { mode := .run
    nodes := [{ addr := 1, type := .dimmer4, serial := 11, state := .active }, { addr := 2, type := .switch8, serial := 12, state := .active },
              { addr := 3, type := .blind2, serial := 13 }, { addr := 4, type := .keypad, serial := 14, state := .active },
              { addr := 5, type := .station, serial := 15, state := .active }]
    channels := [{ cfg := ⟨1, 1, 1, .dim, 100, 1, 0, 1000⟩ }, { cfg := ⟨2, 1, 2, .dim, 100, 6, 200, 500⟩, current := 500, target := 500 },
                 { cfg := ⟨3, 2, 1, .switch, 200, 7, 0, 1000⟩ }, { cfg := ⟨96, 3, 1, .blind, 300, 0, 0, 1000⟩ }]
    refresh := some 20
    scenes := [⟨1, 400, [⟨1, 700⟩, ⟨3, 600⟩]⟩, ⟨64, 0, [⟨3, 0⟩]⟩]
    bindings := [⟨1, .key 4 1 .press, .takeScene 64, 65535⟩, ⟨2, .deck .anchorHome, .toggleChannel 2, 0⟩,
                 ⟨64, .sense 7 .aboveHigh, .setChannel 3 1000 0, 0⟩]
    alloc := { limit := 20000, classes := classes6, reviewTimer := some 500 }
    stations := [{ addr := 5, map := #v[.hatchOpen, .none, .none, .platformDown, .anchorOut, .anchorIn] }] }

theorem lit_ordered : lit.Ordered :=
  ⟨by unfold Rising; decide +kernel, by unfold Rising; decide +kernel, by unfold Rising; decide +kernel,
    by unfold Rising; decide +kernel, by unfold Rising; decide +kernel, fun m h => absurd h (by simp [lit]),
    fun m h => absurd h (by simp [lit])⟩

theorem test_meets_TablesStayOrdered : lit.Ordered ∧ step lit = .next { lit with uptime := 1 } := ⟨lit_ordered, rfl⟩

/-! ## The link port -/

theorem test_meets_GoodFrameReceived :
    (List.replicate 248 (0 : Byte)).length ≤ 248 ∧ ([] : List Byte).length ≤ 248 ∧ State.reset.link.rx = {} := by decide +kernel

theorem test_meets_BrokenFramesCounted :
    State.reset.link.rx = {}
      ∧ leBytes 2 (crc16 [2, 0x01, 7]).toNat ≠ [0, 0]
      ∧ ((0 : Byte).toNat < 2 ∧ (1 : Byte).toNat < 2 ∧ 250 < (251 : Byte).toNat ∧ 250 < (255 : Byte).toNat) ∧ (0xA4 : Byte) ≠ 0xA5
      ∧ (({ link := { rx := ⟨.length, []⟩ } } : State).link.rx.phase ≠ .hunt) ∧ State.reset.link.rx.phase = .hunt := by decide +kernel

theorem test_meets_GoodFrameQueued :
    (let l : Link := { sending := some ⟨0x81, 1, .ok, .none, true⟩, requests := .replicate 3 ⟨0x01, 1, [], false⟩ }
     l.sending.isSome = true ∧ l.requests.length < 4)
      ∧ (let l : Link := { sending := some ⟨0x81, 1, .ok, .none, true⟩, requests := .replicate 4 ⟨0x01, 1, [], false⟩
                           fullReplies := .replicate 3 (0x01, 1) }
         l.sending.isSome = true ∧ 4 ≤ l.requests.length ∧ l.fullReplies.length < 4)
      ∧ (4 ≤ full.link.requests.length ∧ 4 ≤ full.link.fullReplies.length)
      ∧ (let l : Link := {}
         l.sending = none ∧ l.restartDue = false ∧ l.handed = none ∧ l.fullReplies = [] ∧ l.replies = [] ∧ l.requests = [])
      ∧ parseRequest 0x01 7 [] = .command (.status 7) ∧ parseRequest 0x01 7 [0] = .badLength := by decide +kernel

theorem test_meets_ReplyPathOrder :
    State.reset.link.sending = none
      ∧ (let r : Reply := ⟨0x85, 1, .ok, .none, true⟩
         ({ link := { sending := some r } } : State).link.sending = some r ∧ r.kind = 0x85 ∧ r.status = .ok)
      ∧ (let r : Reply := ⟨0x85, 1, .busy, .none, true⟩
         let s : State := { link := { sending := some r, fullReplies := [(0x01, 2)] } }
         s.link.sending = some r ∧ s.link.restartDue = false ∧ (r.status ≠ .ok ∨ r.kind ≠ 0x85) ∧ r.status ≠ .queueFull
           ∧ s.link.fullReplies = (0x01, 2) :: [])
      ∧ (let r : Reply := ⟨0x81, 1, .queueFull, .none, false⟩
         let s : State := { link := { sending := some r, fullReplies := [(0x01, 1), (0x01, 2)] } }
         s.link.sending = some r ∧ s.link.restartDue = false ∧ (r.status ≠ .ok ∨ r.kind ≠ 0x85) ∧ r.status = .queueFull
           ∧ s.link.fullReplies.drop 1 = (0x01, 2) :: [])
      ∧ (let r : Reply := ⟨0x81, 1, .ok, .none, true⟩
         let s : State := { link := { sending := some r, replies := [r] } }
         s.link.sending = some r ∧ s.link.restartDue = false ∧ (r.status ≠ .ok ∨ r.kind ≠ 0x85) ∧ s.link.fullReplies = []
           ∧ s.link.replies = r :: [])
      ∧ (let r : Reply := ⟨0x81, 1, .ok, .none, true⟩
         let s : State := { link := { sending := some r, requests := [⟨0x01, 1, [], true⟩, ⟨0x03, 2, [], false⟩] } }
         s.link.sending = some r ∧ s.link.restartDue = false ∧ (r.status ≠ .ok ∨ r.kind ≠ 0x85) ∧ s.link.fullReplies = []
           ∧ s.link.replies = [] ∧ s.link.handed = none
           ∧ (if r.queued then dropServed s.link.requests else s.link.requests) = ⟨0x03, 2, [], false⟩ :: []
           ∧ parseRequest 0x03 2 [] = .command (.linkStats 2))
      ∧ (let l : Link := { handed := some (.status 1), requests := [⟨0x01, 1, [], false⟩] }
         l.handed = some (.status 1) ∧ requestKey (.status 1) = some (0x01, 1) ∧ l.sending = none ∧ l.restartDue = false
           ∧ l.fullReplies = [] ∧ l.replies = [])
      ∧ (let l : Link := { handed := some (.status 1), sending := some ⟨0x81, 0, .ok, .none, true⟩ }
         l.handed = some (.status 1) ∧ l.sending.isSome = true) := by decide +kernel

/-- The worked sequence of section 10.7: the QUEUE_FULL reply to frame 0x64 waits until it has been sent, and then frame 0x61 is served. With
four waiting, the first of them being sent, a further good frame is discarded (R173). -/
theorem test_full_reply_waits_until_sent :
    (let f (kind tag : Byte) (p : List Byte) (served : Bool) : QueuedFrame := ⟨kind, tag, p, served⟩
     let s : State :=
       { link := { requests := [f 0x32 0x60 [] true, f 0x45 0x61 [0] false, f 0x02 0x62 [8] false, f 0x22 0x63 [] false]
                   fullReplies := [(0x2C, 0x64)], sending := some ⟨0xB2, 0x60, .ok, .none, true⟩ } }
     let t := done (exec .replySent s)
     let u := done (exec .replySent t)
     (t.link.requests.map (·.tag) = [0x61, 0x62, 0x63] ∧ t.link.fullReplies.map (·.2) = [0x64]
         ∧ t.link.sending = some ⟨0xAC, 0x64, .queueFull, .none, false⟩)
       ∧ (u.link.requests.map (·.tag) = [0x61, 0x62, 0x63] ∧ u.link.fullReplies = [] ∧ u.link.sending = none
         ∧ u.link.handed = some (.readDeck 0x61 0)))
      ∧ (let l : Link := { full.link with sending := some ⟨0x81, 2, .queueFull, .none, false⟩ }
         l.takeFrame 0x01 9 [] = l) := by decide +kernel

theorem test_meets_RequestsParsed :
    ((0x06 : Byte).toNat ∉ [0x01, 0x02, 0x03, 0x04, 0x05, 0x08] ∧ parseRequest 0x06 1 [] = .command (.unknownKind 1 0x06)
        ∧ parseRequest 0xFF 1 [] = .command (.unknownKind 1 0xFF) ∧ parseRequest 0x00 1 [] = .command (.unknownKind 1 0x00))
      ∧ ([1, 2] : List Byte).length ≠ 1 ∧ ([1] : List Byte).length = 1
      ∧ ([1] : List Byte).length ≤ 248 ∧ parseRequest 0x02 1 [1] = .command (.readNotices 1 1) := by decide +kernel

/-- Functions that read a field as `RequestsParsed` asks of them. -/
theorem test_meets_RequestsParsed_operands :
    ∃ (u16 : Byte → Byte → Nat) (u32 : Byte → Byte → Byte → Byte → Nat) (i16 : Byte → Byte → Int) (i32 : Byte → Byte → Byte → Byte → Int),
      (∀ a b, u16 a b = a.toNat + 256 * b.toNat)
        ∧ (∀ a b c d, u32 a b c d = a.toNat + 256 * b.toNat + 65536 * c.toNat + 16777216 * d.toNat)
        ∧ (∀ a b, i16 a b = if b.toNat < 128 then (u16 a b : Int) else u16 a b - 65536)
        ∧ (∀ a b c d, i32 a b c d = if d.toNat < 128 then (u32 a b c d : Int) else u32 a b c d - 4294967296) :=
  ⟨_, _, _, _, fun _ _ => rfl, fun _ _ _ _ => rfl, fun _ _ => rfl, fun _ _ _ _ => rfl⟩

/-- Payloads laid out by the table of R184: SET_LEVEL (1, 850, 150), HEAVE_TO −1 mm, the limits of SET_SENSE, and MOVE (PLATFORM, SUBMERGED). -/
theorem test_request_operands :
    parseRequest 0x22 7 [1, 0x52, 0x03, 0x96, 0, 0, 0] = .command (.setLevel 7 1 850 150)
      ∧ parseRequest 0x4A 7 [0xFF, 0xFF, 0xFF, 0xFF] = .command (.heaveTo 7 (-1))
      ∧ parseRequest 0x38 7 [4, 0, 0, 0xFF, 0x0F, 0x00, 0x80, 0xFF, 0x7F, 10, 0] = .command (.setSense 7 4 0 4095 (-32768) 32767 10)
      ∧ parseRequest 0x42 7 [2, 5] = .command (.move 7 2 5) := by decide +kernel

theorem test_meets_StatusReply : ([] : List Byte) = [] ∧ ([0] : List Byte) ≠ [] := by decide +kernel

theorem test_meets_ReadNoticesTakesOldest :
    ([8] : List Byte) = [8] ∧ ([] : List Byte).length ≠ 1
      ∧ ([(0, 8), (1, 1), (8, 8), (9, 8), (255, 8)] : List (Nat × Nat)).all (fun p =>
          decide ((p.1 = 0 ∨ 8 < p.1 → p.2 = 8) ∧ (1 ≤ p.1 → p.1 ≤ 8 → p.2 = p.1))) = true
      ∧ (List.replicate 8 (⟨.slip, 3, .replicate 6 0, 0⟩ : Notice)).length = 8
      ∧ (∀ x ∈ List.replicate 8 (⟨.slip, 3, .replicate 6 0, 0⟩ : Notice), x.data.length = 6) := by decide +kernel

theorem test_meets_LinkStatsClearsCounts :
    ([] : List Byte) = [] ∧ ([0] : List Byte) ≠ [] ∧ State.reset.link.rx = {}
      ∧ exec (.requestFrame (frameBytes 0x03 1 [])) State.reset
        = .next (done (exec (.requestFrame (frameBytes 0x03 1 [])) State.reset)) := ⟨rfl, by decide, rfl, rfl⟩

theorem test_meets_SetSupervisionPeriod :
    ([200, 0] : List Byte) = [200, 0] ∧ ([200] : List Byte).length ≠ 2
      ∧ ([(0, 0), (1, 200), (199, 200), (200, 200), (10000, 10000), (10001, 10000), (65535, 10000)] : List (Nat × Nat)).all (fun p =>
          decide ((p.1 = 0 → p.2 = 0) ∧ (1 ≤ p.1 → p.1 ≤ 199 → p.2 = 200) ∧ (200 ≤ p.1 → p.1 ≤ 10000 → p.2 = p.1)
            ∧ (10000 < p.1 → p.2 = 10000))) = true := by decide +kernel
theorem test_meets_SetSupervisionPeriod_next :
    exec (.loadSettings 1) {} = .next (done (exec (.loadSettings 1) {}))
      ∧ exec (.hardReset .pin true false) {} = .next (done (exec (.hardReset .pin true false) {}))
      ∧ exec (.restartReset true true) {} = .next (done (exec (.restartReset true true) {})) := ⟨rfl, rfl, rfl⟩

/-- The deck at work, with the supervision timer running. -/
def supervised : State := { atWork with link := { period := 1000, supervision := some 2000 } }

theorem test_meets_HostLossStopsHostMotions :
    supervised.link.supervision = some 2000 ∧ supervised.link.notices.length < 32
      ∧ ((supervised.ownerOf (moverResource .hatch)).owner = .host ∧ (supervised.ownerOf (moverResource .hatch)).stopDelivered = false
        ∧ (supervised.mover .hatch).state = .moving)
      ∧ (supervised.windlassOwner.owner = .host ∧ supervised.windlassOwner.stopDelivered = false
        ∧ supervised.windlass.underWay = true)
      ∧ supervised.mode = .run ∧ (supervised.ownerOf .platform).owner ≠ .host
      ∧ (let s : State := { supervised with platformOwner := { owner := .host } }
         (s.ownerOf (moverResource .platform)).owner = .host ∧ (s.ownerOf (moverResource .platform)).stopDelivered = false
           ∧ (s.mover .platform).state = .waitPump ∧ s.link.notices.length < 20) := by decide +kernel

/-- The host is lost with its platform waiting for the pump: it returns to rest at once, with MOTION_STOPPED, cause 6 (R133, R167). -/
theorem test_host_loss_returns_a_waiter :
    (let t := done (exec .supervisionExpiry { supervised with platformOwner := { owner := .host } })
     t.platform.state = .atRest ∧ t.platform.motion = none ∧ t.platformOwner = {} ∧ t.hpu.waiting = none
       ∧ (⟨.motionStopped, 2, [6, 4, 0, 0], 2000⟩ : Notice) ∈ t.link.notices) := by decide +kernel

/-! ## Modes, start, stop and the store -/

theorem test_meets_ModesAndSavesRefuse :
    (requestKey (.setAllocation 3 0 0) = some (0x31, 3) ∧ configEdits (.setAllocation 3 0 0) = true ∧ atWork.mode ≠ .config)
      ∧ requestKey (.start 3) = some (0x08, 3)
      ∧ (requestKey (.setLevel 3 1 0 0) = some (0x22, 3) ∧ runOnly (.setLevel 3 1 0 0) = true ∧ ({} : State).mode ≠ .run)
      ∧ (({ store := saving } : State).store.state = .saving ∧ ({ store := saving } : State).mode = .config)
      ∧ (requestKey (.removeScene 3 1) = some (0x2A, 3) ∧ saveWaits (.removeScene 3 1) = true)
      ∧ requestKey (.saveSettings 3 1) = some (0x0A, 3) := by decide +kernel

/-- A configuration that START accepts: a dimmer with its first and last output in use, a keypad and a station. -/
def ready : State :=
  { nodes := [{ addr := 1, type := .dimmer4, serial := 0 }, { addr := 4, type := .keypad, serial := 0 },
              { addr := 5, type := .station, serial := 0 }]
    channels := [{ cfg := ⟨1, 1, 1, .dim, 100, 1, 0, 1000⟩ }, { cfg := ⟨2, 1, 4, .dim, 100, 1, 0, 1000⟩ }]
    bindings := [⟨1, .key 4 8 .press, .toggleChannel 1, 0⟩, ⟨2, .key 5 6 .press, .toggleChannel 2, 0⟩]
    stations := [{ addr := 5 }], bootTimer := some 30, bootValid := true, autoStart := true }

/-- The same with a third channel, at an output given. -/
def third (node index : Nat) (kind : ChannelKind) : State :=
  { ready with channels := ready.channels ++ [{ cfg := ⟨3, node, index, kind, 100, 1, 0, 1000⟩ }] }

theorem ready_ordered : ready.Ordered :=
  ⟨by unfold Rising; decide +kernel, by unfold Rising; decide +kernel, by unfold Rising; decide +kernel,
    by unfold Rising; decide +kernel, by unfold Rising; decide +kernel, fun m h => absurd h (by simp [ready]),
    fun m h => absurd h (by simp [ready])⟩

theorem test_meets_StartChecks :
    (third 9 1 .dim).channels = ready.channels ++ { cfg := ⟨3, 9, 1, .dim, 100, 1, 0, 1000⟩ } :: []
      ∧ (∀ x ∈ ready.channels, ∃ r ∈ ready.nodes, ready.node x.cfg.node = some r ∧ 1 ≤ x.cfg.index ∧ x.cfg.kind = .dim
          ∧ r.type = .dimmer4 ∧ x.cfg.index ≤ 4)
      ∧ (third 9 1 .dim).node 9 = none
      ∧ ((third 1 0 .dim).node 1).map (·.type) = some .dimmer4 ∧ 0 < 1 ∧ NodeType.dimmer4.outputs < 5
      ∧ (NodeType.outputs .dimmer4 = 4 ∧ ChannelKind.switch.nodeType ≠ .dimmer4) := by decide +kernel
theorem test_start_checks_items :
    ready.startCheck = none ∧ (third 9 1 .dim).startCheck = some (1, 3) ∧ (third 1 0 .dim).startCheck = some (2, 3)
      ∧ (third 1 5 .dim).startCheck = some (2, 3) ∧ (third 1 2 .switch).startCheck = some (3, 3)
      ∧ ({ ready with bindings := [⟨2, .key 5 7 .press, .toggleChannel 2, 0⟩] } : State).startCheck = some (4, 2)
      ∧ ({ ready with alloc := { limit := 10, base := 10, margin := 1 } } : State).startCheck = some (6, 0)
      ∧ ({ ready with windlass := { settings := { slowZone := 50001 } } } : State).startCheck = some (9, 5) := by decide +kernel

/-- A start that fails a later check, at the last record of its table or the last figure. -/
def failing (n : Nat) : State :=
  match n with
  | 4 => { ready with bindings := ready.bindings ++ [⟨64, .key 5 8 .press, .toggleChannel 2, 0⟩] }
  | 5 => { ready with stations := ready.stations ++ [{ addr := 119 }] }
  | 6 => { ready with alloc := { limit := 10, base := 10, margin := 1 } }
  | 7 => { ready with platform := { settings := { platformDefaults with deck := platformDefaults.low } } }
  | 8 => { ready with hatch := { settings := { hatchDefaults with high := hatchDefaults.low } } }
  | _ => { ready with windlass := { settings := { stage2Delay := 60001 } } }

theorem test_meets_StartChecks_items :
    ((failing 4).channels = ready.channels
        ∧ ready.bindings.map (fun b => (b.trigger, b.action)) = [(.key 4 8 .press, .toggleChannel 1), (.key 5 6 .press, .toggleChannel 2)]
        ∧ (ready.channel 1).isSome = true ∧ (ready.channel 2).isSome = true
        ∧ (ready.node 4).map (·.type) = some .keypad ∧ (ready.node 5).map (·.type) = some .station)
      ∧ ((failing 5).station 119 = some { addr := 119 } ∧ (failing 5).node 119 = none)
      ∧ (failing 6).alloc.limit < (failing 6).alloc.base + (failing 6).alloc.margin
      ∧ ((failing 7).platform.settings.deck ≤ (failing 7).platform.settings.low)
      ∧ ((failing 8).platform.settings.low < (failing 8).platform.settings.deck
        ∧ (failing 8).platform.settings.deck < (failing 8).platform.settings.high
        ∧ (failing 8).hatch.settings.high ≤ (failing 8).hatch.settings.low)
      ∧ ¬ (failing 9).windlass.settings.stage2Delay ≤ 60000
      ∧ [4, 5, 6, 7, 8, 9].map (fun n => (failing n).startCheck)
        = [some (4, 64), some (5, 119), some (6, 0), some (7, 0), some (8, 0), some (9, 15)] := by decide +kernel

theorem test_meets_StartEntersRun :
    ready.Ordered ∧ ready.mode = .config ∧ ready.startCheck = none ∧ ready.bootTimer = some 30 ∧ ready.bootValid = true
      ∧ ready.autoStart = true
      ∧ ((third 9 1 .dim).startCheck = some (1, 3) ∧ (third 9 1 .dim).mode = .config ∧ (third 9 1 .dim).bootTimer = some 30
        ∧ (third 9 1 .dim).bootValid = true ∧ (third 9 1 .dim).autoStart = true)
      ∧ (({} : State).bootTimer = some 30 ∧ ({} : State).bootValid = false)
      ∧ ({ ready with bootTimer := none } : State).bootTimer = none :=
  ⟨ready_ordered, by decide +kernel⟩

/-- A start of the part posts MODE_CHANGED and brings the nodes up; a stop at rest posts STOP and DRAINED (R185, R187, R188). -/
theorem test_start_and_stop :
    (let t := done (exec (.start 1) ready)
     t.mode = .run ∧ t.refresh = some 20 ∧ t.nodes.map (·.state) = [.identify, .identify, .identify]
       ∧ t.bus.queue.map (fun e => (e.kind, e.target)) = [(.identify, 1), (.identify, 4), (.identify, 5)]
       ∧ t.link.notices = [⟨.modeChanged, 0, [1, 0, 1], 0⟩]
       ∧ (done (exec (.stop 2) t)).mode = .config
       ∧ (done (exec (.stop 2) t)).link.notices.map (·.data) = [[1, 0, 1], [2, 1, 3], [0, 2, 4]]) := by decide +kernel

/-- START with one place in the queue and node 5 a BLIND2 that an enrolment holds: node 1 asks, node 4 waits 1,000 ms, and adoption pending
is set on both nodes with outputs, the held one too (R26, R28, R57). -/
theorem test_start_sets_adoption :
    (let s : State :=
       { ready with
         nodes := [{ addr := 1, type := .dimmer4, serial := 0 }, { addr := 4, type := .keypad, serial := 0 },
                   { addr := 5, type := .blind2, serial := 0, enrolHold := true }]
         bindings := [], stations := [], bus := { queue := .replicate 15 ⟨.b, .levels, 1, none, 0, false, false, false, false⟩ } }
     let t := done (exec (.start 1) s)
     t.nodes.map (fun r => (r.addr, r.state, r.adoptionPending, r.retryTimer))
         = [(1, .identify, true, none), (4, .identify, false, some 1000), (5, .declared, true, none)]
       ∧ (t.bus.queue.drop 15).map (fun e => (e.kind, e.target)) = [(.identify, 1)]) := by decide +kernel
theorem test_meets_StartedAs :
    (∀ r : NodeRecord, decide (r.state = .declared ∧ r.enrolHold = false) = true ↔ r.state = .declared ∧ r.enrolHold = false)
      ∧ ∀ r : NodeRecord, decide (r.type = .dimmer4 ∨ r.type = .switch8 ∨ r.type = .blind2) = true
        ↔ r.type = .dimmer4 ∨ r.type = .switch8 ∨ r.type = .blind2 := ⟨fun _ => decide_eq_true_iff, fun _ => decide_eq_true_iff⟩

theorem test_meets_StopDrainsThenConfig :
    lit.bus.Bounded ∧ lit.mode = .run ∧ lit.hpu.state = .off ∧ lit.hatch.state = .atRest ∧ lit.platform.state = .atRest
      ∧ lit.windlass.state = .idle ∧ lit.enrolment = none ∧ lit.bus.state ≠ .recovery
      ∧ (({ lit with bus := { state := .recovery } } : State).bus.Bounded
        ∧ ({ lit with bus := { state := .recovery } } : State).bus.state = .recovery) :=
  ⟨⟨by decide, by decide, fun _ e h => absurd h (by simp [lit]), fun _ => rfl⟩, rfl, rfl, rfl, rfl, rfl, rfl, by decide,
    ⟨by decide, by decide, fun _ e h => absurd h (by simp), fun _ => rfl⟩, rfl⟩
theorem test_meets_StopDrainsThenConfig_at_work :
    atWork.mode = .run ∧ atWork.link.notices.length < 32 ∧ (atWork.mover .hatch).state = .moving
      ∧ (atWork.mover .platform).state = .waitPump ∧ atWork.windlass.underWay = true
      ∧ ((({ atWork with hatch := { atWork.hatch with state := .settling, raise := false } } : State).mover .hatch).state = .settling)
      ∧ ({ lit with hpu := { state := .runOn, contactor := true } } : State).hpu.state = .runOn := by decide +kernel

theorem test_meets_ModeChangesOnlySo : exec (.start 1) ready = .next (done (exec (.start 1) ready)) := rfl

theorem test_meets_SaveTakesConfiguration :
    (0 ≤ 1 ∧ 1 ≤ 1 ∧ 1 < 2) ∧ ready.store.state ≠ .saving ∧ ({ store := saving } : State).store.saving = some {}
      ∧ ready.store.saving = none := by decide +kernel

theorem test_meets_LoadReplacesConfiguration :
    (let s : State := { ready with store := stored }
     s.mode = .config ∧ s.store.state ≠ .saving ∧ s.enrolment = none ∧ s.store.state = .valid ∧ s.store.image = some {})
      ∧ (ready.enrolment = none ∧ ready.store.state = .invalid)
      ∧ ({ enrolment := some { addr := 1, type := .keypad } } : State).enrolment.isSome = true
      ∧ (∀ m, ready.store.image = some m → crc32 (Config.imageBytes m) ≠ ready.store.crc) :=
  ⟨⟨rfl, by simp [stored], rfl, rfl, rfl⟩, ⟨rfl, rfl⟩, rfl, fun _ h => nomatch h⟩

/-- DEFAULTS on a rode of another gypsy makes it not valid, and on one of the same leaves it; a tripped monitor is ARMED (R114, R140). -/
theorem test_defaults_and_the_rode :
    (let s (counts : Nat) : State :=
       { windlass := { count := 48, rodeValid := true, fifo := [48], settings := { countsPerRev := counts } }
         sense := { inputs := .replicate 8 { highTripped := true, lowTripped := true } } }
     let t := done (exec (.defaults 1) (s 49))
     let u := done (exec (.defaults 1) (s 48))
     (t.windlass.rodeValid = false ∧ t.windlass.fifo = [] ∧ t.windlass.count = 48 ∧ t.windlass.settings.countsPerRev = 48)
       ∧ (u.windlass.rodeValid = true ∧ u.windlass.fifo = [48])
       ∧ ((t.input 8).highTripped = false ∧ (t.input 1).lowTripped = false)) := by decide +kernel

/-- A save taken leaves the image, and its CRC, that a load brings back after a reset to the defaults. -/
theorem test_save_then_defaults_then_load :
    (done (exec (.saveComplete true) (done (exec (.saveSettings 1 1) ready)))).store
        = ⟨.valid, some ready.configuration, crc32 (Config.imageBytes ready.configuration), none⟩ := rfl
theorem test_defaults_then_load :
    (let t : State := { ready with store := ⟨.valid, some ready.configuration, 0, none⟩ }
     (done (exec (.defaults 2) t)).nodes = []
       ∧ (done (exec (.loadSettings 3) (done (exec (.defaults 2) t)))).configuration = ready.configuration) := by decide +kernel

/-! ## Channels, fades and the tick -/

theorem test_meets_LevelsAndScenesStaged :
    lit.mode = .run ∧ (lit.channel 1).isSome = true ∧ (lit.channel 96).isSome = true ∧ (lit.channel 3).isSome = true
      ∧ lit.channel 95 = none ∧ (0 < 1 ∧ 96 < 97)
      ∧ lit.scene 1 = some ⟨1, 400, [⟨1, 700⟩, ⟨3, 600⟩]⟩ ∧ (lit.scene 64).isSome = true ∧ lit.scene 2 = none ∧ 64 < 65
      ∧ (lit.channels[0]?).isSome = true
      ∧ (∀ e' ∈ [(⟨1, 700⟩ : SceneEntry), ⟨3, 600⟩], e'.channel = 1 → e' = ⟨1, 700⟩) := by decide +kernel
theorem test_set_level_and_take :
    ((done (exec (.setLevel 1 3 499 0) lit)).channel 3).bind (·.staged) = some ⟨0, 0⟩
      ∧ ((done (exec (.setLevel 1 3 500 0) lit)).channel 3).bind (·.staged) = some ⟨1000, 0⟩
      ∧ ((done (exec (.setLevel 1 1 1001 600001) lit)).channel 1).bind (·.staged) = some ⟨1000, 600000⟩
      ∧ ((done (exec (.takeScene 1 1) lit)).channel 1).bind (·.staged) = some ⟨700, 400⟩
      ∧ ((done (exec (.takeScene 1 1) lit)).channel 3).bind (·.staged) = some ⟨1000, 400⟩ := by decide +kernel

theorem test_meets_FadesStepToTarget :
    (0 < (⟨200, 850, 0, 8⟩ : Fade).total ∧ 7 < (⟨200, 850, 0, 8⟩ : Fade).total ∧ (200 : Nat) ≤ 850)
      ∧ (0 < (⟨850, 200, 0, 1⟩ : Fade).total ∧ 0 < (⟨850, 200, 0, 1⟩ : Fade).total ∧ (200 : Nat) ≤ 850)
      ∧ ([(0, 1), (1, 1), (20, 1), (21, 2), (600000, 30000)] : List (Nat × Nat)).all (fun p =>
          decide ((p.1 = 0 → p.2 = 1) ∧ (0 < p.1 → 20 * p.2 < p.1 + 20 ∧ p.1 ≤ 20 * p.2))) = true
      ∧ (let c : Channel := { cfg := ⟨1, 1, 1, .dim, 100, 1, 0, 1000⟩, staged := some ⟨850, 0⟩ }
         c.staged = some ⟨850, 0⟩ ∧ c.cfg.kind = .dim)
      ∧ (let c : Channel := { cfg := ⟨1, 1, 1, .blind, 100, 0, 0, 1000⟩, staged := some ⟨850, 0⟩ }
         c.staged = some ⟨850, 0⟩ ∧ c.cfg.kind ≠ .dim)
      ∧ (let c : Channel := { cfg := ⟨1, 1, 1, .dim, 100, 1, 0, 1000⟩ }
         c.staged = none ∧ c.fade = none)
      ∧ (let f : Fade := ⟨200, 850, 6, 8⟩
         f.step + 1 < f.total ∧ 0 < f.total)
      ∧ (let f : Fade := ⟨200, 850, 7, 8⟩
         f.step + 1 = f.total ∧ 0 < f.total) := by decide +kernel

theorem test_meets_RefreshTickRuns :
    ready.classState 1 ≠ .restoring ∧ (∀ k, ({ ready with refresh := some 20 } : State).classState k ≠ .restoring)
      ∧ (lit.refresh = some 20 ∧ lit.ClassLaw ∧ lit.classState 6 = .restoring)
      ∧ (lit.bus.state ≠ .recovery ∧ lit.mode ≠ .config ∧ lit.bus.queue.length + lit.nodes.length ≤ 16)
      ∧ ready.refresh = none := by
  refine ⟨by decide, fun k => ?_, ⟨rfl, ⟨6, by decide, fun j h1 h2 => ?_, by decide, ?_, by decide⟩, by decide⟩, by decide, rfl⟩
  · simp only [State.classState, ready]
    rw [Vector.getElem?_replicate]
    split <;> simp
  · obtain rfl : j = 7 := by omega
    decide
  · decide +kernel
theorem test_meets_RefreshTickRuns_ceilings :
    (∀ c ∈ ({ lit with channels := [{ cfg := ⟨2, 1, 2, .dim, 100, 6, 200, 500⟩, ceiling := 975 }] } : State).channels,
        c.cfg.cls = 6 → 975 ≤ c.ceiling ∧ c.ceiling ≤ 1000)
      ∧ (∃ c ∈ ({ lit with channels := [{ cfg := ⟨2, 1, 2, .dim, 100, 6, 200, 500⟩, ceiling := 974 }] } : State).channels,
        c.cfg.cls = 6 ∧ c.ceiling < 975) := by decide +kernel

/-- A tick asks for LEVELS of the nodes with an unsent channel, and a restoring class's ceiling rises by 25 (R52, R56, R91). -/
theorem test_refresh_tick :
    (let t := done (exec .refreshTick
       { lit with channels := [{ cfg := ⟨2, 1, 2, .dim, 100, 6, 200, 500⟩, current := 500, target := 500, ceiling := 200 }] })
     t.uptime = 20 ∧ t.refresh = some 40 ∧ (t.channels.map (·.ceiling)) = [225]
       ∧ t.bus.queue.map (fun e => (e.kind, e.target, e.cls)) = [(.levels, 1, .b)]) := by decide +kernel

theorem test_meets_FadesStepToTarget_formula :
    (2 : Nat) ≤ (⟨200, 850, 0, 8⟩ : Fade).total ∧ (0 : Int) ≤ (850 - 200) * (2 : Nat) ∧ ((200 : Int) - 850) * (2 : Nat) ≤ 0 := by decide +kernel

theorem test_meets_ChannelTableEdits_refusals :
    ((0 < 1 ∧ 96 < 97 ∧ 119 < 120 ∧ 3 < 4 ∧ 4 < 5 ∧ 8 < 9 ∧ 2 < 3 ∧ 3000 < 3001 ∧ 7 < 8)
        ∧ (ready.node 4).map (·.type) = some .keypad ∧ NodeType.keypad ≠ .dimmer4)
      ∧ ((∀ r, ready.node 1 = some r → r.type = .dimmer4) ∧ (∃ c ∈ ready.channels, c.cfg.num ≠ 96 ∧ c.cfg.node = 1 ∧ c.cfg.index = 4))
      ∧ ready.channel 96 = none :=
  ⟨by decide +kernel, ⟨fun r h => by cases h; rfl, by decide +kernel⟩, by decide +kernel⟩

/-- DEFINE_CHANNEL refused for a field out of range, a node of another type and an output taken; REMOVE_CHANNEL for its number, and its counts
where a scene holds the channel with another and a second scene holds it alone (R65, R66). -/
theorem test_channel_refusals :
    (let status (i : Instr) := (done (exec i ready)).link.sending.map (·.status)
     [status (.defineChannel 1 97 1 2 1 0 0 0 0), status (.defineChannel 1 96 1 5 1 0 0 0 0), status (.defineChannel 1 96 4 1 1 0 0 0 0),
        status (.defineChannel 1 96 1 4 1 0 0 0 0), status (.removeChannel 1 0), status (.removeChannel 1 96)]
      = [some .badValue, some .badValue, some .badValue, some .inUse, some .badValue, some .notFound])
      ∧ (done (exec (.removeChannel 1 2) { ready with scenes := [⟨1, 0, [⟨1, 5⟩, ⟨2, 5⟩]⟩, ⟨2, 0, [⟨2, 5⟩]⟩] })).link.sending.map (·.data)
        = some (.removed { entries := 2, scenes := 1, bindings := 1 }) := by decide +kernel

theorem test_meets_ChannelTableEdits :
    (ready.mode = .config ∧ ready.store.state ≠ .saving ∧ ready.Ordered)
      ∧ (1 ≤ 96 ∧ 96 ≤ 96 ∧ 1 ≤ 119 ∧ 119 ≤ 119 ∧ 1 ≤ 8 ∧ 8 ≤ 8 ∧ 3000 ≤ 3000 ∧ 7 ≤ 7) ∧ ready.node 119 = none
      ∧ (∀ c ∈ ready.channels, c.cfg.num ≠ 96 → ¬ (c.cfg.node = 119 ∧ c.cfg.index = 8))
      ∧ ((ready.node 1).map (·.type) = some .dimmer4 ∧ ∀ c ∈ ready.channels, c.cfg.num ≠ 1 → ¬ (c.cfg.node = 1 ∧ c.cfg.index = 1))
      ∧ (ready.channel 1).isSome = true :=
  ⟨⟨rfl, by decide, ready_ordered⟩, by decide +kernel⟩
theorem test_remove_channel_takes_uses :
    (let s : State := { lit with mode := .config }
     let t := done (exec (.removeChannel 1 3) s)
     t.channels.map (·.cfg.num) = [1, 2, 96] ∧ t.scenes = [⟨1, 400, [⟨1, 700⟩]⟩] ∧ t.bindings.map (·.slot) = [2]) := by
  decide +kernel

/-! ## Scenes and bindings -/

/-- DEFINE_SCENE's payload for scene 64, fade 300: channels 3 and 1 at 1000 and 500. -/
def scenePayload : List Byte := [64, 0x2C, 0x01, 0, 0, 2, 3, 0xE8, 0x03, 1, 0xF4, 0x01]

/-- The same entries with channel 95, which is not defined. -/
def scenePayload95 : List Byte := [1, 0, 0, 0, 0, 1, 95, 0xE8, 0x03]

/-- A pool with 1,022 entries in use, in scenes of 96 and 62. -/
def poolFull : State :=
  { lit with scenes := (List.range 10).map (fun n => ⟨n + 1, 0, (List.range 96).map fun c => ⟨c + 1, 0⟩⟩)
                         ++ [⟨11, 0, (List.range 63).map fun c => ⟨c + 1, 0⟩⟩] }

theorem test_meets_ScenesDefined :
    lit.store.state ≠ .saving ∧ (9 ≤ scenePayload.length ∧ scenePayload.length ≤ 246 ∧ scenePayload.length % 3 = 0)
      ∧ field scenePayload 0 1 = 64 ∧ field scenePayload 1 4 = 300 ∧ sceneEntries (scenePayload.drop 6) = [⟨3, 1000⟩, ⟨1, 500⟩]
      ∧ field scenePayload 5 1 = 2 ∧ (∀ e ∈ [(⟨3, 1000⟩ : SceneEntry), ⟨1, 500⟩], 1 ≤ e.channel ∧ e.channel ≤ 96)
      ∧ [(⟨3, 1000⟩ : SceneEntry), ⟨1, 500⟩].Pairwise (fun a b => a.channel ≠ b.channel)
      ∧ (∀ e ∈ [(⟨3, 1000⟩ : SceneEntry), ⟨1, 500⟩], (lit.channel e.channel).isSome = true)
      ∧ (2 + lit.poolUsed ≤ 1024 + ((lit.scene 64).map (·.entries.length)).getD 0 ∧ lit.poolUsed ≤ 1024)
      ∧ (sceneEntries (scenePayload95.drop 6) = [⟨95, 1000⟩] ∧ field scenePayload95 5 1 = 1 ∧ field scenePayload95 0 1 = 1
        ∧ scenePayload95.length = 9 ∧ lit.channel 95 = none)
      ∧ (1024 + ((poolFull.scene 64).map (·.entries.length)).getD 0 < 2 + poolFull.poolUsed ∧ poolFull.poolUsed ≤ 1024
        ∧ (∀ e ∈ [(⟨3, 1000⟩ : SceneEntry), ⟨1, 500⟩], (poolFull.channel e.channel).isSome = true)) := by decide +kernel

/-- An open build for scene 64 with channel 3 in it and a number of entries announced. -/
def building (total : Nat) : SceneBuild := ⟨64, 0, total, [⟨3, 1000⟩]⟩

/-- DEFINE_SCENE's payload for a scene and a total announced, with channels 3 and another. -/
def openingPayload (scene total other : Byte) : List Byte := [scene, 0x2C, 0x01, 0, 0, total, 3, 0xE8, 0x03, other, 0xF4, 0x01]

theorem test_meets_ScenesDefined_open :
    ((openingPayload 64 96 1).length = 12 ∧ field (openingPayload 64 96 1) 0 1 = 64 ∧ field (openingPayload 64 96 1) 5 1 = 96
        ∧ sceneEntries ((openingPayload 64 96 1).drop 6) = [⟨3, 1000⟩, ⟨1, 500⟩] ∧ 2 < 96 ∧ 64 ≤ 64)
      ∧ (field (openingPayload 0 3 1) 0 1 < 1 ∧ 64 < field (openingPayload 65 3 1) 0 1 ∧ field (openingPayload 1 0 1) 5 1 = 0
        ∧ 96 < field (openingPayload 1 97 1) 5 1 ∧ field (openingPayload 1 1 1) 5 1 < 2)
      ∧ ((∃ e ∈ sceneEntries ((openingPayload 1 3 97).drop 6), e.channel < 1 ∨ 96 < e.channel)
        ∧ (∃ e ∈ sceneEntries ((openingPayload 1 3 0).drop 6), e.channel < 1 ∨ 96 < e.channel)
        ∧ ¬ (sceneEntries ((openingPayload 1 3 3).drop 6)).Pairwise (fun a b => a.channel ≠ b.channel))
      ∧ (([] : List Byte).length < 9 ∧ 246 < (List.replicate 249 (0 : Byte)).length ∧ (List.replicate 10 (0 : Byte)).length % 3 ≠ 0)
      ∧ (([] : List Byte).length < 4 ∧ 247 < (List.replicate 250 (0 : Byte)).length ∧ (List.replicate 5 (0 : Byte)).length % 3 ≠ 1) := by
  decide +kernel

/-- A DEFINE_SCENE that announces more than it holds opens a build in place of an open one, and a bad one leaves that as it was (R69). -/
theorem test_scene_build_opens :
    (let s := { lit with build := some (building 3) }
     let t := done (exec (.defineScene 1 (openingPayload 1 96 1)) s)
     t.build = some ⟨1, 300, 96, [⟨1, 500⟩, ⟨3, 1000⟩]⟩ ∧ t.scenes = lit.scenes
       ∧ t.link.sending = some ⟨0xA8, 1, .ok, .sceneProgress 2 96, false⟩
       ∧ (done (exec (.defineScene 1 (openingPayload 1 1 1)) s)).build = some (building 3)) := by decide +kernel

/-- SCENE_PART's payload for scene 64: channel 1 at 500. -/
def partPayload : List Byte := [64, 1, 0xF4, 0x01]

theorem test_meets_ScenesDefined_part :
    (4 ≤ partPayload.length ∧ partPayload.length ≤ 247 ∧ partPayload.length % 3 = 1)
      ∧ sceneEntries (partPayload.drop 1) = [⟨1, 500⟩] ∧ field partPayload 0 1 = 64
      ∧ (∀ e ∈ [(⟨1, 500⟩ : SceneEntry)], 1 ≤ e.channel ∧ e.channel ≤ 96)
      ∧ [(⟨1, 500⟩ : SceneEntry)].Pairwise (fun a b => a.channel ≠ b.channel)
      ∧ (building 3).scene = 64 ∧ (building 3).entries.length + 1 < (building 3).total
      ∧ (building 2).entries.length + 1 = (building 2).total
      ∧ (∀ e ∈ [(⟨1, 500⟩ : SceneEntry)], ∀ f ∈ (building 2).entries, f.channel ≠ e.channel)
      ∧ (∀ e ∈ (building 2).entries ++ [(⟨1, 500⟩ : SceneEntry)], (lit.channel e.channel).isSome = true)
      ∧ (2 + lit.poolUsed ≤ 1024 + ((lit.scene 64).map (·.entries.length)).getD 0)
      ∧ (building 1).total < (building 1).entries.length + 1
      ∧ (∃ e ∈ [(⟨3, 500⟩ : SceneEntry)], ∃ f ∈ (building 3).entries, f.channel = e.channel)
      ∧ ({ building 3 with scene := 63 } : SceneBuild).scene ≠ field partPayload 0 1 := by decide +kernel
/-- A part that completes a build of a channel not defined, or in a full pool; and one that names a channel out of range or twice. -/
theorem test_meets_ScenesDefined_part_refusals :
    (sceneEntries ([64, 95, 0, 0] : List Byte).tail = [⟨95, 0⟩] ∧ lit.channel 95 = none
        ∧ (∀ e ∈ [(⟨95, 0⟩ : SceneEntry)], ∀ f ∈ (building 2).entries, f.channel ≠ e.channel))
      ∧ (1024 + ((poolFull.scene 64).map (·.entries.length)).getD 0 < (building 2).total + poolFull.poolUsed
        ∧ (∀ e ∈ (building 2).entries ++ [(⟨1, 500⟩ : SceneEntry)], (poolFull.channel e.channel).isSome = true))
      ∧ ((∃ e ∈ sceneEntries (([64, 97, 0, 0] : List Byte).drop 1), e.channel < 1 ∨ 96 < e.channel)
        ∧ ¬ (sceneEntries (([64, 1, 0, 0, 1, 0, 0] : List Byte).drop 1)).Pairwise (fun a b => a.channel ≠ b.channel))
      ∧ [([64, 95, 0, 0], lit), (partPayload, poolFull), ([64, 97, 0, 0], lit)].map (fun x =>
          let t := done (exec (.scenePart 1 x.1) { x.2 with build := some (building 2) })
          (t.link.sending.map (·.status), t.build))
        = [(some .notFound, none), (some .full, none), (some .badValue, none)] := by decide +kernel

theorem test_meets_ScenesDefined_rising : Rising ((building 3).entries.map (·.channel)) := by
  unfold Rising; decide

theorem test_scene_defined_in_parts :
    (let s := { lit with build := some (building 2) }
     let t := done (exec (.scenePart 1 partPayload) s)
     t.scene 64 = some ⟨64, 0, [⟨1, 500⟩, ⟨3, 1000⟩]⟩ ∧ t.build = none
       ∧ t.link.sending = some ⟨0xA9, 1, .ok, .sceneStored 2 1020, false⟩) := by decide +kernel


theorem test_meets_SceneAndBindingEdits :
    lit.store.state ≠ .saving ∧ (lit.scene 64).isSome = true ∧ lit.scene 2 = none ∧ (lit.binding 64).isSome = true
      ∧ lit.binding 3 = none
      ∧ (trigger? 1 [4, 1, 0] = some (.key 4 1 .press) ∧ action? 1 [64, 0, 0, 0, 0, 0, 0] = some (.takeScene 64))
      ∧ (lit.bindingNamesRecords (.key 4 1 .press) (.takeScene 64) = true ∧ lit.keyTriggerFits (.key 4 1 .press) = true)
      ∧ lit.bindingNamesRecords (.key 4 1 .press) (.takeScene 2) = false
      ∧ (lit.bindingNamesRecords (.key 5 7 .press) (.takeScene 64) = true ∧ lit.keyTriggerFits (.key 5 7 .press) = false)
      ∧ (lit.bindingNamesRecords (.key 5 8 .press) (.takeScene 64) = true ∧ lit.keyTriggerFits (.key 5 8 .press) = false)
      ∧ (lit.bindingNamesRecords (.key 1 1 .press) (.takeScene 64) = true ∧ lit.keyTriggerFits (.key 1 1 .press) = false) := by
  decide +kernel

theorem test_meets_EventsFireBindings :
    (({} : State).mode ≠ .run) ∧ lit.mode = .run ∧ (lit.channels[0]?).isSome = true
      ∧ (∀ b ∈ lit.bindings, b.trigger ≠ .deck .hatchOpened)
      ∧ lit.bindings.filter (fun b => b.trigger = .deck .anchorHome) = [⟨2, .deck .anchorHome, .toggleChannel 2, 0⟩] := by
  decide +kernel
theorem test_meets_EventsFireBindings_ordered : lit.Ordered := lit_ordered

/-- An event fires its binding once, at a saturated count too, and a toggle of a lit channel stages 0 (R80, R81). -/
theorem test_events_fire :
    ((lit.offer (.key 4 1 .press)).binding 1).map (·.fires) = some 65535
      ∧ ((lit.offer (.key 4 1 .press)).channel 3).bind (·.staged) = some ⟨0, 0⟩
      ∧ ((lit.offer (.deck .anchorHome)).channel 2).bind (·.staged) = some ⟨0, 0⟩
      ∧ ((lit.offer (.deck .anchorHome)).binding 2).map (·.fires) = some 1 := by decide +kernel

/-! ## The load allocator -/

/-- The state of section 5.9 with another limit and other classes. -/
def drawn (limit : Nat) (classes : Vector ClassState 8) (overLimit : Nat := 0) : State :=
  { worked with alloc := { worked.alloc with limit := limit, classes := classes, overLimit := overLimit } }

/-- Every class 1..7 SHED. -/
def allShed : Vector ClassState 8 := #v[.normal, .shed, .shed, .shed, .shed, .shed, .shed, .shed]

/-- Class 7 alone SHED. -/
def shed7 : Vector ClassState 8 := #v[.normal, .normal, .normal, .normal, .normal, .normal, .normal, .shed]

theorem test_meets_ReviewDecides :
    ((drawn 7000 shed7).headroom < 0 ∧ (drawn 7000 shed7).classState 6 ≠ .shed ∧ (drawn 7000 shed7).classState 7 = .shed)
      ∧ ((drawn 7000 (.replicate 8 .normal)).headroom < 0 ∧ (drawn 7000 (.replicate 8 .normal)).classState 7 ≠ .shed)
      ∧ ((drawn 0 allShed 1).headroom < 0 ∧ (drawn 0 allShed 1).alloc.overLimit < 2
        ∧ (List.range 8).all (fun j => decide (1 ≤ j → (drawn 0 allShed 1).classState j = .shed)) = true)
      ∧ ((drawn 0 allShed 2).headroom < 0 ∧ (drawn 0 allShed 2).alloc.overLimit = 2 ∧ 3 ≤ (drawn 0 allShed 3).alloc.overLimit)
      ∧ (0 ≤ (drawn 20000 classes6).headroom ∧ (drawn 20000 classes6).classState 6 = .restoring)
      ∧ (0 ≤ worked.headroom ∧ (List.range 8).all (fun j => decide (worked.classState j ≠ .restoring ∧ worked.classState j ≠ .shed)) = true)
      ∧ (0 ≤ (drawn 20000 shed7).headroom ∧ (drawn 20000 shed7).classState 7 = .shed
        ∧ (List.range 8).all (fun j => decide ((drawn 20000 shed7).classState j ≠ .restoring)) = true
        ∧ (List.range 7).all (fun j => decide ((drawn 20000 shed7).classState j ≠ .shed)) = true) := by decide +kernel
theorem test_meets_ReviewDecides_kinds :
    (({ cfg := ⟨1, 1, 1, .dim, 400, 1, 0, 1000⟩ } : Channel).cfg.kind = .dim)
      ∧ (({ cfg := ⟨1, 1, 1, .switch, 400, 1, 0, 1000⟩ } : Channel).cfg.kind = .switch)
      ∧ (({ cfg := ⟨1, 1, 1, .blind, 400, 0, 0, 1000⟩ } : Channel).cfg.kind = .blind) := by decide +kernel

theorem test_meets_WhatRunsAReview :
    atWork.alloc.reviewTimer = some 1200 ∧ ({} : State).alloc.reviewTimer = none
      ∧ (({ alloc := { hpuGrant := some ⟨7500, 6000, 0, some 2000⟩ } } : State).alloc.hpuGrant = some ⟨7500, 6000, 0, some 2000⟩)
      ∧ (({ alloc := { windlassGrant := some ⟨6000, 5000, 0, some 2000⟩ } } : State).alloc.windlassGrant
        = some ⟨6000, 5000, 0, some 2000⟩)
      ∧ (atWork.grant .hpu = some ⟨7500, 0, 0, none⟩ ∧ ({} : State).grant .windlass = none)
      ∧ (({} : State).mode = .config ∧ atWork.mode ≠ .config ∧ 2 < 3) := by decide +kernel
theorem test_set_supply_clamps :
    (let t := done (exec (.setSupply 1 200001 100001 2) {})
     t.alloc.limit = 200000 ∧ t.alloc.base = 100000 ∧ t.alloc.source = .inverter) := by decide +kernel

theorem test_meets_AdmissionsAndGrants :
    ((9470 : Int) ≤ worked.headroom)
      ∧ (((1530 : Nat) : Int) = 11000 - worked.headroom ∧ 0 < 1530)
      ∧ (let low := 6
         worked.classState low ≠ .shed
           ∧ (((List.range 8).filter fun k => low < k ∧ worked.classState k ≠ .shed).map worked.sheddable).sum < 1530
           ∧ 1530 ≤ (((List.range 8).filter fun k => low ≤ k ∧ worked.classState k ≠ .shed).map worked.sheddable).sum)
      ∧ (((List.range 8).filter fun k => k ≠ 0 ∧ worked.classState k ≠ .shed).map worked.sheddable).sum < 1731
      ∧ (({} : State).mode ≠ .run ∧ (atWork.grant .hpu).isSome = true)
      ∧ (worked.mode = .run ∧ worked.grant .hpu = none ∧ ((7500 + 1970 : Nat) : Int) ≤ worked.headroom)
      ∧ (atWork.mode = .run ∧ atWork.alloc.windlassGrant = some ⟨6000, 0, 0, none⟩ ∧ 6000 < 9500
        ∧ ((9500 - 6000 : Nat) : Int) ≤ atWork.headroom ∧ 6000 ≤ 6000) := by decide +kernel
theorem test_meets_AdmissionsAndGrants_motors :
    (worked.mode = .run ∧ worked.grant .windlass = none ∧ (worked.seekWatts .windlassStart (6000 + 5000)).2 = true
        ∧ (worked.seekWatts .windlassStart (6000 + 5201)).2 = false ∧ (worked.seekWatts .hpu (7500 + 0)).2 = true)
      ∧ (let s : State := { atWork with alloc := { atWork.alloc with limit := 0 } }
         s.mode = .run ∧ s.alloc.windlassGrant = some ⟨6000, 0, 0, none⟩ ∧ (s.seekWatts .windlassStage (9500 - 6000)).2 = false
           ∧ (atWork.seekWatts .windlassStage (9500 - 6000)).2 = true) := by decide +kernel

/-! ## Sense inputs and settings -/

theorem test_meets_SweepConverts :
    (0 < 8 ∧ 7 < 8) ∧ ({ phase := 3 } : Sense).phase < 4 ∧ 4 ≤ ({ phase := 4 } : Sense).phase
      ∧ (let s : State := { sense := { phase := 4, window := .replicate 8 100 } }
         let t := done (exec (.sweep (.replicate 8 2000)) s)
         (t.input 1).faulted = false ∧ (t.input 2).faulted = false ∧ s.sense.window.length ≤ 8)
      ∧ (let s : State := { sense := { phase := 4, inputs := .replicate 8 { railCount := 4 } } }
         let t := done (exec (.sweep (.replicate 8 0)) s)
         (t.input 1).faulted = true ∧ (s.input 1).faulted = false) := by decide +kernel
/-- A part whose eight inputs are in one state. -/
def inputs (x : SenseInput) : State := { mode := .run, sense := { inputs := .replicate 8 x } }

theorem test_meets_SweepConverts_input :
    (1 ≤ 8 ∧ 8 ≤ 8 ∧ ((inputs {}).input 1).raw = 0 ∧ ((inputs {}).input 8).railCount < 4 ∧ ((inputs { raw := 4095 }).input 8).raw = 4095)
      ∧ (((inputs { railCount := 4 }).input 8).faulted = false ∧ 4 ≤ ((inputs { railCount := 4 }).input 8).railCount
        ∧ (((inputs { railCount := 4 }).railCheck 8).input 8).faulted = true)
      ∧ (((inputs { raw := 1 }).input 1).raw ≠ 0 ∧ ((inputs { raw := 4094 }).input 1).raw ≠ 4095
        ∧ ((inputs { raw := 1, faulted := true }).input 1).faulted = true
        ∧ (((inputs { raw := 1 }).railCheck 1).input 1).faulted = false)
      ∧ (let f : SenseSettings := { highLimit := 450, lowLimit := 50, hysteresis := 20 }
         (450 ≤ f.highLimit ∧ f.highLimit < 451 ∧ f.highLimit - f.hysteresis ≤ 430 ∧ 429 < f.highLimit - f.hysteresis)
           ∧ (f.lowLimit ≤ 50 ∧ 49 < f.lowLimit ∧ 70 ≤ f.lowLimit + f.hysteresis ∧ f.lowLimit + f.hysteresis < 71)
           ∧ ((inputs { settings := f, scaled := 451, highTripped := true }).input 8).highTripped = true
           ∧ ((inputs { settings := f, scaled := 49, lowTripped := true }).input 8).lowTripped = true)
      ∧ (let s := inputs { railCount := 4 }
         [3, 4, 5, 6].all (fun i => ((done (exec (.sweep (.replicate 8 0)) s)).input i).faulted && !(s.input i).faulted) = true) := by
  decide +kernel

/-- Section 6.8's monitor: 450 does not trip, 451 does, and 430 does not re-arm it, 429 does. -/
theorem test_high_monitor :
    (let s (v : Int) (tripped : Bool) : State :=
       { sense := { inputs := .replicate 8 { settings := { low := v, high := v, highLimit := 450, lowLimit := 50, hysteresis := 20 }
                                             highTripped := tripped } } }
     let go (v : Int) (tripped : Bool) : Bool := ((done (exec (.sweep (.replicate 8 2000)) (s v tripped))).input 7).highTripped
     go 450 false = false ∧ go 451 false = true ∧ go 430 true = true ∧ go 429 true = false) := by decide +kernel

theorem test_meets_SettingsStored :
    (ready.mode = .config ∧ ready.store.state ≠ .saving)
      ∧ (((50 = 50 ∨ 50 = 100) ∧ 1 ≤ 60 ∧ 60 ≤ 60) ∧ ((51 ≠ 50 ∧ 51 ≠ 100) ∧ 0 < 1 ∧ 60 < 61 ∧ 1 < 2))
      ∧ ((-32768 : Int) ≤ -32768 ∧ (-32768 : Int) ≤ 32767 ∧ (32767 : Int) ≤ 32767 ∧ 1000 ≤ 1000 ∧ 600000 ≤ 600000)
      ∧ (2 < 3 ∧ 999 < 1000 ∧ 600000 < 600001)
      ∧ windlassBadFigure {} = none ∧ windlassBadFigure { countsPerRev := 1025 } = some 1
      ∧ (ready.windlass.settings.countsPerRev = 48 ∧ ({ mmPerRev := 1121 } : WindlassSettings).mmPerRev ≠ ready.windlass.settings.mmPerRev)
      ∧ ((ready.node 5).map (·.type) = some .station ∧ ([0, 6, 0, 0, 0, 0] : List Nat).length = 6
        ∧ keyFunction? 6 = some .anchorIn ∧ keyFunction? 0 = some .none) := by decide +kernel

/-- SET_STATION_MAP refused: a code of 7, the address 120, an address without a record, and a KEYPAD (R161). -/
theorem test_station_map_refusals :
    ((ready.node 4).map (·.type) = some .keypad ∧ ready.node 119 = none ∧ (∃ c ∈ [0, 0, 0, 0, 0, 7], 6 < c) ∧ (∀ c ∈ [0, 6, 1, 2, 3, 4], c ≤ 6))
      ∧ [(5, 7), (120, 0), (119, 0), (4, 0), (5, 6)].map (fun (x : Nat × Nat) =>
          (done (exec (.setStationMap 1 x.1 [0, 0, 0, 0, 0, x.2]) ready)).link.sending.map (·.status))
        = [some .badValue, some .badValue, some .notFound, some .badValue, some .ok] := by decide +kernel

/-! ## The deck -/

theorem test_meets_DeckPassEffects :
    (let s : State := { atWork with platform := { settings := platformDefaults } }
     s.mode ≠ .stopping ∧ (s.mover .hatch).state = .moving ∧ (s.mover (otherMover .hatch)).state ≠ .moving
       ∧ s.motionInterlock .hatch = false)
      ∧ (({ mode := .stopping } : State).mode = .stopping) := by decide +kernel
/-- The host's ownership of the hatch has ended, which changes the lamps of station 5: a LAMPS entry waits, one in flight takes the follow-up
mark, and in STOPPING with the pump READY nothing but it changes. -/
theorem test_meets_DeckPassEffects_lamps :
    (let b : State := { lit with hatchOwner := { owner := .host, dir := some .opening } }
     let q (s : State) := (s.deckPass b).bus.queue.map fun x => (x.kind, x.target, x.inFlight, x.followUp)
     let drains : State := { lit with mode := .stopping, hpu := { state := .ready } }
     (lit.mode ≠ .config ∧ lit.bus.state ≠ .recovery ∧ (lit.node 5).map (·.state) = some .active
         ∧ (lit.station 5).map (fun t => decide (t.delivered ≠ some (lit.lampsOf t) ∧ (b.station 5).map b.lampsOf ≠ some (lit.lampsOf t)))
           = some true)
       ∧ q lit = [(.lamps, 5, false, false)]
       ∧ q { lit with bus := { state := .own, queue := [⟨.a, .lamps, 5, none, 0, true, false, false, false⟩] } } = [(.lamps, 5, true, true)]
       ∧ (¬ (drains.hpu.state = .off ∨ drains.hpu.state = .fault) ∧ q drains = [(.lamps, 5, false, false)]
         ∧ (drains.deckPass b).mode = .stopping)) := by decide +kernel

theorem test_meets_DeckPassEffects_idle : ∀ m, (lit.mover m).state = .moving → lit.motionInterlock m = true := by
  intro m; cases m <;> decide +kernel

/-- The deck at rest in RUN with the pump OFF and watts to spare: the hatch closed, the platform at the deck. -/
def atRest : State :=
  { mode := .run, uptime := 1000, alloc := { limit := 20000 }
    hatch := { position := .closed, lowSw := true, settings := hatchDefaults }
    platform := { position := .atDeck, settings := platformDefaults } }

/-- The same with the pump in another state. -/
def pump (st : HpuState) (holder : Option MoverId) : State :=
  { atRest with hpu := { state := st, contactor := true, holder := holder }, alloc := { limit := 20000, hpuGrant := some ⟨7500, 0, 0, none⟩ } }

/-- The same with an input FAULTED. -/
def faulted (i : Nat) : State := atRest.onInput i fun x => { x with faulted := true }

theorem test_meets_MoveAcceptedOrRefused :
    (atRest.mode = .run ∧ (atRest.ownerOf (moverResource .hatch)).owner = .none ∧ (atRest.mover .hatch).state = .atRest)
      ∧ ((atRest.mover .hatch).position = .closed ∧ (atRest.mover .platform).position = .atDeck)
      ∧ ((atRest.mover .hatch).position ≠ .opened ∧ atRest.angleFaulted .hatch = false ∧ (atRest.input 3).faulted = false
        ∧ atRest.interlock .hatch (atRest.stowFlag .hatch .closed .opened) = true)
      ∧ (atRest.platform.position ≠ .stowed ∧ atRest.interlock .platform (atRest.stowFlag .platform .atDeck .stowed) = true)
      ∧ ((pump .ready (some .platform)).hpu.state = .ready ∧ (pump .starting (some .platform)).hpu.holder = some .platform
        ∧ (pump .starting none).hpu.holder = none ∧ (pump .runOn none).hpu.state = .runOn)
      ∧ (atRest.hpu.state = .off
        ∧ (atRest.startAdmission .hpu atRest.hpu.settings.rated atRest.hpu.settings.inrush atRest.hpu.settings.inrushWindow).2 = true)
      ∧ (let s : State := { atRest with alloc := {} }
         (s.startAdmission .hpu s.hpu.settings.rated s.hpu.settings.inrush s.hpu.settings.inrushWindow).2 = false) := by decide +kernel
/-- The interlock of each motion with the other mover as R130 asks and not, and the stow flag's three cases. -/
theorem test_interlocks :
    (let at_ (st : MoverState) (h p : Position) : State :=
       { hatch := { state := st, position := h, settings := hatchDefaults }, platform := { state := st, position := p, settings := platformDefaults } }
     [Position.atDeck, .submerged, .stowed, .between].map (fun p => (at_ .atRest .closed p).interlock .hatch false) = [true, true, false, false]
       ∧ (at_ .settling .closed .atDeck).interlock .hatch true = false
       ∧ [(MoverState.atRest, Position.closed), (.atRest, .opened), (.settling, .closed)].map
           (fun x => (at_ x.1 x.2 .stowed).interlock .platform true) = [true, false, false]
       ∧ [MoverState.atRest, .waitPump, .moving, .settling, .fault].map (fun st => (at_ st .opened .atDeck).interlock .platform false)
           = [true, false, false, true, true]
       ∧ [(Position.stowed, Position.submerged), (.atDeck, .stowed), (.between, .atDeck), (.atDeck, .submerged)].map
           (fun x => ((at_ .atRest .closed .between).onInput 5 fun i => { i with scaled := 11 }).stowFlag .platform x.1 x.2)
         = [true, true, true, false]
       ∧ (at_ .atRest .closed .between).stowFlag .platform .between .atDeck = false
       ∧ ((at_ .atRest .closed .between).platform.inDeckBand 10 = true ∧ (at_ .atRest .closed .between).platform.inDeckBand 11 = false)) := by
  decide +kernel

theorem test_meets_MoveAcceptedOrRefused_refusals :
    (moveTarget? .hatch 3 = none ∧ mover? 1 = some .hatch ∧ mover? 0 = none ∧ mover? 3 = none ∧ moveTarget? .platform 5 = some .submerged)
      ∧ (atWork.ownerOf (moverResource .platform)).owner = .station 5 ∧ (atWork.ownerOf (moverResource .hatch)).owner = .host
      ∧ (let s : State := { atRest with hatch := { atRest.hatch with state := .fault } }
         (s.mover .hatch).state = .fault ∧ (s.ownerOf (moverResource .hatch)).owner = .none)
      ∧ ((faulted 4).angleFaulted .hatch = true ∧ ((faulted 3).input 3).faulted = true)
      ∧ (let s : State := { atRest with platform := { atRest.platform with position := .between } }
         s.platform.inDeckBand (s.angle .platform) = true ∧ (s.mover .platform).position ≠ .atDeck
           ∧ (done (exec (.move 1 2 4) s)).link.sending.map (·.status) = some .notReady)
      ∧ (let s : State := { atRest with platform := { settings := platformDefaults } }
         s.interlock .hatch (s.stowFlag .hatch .closed .opened) = false)
      ∧ (pump .fault none).hpu.state = .fault := by decide +kernel

/-- A move from OFF closes the contactor and waits; at the ready pressure the hatch moves with its valve energised (R120, R121, R126). -/
theorem test_move_starts_the_pump :
    (let s := (atRest.onInput 3 fun x => { x with settings := { x.settings with low := 1200, high := 1200 } }).onInput 5 fun x =>
       { x with settings := { x.settings with low := 10, high := 10 } }
     let t := done (exec (.move 1 1 2) s)
     t.hpu.state = .starting ∧ t.hpu.contactor = true ∧ t.hpu.readyTimer = some 4000 ∧ t.hatch.state = .waitPump
       ∧ t.alloc.hpuGrant = some ⟨7500, 6000, 1000, some 3000⟩ ∧ t.hatchOwner.owner = .host
       ∧ (let u := done (exec (.sweep (.replicate 8 2000)) t)
          u.hpu.state = .ready ∧ u.hatch.state = .moving ∧ u.hatch.raise = true ∧ u.hatch.lower = false)) := by decide +kernel

theorem test_meets_DeckSwitchEvents :
    MoverId.hatch = switchMover .hatchOpen ∧ atWork.switchState .hatchOpen = false ∧ (atWork.mover .hatch).state = .moving
      ∧ (atWork.mover .hatch).motion = some ⟨.target, .opening, .opened, false, .closed, some 0⟩
      ∧ Position.opened = switchEnd .hatchOpen := by decide +kernel

/-- A mover that settles with a cause, a pending fault, and switch states. -/
def settling (c : Cause) (p : Option FaultRecord) (low : Bool) : State :=
  { atWork with
    hatch := { atWork.hatch with state := .settling, raise := false, travelTimer := none, settleTimer := some 1500
                                 stopCause := some c, pendingFault := p, lowSw := low, settings := { hatchDefaults with low := 51 } } }

theorem settling_law (c : Cause) (p : Option FaultRecord) (low : Bool) : (settling c p low).DeckLaw :=
  { contactor := by simp [settling, atWork]
    granted := by simp [settling, atWork]
    unheld := by simp [settling, atWork]
    runOn := by simp [settling, atWork]
    holder := by intro m; cases m <;> simp [settling, atWork, State.mover]
    waiter := by intro m; cases m <;> simp [settling, atWork, State.mover]
    moving := by intro m; cases m <;> simp [settling, atWork, State.mover]
    valves := by intro m; cases m <;> simp [settling, atWork, State.mover, Mover.ValvesSafe]
    timers := by intro m; cases m <;> simp [settling, atWork, State.mover]
    unowned := by intro m; cases m <;> simp [settling, atWork, State.ownerOf, moverResource]
    config := by simp [settling, atWork] }

theorem test_meets_MoverAndPumpTimers :
    ((atWork.mover .hatch).travelTimer = some 61000 ∧ (atRest.mover .hatch).travelTimer = none ∧ (atRest.mover .hatch).settleTimer = none)
      ∧ (((settling .stall none true).mover .hatch).settleTimer = some 1500 ∧ ((settling .stall none true).mover .hatch).stopCause = some .stall
        ∧ Cause.stall.isFault = true ∧ (settling .stall none true).angleFaulted .hatch = false
        ∧ ((settling .stall none true).mover .hatch).disagrees ((settling .stall none true).angle .hatch) = true)
      ∧ (((settling .target (some ⟨.sensorFault, 0⟩) false).mover .hatch).stopCause = some .target ∧ Cause.target.isFault = false
        ∧ ((settling .target (some ⟨.sensorFault, 0⟩) false).mover .hatch).pendingFault = some ⟨.sensorFault, 0⟩)
      ∧ (((settling .target none true).mover .hatch).pendingFault = none
        ∧ ((settling .target none true).mover .hatch).disagrees ((settling .target none true).angle .hatch) = true
        ∧ ((settling .target none false).mover .hatch).disagrees ((settling .target none false).angle .hatch) = false)
      ∧ (atRest.hpu.readyTimer = none ∧ atRest.hpu.runOnTimer = none)
      ∧ (let s : State := { atWork with hpu := { state := .starting, contactor := true, holder := some .platform, waiting := some .hatch
                                                 readyTimer := some 3000 } }
         s.hpu.readyTimer = some 3000 ∧ s.hpu.holder = some .platform ∧ (s.mover .platform).state = .waitPump ∧ s.hpu.waiting = some .hatch)
      ∧ ({ hpu := { state := .runOn, contactor := true, runOnTimer := some 10000 } } : State).hpu.runOnTimer = some 10000 := by
  decide +kernel
theorem test_meets_MoverAndPumpTimers_law :
    (settling .stall none true).DeckLaw ∧ (settling .target (some ⟨.sensorFault, 0⟩) false).DeckLaw :=
  ⟨settling_law _ _ _, settling_law _ _ _⟩

/-- The ends of a settle: by the pump's holder or not, with a completion event, without one, and with the waiter's interlock as it is. -/
theorem test_meets_MoverAndPumpTimers_settled :
    ((settling .target none false).hpu.holder = some .hatch ∧ (settling .target none false).hpu.waiting = some .platform
        ∧ (settling .target none false).hpu.state ≠ .fault ∧ (settling .target none false).motionInterlock .platform = true
        ∧ ({ settling .target none false with hpu := { state := .fault } } : State).hpu.holder ≠ some .hatch)
      ∧ (((settling .target none false).mover .hatch).motion = some ⟨.target, .opening, .opened, false, .closed, some 0⟩
        ∧ ((settling .target none false).mover .hatch).position = .between
        ∧ (Position.opened, DeckEvent.hatchOpened) ∈ [(Position.opened, DeckEvent.hatchOpened), (.closed, .hatchClosed),
          (.stowed, .platformStowed), (.atDeck, .platformAtDeck), (.submerged, .platformSubmerged)] ∧ Position.opened ≠ .closed)
      ∧ (let s : State := { settling .target none false with mode := .stopping, hpu := { state := .ready, holder := some .hatch } }
         s.hpu.waiting = none ∧ s.mode = .stopping)
      ∧ (let s := settling .target none false
         let u : State := { s with platform := { s.platform with motion := some ⟨.target, .up, .stowed, true, .atDeck, none⟩ } }
         u.hpu.waiting = some .platform ∧ u.motionInterlock .platform = false) := by decide +kernel

/-- A hatch that ends its settle at OPEN posts MOTION_DONE, fires its binding and hands the pump to the platform; one that ends with a fault
posts DECK_FAULT, where a disagreement becomes its pending fault and is a later cause of a pending fault only (R122, R134). -/
theorem test_settle_ends :
    (let s := settling .target none false
     let t := done (exec (.moverSettleExpiry .hatch) { s with
       hatch := { s.hatch with position := .opened }, bindings := [⟨1, .deck .hatchOpened, .toggleChannel 2, 0⟩] })
     t.link.notices = [⟨.motionDone, 1, [2, 0, 0], 1500⟩] ∧ t.bindings.map (·.fires) = [1] ∧ t.hatchOwner = {}
       ∧ t.platform.state = .moving ∧ t.platform.lower = true ∧ t.hpu.holder = some .platform ∧ t.hpu.waiting = none)
      ∧ (let t := done (exec (.moverSettleExpiry .hatch) (settling .stall none true))
         t.link.notices = [⟨.deckFault, 1, [12, 0, 0, 0], 1500⟩] ∧ t.hatch.fault = some ⟨.stall, 0⟩ ∧ t.platform.state = .moving)
      ∧ (let t := done (exec (.moverSettleExpiry .hatch) (settling .target (some ⟨.sensorFault, 0⟩) true))
         t.hatch.fault = some ⟨.sensorFault, 1⟩) := by
  decide +kernel

theorem test_meets_StopMotionStops :
    3 < 4 ∧ 3 ≤ 3 ∧ (atWork.mover .hatch).state = .moving ∧ (atWork.mover .platform).state = .waitPump
      ∧ (atRest.mover .hatch).state = .atRest ∧ atWork.windlass.underWay = true ∧ atRest.windlass.underWay = false := by decide +kernel

/-- The deck with every resource in FAULT, with a fault condition of each (the inputs 3 to 6 FAULTED) and with none. -/
def allFault (f : Bool) : State :=
  { sense := { inputs := .replicate 8 { faulted := f } }
    hpu := { state := .fault, fault := some ⟨.noPressure, 0⟩ }
    hatch := { state := .fault, fault := some ⟨.stall, 0⟩, settings := hatchDefaults }
    platform := { state := .fault, fault := some ⟨.stall, 0⟩, settings := platformDefaults }
    windlass := { state := .fault, fault := some ⟨.jam, 0⟩ } }

theorem test_meets_ClearFaultClears :
    (4 < 5)
      ∧ (((allFault true).mover .hatch).state = .fault ∧ ((allFault true).input 4).faulted = true
        ∧ (let r := (allFault false).mover .platform
           r.state = .fault ∧ ((allFault false).input 5).faulted = false ∧ r.lowSw = false ∧ r.highSw = false
             ∧ r.settings.low ≤ r.settings.high ∧ ¬ ((allFault false).input 5).scaled < r.settings.low - 30
             ∧ ¬ r.settings.high ≤ r.settings.low ∧ ¬ r.settings.high + 30 < ((allFault false).input 5).scaled)
        ∧ (atRest.mover .hatch).state ≠ .fault)
      ∧ ((allFault true).windlass.state = .fault ∧ ((allFault true).input 6).faulted = true
        ∧ ((allFault false).input 6).faulted = false ∧ ((allFault false).input 6).scaled ≤ (allFault false).windlass.settings.overCurrent
        ∧ ((allFault false).input 1).settings.lowLimit ≤ ((allFault false).input 1).scaled ∧ atRest.windlass.state ≠ .fault)
      ∧ ((allFault true).hpu.state = .fault ∧ ((allFault true).input 3).faulted = true ∧ ((allFault false).input 3).faulted = false
        ∧ ((allFault false).input 3).scaled ≤ (allFault false).hpu.settings.overpressure ∧ atRest.hpu.state ≠ .fault) := by decide +kernel

/-- A fault of the hatch clears with its closed switch ACTIVE 50 from its angle and not at 51; 30 beyond an end and not at 31; and the
windlass's at the overload current and not above it (R135, R155). -/
theorem test_clear_fault_boundaries :
    (let status (r : Nat) (s : State) := (done (exec (.clearFault 1 r) s)).link.sending.map (·.status)
     let hatch (sw : Bool) (low : Int) : State :=
       { allFault false with hatch := { (allFault false).hatch with lowSw := sw, settings := { hatchDefaults with low := low } } }
     (status 1 (hatch true 50) = some .ok ∧ status 1 (hatch true 51) = some .conditionPresent)
       ∧ (status 1 (hatch false 30) = some .ok ∧ status 1 (hatch false 31) = some .conditionPresent)
       ∧ (status 3 ((allFault false).onInput 6 fun x => { x with scaled := 400 }) = some .ok
         ∧ status 3 ((allFault false).onInput 6 fun x => { x with scaled := 401 }) = some .conditionPresent)) := by decide +kernel

/-- The deck at work with the hatch in MOVING for a goal, at a pressure, with a stall watch. -/
def moving (goal : Position) (pressure : Int) (stall : Option StallWatch) : State :=
  { (atWork.onInput 3 fun x => { x with scaled := pressure }) with
    hatch := { atWork.hatch with stall := stall, motion := some ⟨.target, .opening, goal, false, .closed, some 0⟩ } }

/-- A watch that is idle, one that starts, one that runs on and one that reaches its time. -/
theorem watches : WatchAt 1000 False 500 (some 0) none False ∧ WatchAt 1000 True 500 none (some 1000) False
    ∧ WatchAt 1000 True 500 (some 501) (some 501) False ∧ WatchAt 1000 True 500 (some 500) none True := by
  refine ⟨⟨?_, ?_, ?_⟩, ⟨?_, ?_, ?_⟩, ⟨?_, ?_, ?_⟩, ?_, ?_, ?_⟩ <;> simp

theorem test_meets_MoverAndPumpTimers_sweep :
    (let s := moving .opened 0 none
     (s.mover .hatch).motion = some ⟨.target, .opening, .opened, false, .closed, some 0⟩ ∧ (s.mover .hatch).state = .moving
       ∧ (s.mover .hatch).highSw = false ∧ (s.mover .hatch).stall = none)
      ∧ (let s := moving .opened 3000 (some ⟨1000, 0⟩)
         (s.hpu.settings.stallPressure : Int) ≤ s.pressure ∧ (s.angle .hatch - 0).natAbs < 5)
      ∧ ((moving .opened 0 (some ⟨1000, 0⟩)).pressure < (moving .opened 0 none).hpu.settings.stallPressure)
      ∧ (2000 ≤ ((3000 : Uptime) - 1000).toNat ∧ ¬ 2000 ≤ ((2999 : Uptime) - 1000).toNat)
      ∧ (let r : Mover := { settings := { hatchDefaults with low := 0, high := 900 }, highSw := false }
         r.settings.high + 30 < 931 ∧ ¬ r.settings.high + 30 < (930 : Int) ∧ ¬ r.settings.high ≤ r.settings.low)
      ∧ (let r : Mover := { settings := platformDefaults }
         r.inDeckBand r.settings.deck = true ∧ r.inDeckBand (r.settings.deck + 11) = false)
      ∧ ((atRest.mover .hatch).state = .atRest ∧ (atWork.mover .hatch).state = .moving
        ∧ (atWork.mover .platform).state = .waitPump ∧ atWork.mode ≠ .stopping)
      ∧ (((settling .stall none true).mover .hatch).state = .settling ∧ ((allFault true).mover .hatch).fault = some ⟨.stall, 0⟩) := by
  decide +kernel

theorem test_meets_MoverAndPumpTimers_pump :
    (atRest.hpu.state = .off ∧ (allFault true).hpu.fault = some ⟨.noPressure, 0⟩ ∧ atWork.hpu.state = .ready)
      ∧ ((pump .starting (some .hatch)).hpu.state = .starting
        ∧ (pump .starting none).pressure < (pump .starting none).hpu.settings.readyPressure
        ∧ (let s := (pump .starting (some .hatch)).onInput 3 fun x => { x with scaled := 1200 }
           (s.hpu.settings.readyPressure : Int) ≤ s.pressure ∧ s.hpu.holder = some .hatch ∧ s.hpu.waiting ≠ some .hatch
             ∧ s.motionInterlock .hatch = true))
      ∧ ((pump .starting none).hpu.holder = none ∧ (pump .starting none).hpu.waiting = none ∧ (pump .starting none).mode ≠ .stopping
        ∧ (pump .starting none).hpu.settings.runOn ≠ 0)
      ∧ (let s : State := { atRest with hpu := { state := .starting, contactor := true, waiting := some .hatch } }
         s.hpu.holder = none ∧ s.hpu.waiting = some .hatch ∧ s.motionInterlock .hatch = true)
      ∧ (let s : State := { atWork with hpu := { state := .starting, contactor := true, holder := some .hatch }
                                        platform := { settings := platformDefaults } }
         s.hpu.holder = some .hatch ∧ s.motionInterlock .hatch = false)
      ∧ (({ hpu := { settings := { runOn := 0 } } } : State).hpu.settings.runOn = 0) := by decide +kernel

/-! ## The windlass -/

/-- The windlass at rest in RUN with a trusted rode of 42,000 mm. -/
def anchored : State :=
  { mode := .run, uptime := 1000, alloc := { limit := 20000 }, windlass := { count := 1800, rodeValid := true } }

theorem test_meets_WindlassRequests :
    (anchored.mode = .run ∧ anchored.windlassOwner.owner = .none ∧ anchored.windlass.state ≠ .fault)
      ∧ (anchored.windlass.rodeValid = true ∧ anchored.windlass.rodeUncertain = false)
      ∧ anchored.windlass.distanceTo .payOut (anchored.windlass.toCounts 42093) ≤ anchored.windlass.toCounts anchored.windlass.settings.stopBand
      ∧ (anchored.windlass.toCounts anchored.windlass.settings.stopBand < anchored.windlass.distanceTo .payOut (anchored.windlass.toCounts 60000)
        ∧ anchored.windlass.toCounts anchored.windlass.settings.stopBand < anchored.windlass.distanceTo .heave (anchored.windlass.toCounts 0)
        ∧ (anchored.input 6).faulted = false
        ∧ (anchored.startAdmission .windlass 6000 5000 2000).2 = true)
      ∧ (anchored.windlass.homeSw = false ∧ ({ anchored with windlass := { homeSw := true } } : State).windlass.homeSw = true)
      ∧ (atWork.windlassOwner.owner = .host ∧ ({ windlassOwner := { owner := .station 5 } } : State).windlassOwner.owner = .station 5)
      ∧ ({ windlass := { state := .fault } } : State).windlass.state = .fault
      ∧ (({} : State).windlass.rodeValid = false ∧ ({ windlass := { rodeUncertain := true } } : State).windlass.rodeUncertain = true)
      ∧ (let s : State := anchored.onInput 6 fun x => { x with faulted := true }
         (s.input 6).faulted = true)
      ∧ (({ anchored with alloc := {} } : State).startAdmission .windlass 6000 5000 2000).2 = false
      ∧ (atWork.windlass.state ≠ .idle ∧ anchored.windlass.state = .idle ∧ anchored.windlass.settings.maxRode < 110001
        ∧ 110000 ≤ anchored.windlass.settings.maxRode) := by decide +kernel

/-- Section 8.2: a seek to 60,000 mm is one to 2,571 counts, and the settle's notice of section 8.8 carries 59,943 and −2. -/
theorem test_seek_and_arrival :
    (let t := done (exec (.payOutTo 1 60000) anchored)
     t.windlass.run = some ⟨.seek, .payOut, 2571, 60000, false⟩ ∧ t.windlass.state = .starting ∧ t.windlass.payOut = true
       ∧ t.windlass.brakeTimer = some 1100 ∧ t.link.sending = some ⟨0xC9, 1, .ok, .seek 60000 2571, false⟩)
      ∧ (let s : State := { atWork with windlass := { state := .stopping, stopCause := some .target, settleTimer := some 1300, count := 2569
                                                      rodeValid := true, run := some ⟨.seek, .payOut, 2571, 60000, true⟩ } }
         (done (exec .windlassSettleExpiry s)).link.notices
           = [⟨.anchorAtTarget, 3, leBytes 4 59943 ++ [0xFE, 0xFF], 1300⟩]) := by decide +kernel

theorem test_meets_GypsyCounts :
    (0 < ({} : Windlass).settings.countsPerRev ∧ 0 < ({} : Windlass).settings.mmPerRev ∧ (0 : Int) ≤ 0)
      ∧ anchored.windlass.underWay = false ∧ anchored.windlass.fifo = []
      ∧ (let older : Count := 1752
         let w : Windlass := { anchored.windlass with fifo := [1700, older] }
         w.fifo = [1700] ++ [older] ∧ ([1700] : List Count).length ≤ 1
           ∧ ((w.settings.countsPerRev : Int) - w.settings.slipTol ≤ (w.count.toInt - older.toInt).natAbs
             ∧ ((w.count.toInt - older.toInt).natAbs : Int) ≤ w.settings.countsPerRev + w.settings.slipTol))
      ∧ (let older : Count := 1746
         let w : Windlass := { anchored.windlass with fifo := [older] }
         w.fifo = [] ++ [older] ∧ ¬ ((w.count.toInt - older.toInt).natAbs : Int) ≤ w.settings.countsPerRev + w.settings.slipTol)
      ∧ anchored.windlass.run = none := by decide +kernel

/-- The counter wraps in 32 bits, and the position is signed (R141). -/
theorem test_count_wraps :
    (let t := done (exec (.gypsyStep .heave) { windlass := { count := 0 } })
     t.windlass.count = 0xFFFFFFFF ∧ t.windlass.position = -1 ∧ t.windlass.rode = -23 ∧ t.windlass.lastStep = some .heave) := by
  decide +kernel

/-- A run of a kind and direction under way, a distance in counts before its target. -/
def runs (k : RunKind) (d : RodeDir) (count : Count) : State :=
  { atWork with windlass := { state := .running, run := some { kind := k, dir := d, target := 2571 }, payOut := decide (d = .payOut)
                              heave := decide (d = .heave), brakeRelease := true, stage2 := true, count := count, rodeValid := true } }

theorem test_meets_RunsEnd :
    (let s := runs .seek .payOut 2566
     s.windlass.run = some { kind := .seek, dir := .payOut, target := 2571 } ∧ s.windlass.underWay = true
       ∧ (2571 : Int) - (s.windlass.count + 1).toInt ≤ s.windlass.toCounts s.windlass.settings.stopBand
       ∧ s.windlass.rodeValid = true ∧ s.windlass.rodeUncertain = false ∧ s.windlass.payOut = true)
      ∧ (let s := runs .seek .heave 2576
         (s.windlass.count - 1).toInt - 2571 ≤ s.windlass.toCounts s.windlass.settings.stopBand ∧ s.windlass.heave = true)
      ∧ (let s := runs .home .heave 3
         s.windlass.run = some { kind := .home, dir := .heave, target := 2571 } ∧ s.windlass.homeSw = false)
      ∧ (let s := runs .jog .heave 3
         s.windlass.run = some { kind := .jog, dir := .heave, target := 2571 } ∧ s.windlass.homeSw = false) := by decide +kernel
theorem test_meets_RunsEnd_next :
    exec (.gypsyStep .payOut) (runs .seek .payOut 2566) = .next (done (exec (.gypsyStep .payOut) (runs .seek .payOut 2566)))
      ∧ exec .gypsyDecodeError (runs .seek .payOut 0) = .next (done (exec .gypsyDecodeError (runs .seek .payOut 0)))
      ∧ exec (.homeSwitchEvent true) (runs .home .heave 3) = .next (done (exec (.homeSwitchEvent true) (runs .home .heave 3))) :=
  ⟨rfl, rfl, rfl⟩

/-- Steps at the edges of a run's ends: the band before the target and the max, the home limit, and the slow zone. -/
theorem test_meets_RunsEnd_steps :
    (let s := runs .jog .payOut 4709
     s.windlass.run = some { kind := .jog, dir := .payOut, target := 2571 } ∧ s.windlass.underWay = true
       ∧ s.windlass.toCounts s.windlass.settings.maxRode - s.windlass.toCounts s.windlass.settings.stopBand = 4710
       ∧ (s.windlass.count + 1).toInt = 4710)
      ∧ (let s := runs .home .heave (-129)
         s.windlass.toCounts s.windlass.settings.homeLimit = 129 ∧ (s.windlass.count - 1).toInt = -130 ∧ s.windlass.homeSw = false
           ∧ s.windlass.rodeUncertain = false)
      ∧ (let s := runs .home .heave 130
         let t : State := { s with alloc := { s.alloc with windlassGrant := some ⟨9500, 0, 0, none⟩ } }
         s.windlass.state = .running ∧ s.windlass.stage2 = true ∧ s.windlass.toCounts s.windlass.settings.slowZone = 129
           ∧ (s.windlass.count - 1).toInt = 129 ∧ t.alloc.windlassGrant = some ⟨9500, 0, 0, none⟩ ∧ s.windlass.settings.g1 < 9500
           ∧ s.alloc.windlassGrant = some ⟨6000, 0, 0, none⟩ ∧ 6000 ≤ s.windlass.settings.g1)
      ∧ (let s := runs .seek .heave 2576
         s.windlass.homeSw = false ∧ s.windlass.toCounts s.windlass.settings.stopBand < s.windlass.count.toInt - 2571
           ∧ ¬ s.windlass.toCounts s.windlass.settings.stopBand < (runs .seek .heave 2575).windlass.count.toInt - 2571)
      ∧ (let s : State := { runs .home .heave 1800 with windlass := { (runs .home .heave 1800).windlass with fifo := [1746] } }
         s.windlass.fifo = [] ++ [1746] ∧ ¬ ((s.windlass.count.toInt - 1746).natAbs : Int)
             ≤ s.windlass.settings.countsPerRev + s.windlass.settings.slipTol
           ∧ s.windlass.rodeValid = true ∧ s.windlass.rodeUncertain = false ∧ s.windlass.stage2 = true) := by decide +kernel

/-- A windlass in STARTING with a run whose contactor waits, at a moment before the other's deadband ends. -/
def waitsDeadband (uptime heaveFree : Uptime) : State :=
  { uptime := uptime, windlass := { state := .starting, heaveFree := heaveFree, run := some { kind := .home, dir := .heave } } }

/-- A windlass in STARTING with its contactor closed and the brake timer running. -/
def braking (k : RunKind) (valid : Bool) : State :=
  { windlass := { state := .starting, heave := true, brakeTimer := some 100, count := 129, rodeValid := valid
                  run := some { kind := k, dir := .heave } } }

theorem test_meets_RunTimers :
    ((waitsDeadband 0 0).windlass.state = .starting ∧ (waitsDeadband 0 0).windlass.contactorClosed = false
        ∧ (waitsDeadband 0 0).windlass.run = some { kind := .home, dir := .heave } ∧ (waitsDeadband 7 7).windlass.heaveFree = 7
        ∧ ((507 : Uptime) - 7).toNat ≤ 500 ∧ 500 < ((508 : Uptime) - 7).toNat)
      ∧ (anchored.windlass.state ≠ .starting ∧ anchored.windlass.run = none ∧ atWork.windlass.contactorClosed = true)
      ∧ ((braking .jog true).windlass.brakeTimer = some 100 ∧ (braking .home false).windlass.rodeValid = false
        ∧ (braking .home true).windlass.rodeUncertain = false
        ∧ (braking .seek true).windlass.run = some { kind := .seek, dir := .heave })
      ∧ (let w : Windlass := { state := .running, delayTimer := some 3000, run := some { kind := .jog, dir := .heave }, count := 129
                               rodeValid := true }
         w.delayTimer = some 3000 ∧ w.endDistance { kind := .jog, dir := .heave } = some 129 ∧ (129 : Int) ≤ w.toCounts w.settings.slowZone
           ∧ w.toCounts w.settings.slowZone < 130
           ∧ ({ w with count := 130 } : Windlass).endDistance { kind := .jog, dir := .heave } = some 130
           ∧ ({ w with rodeValid := false } : Windlass).endDistance { kind := .jog, dir := .heave } = none)
      ∧ (atWork.windlass.jamTimer = some 2500 ∧ atWork.windlass.underWay = true)
      ∧ (anchored.windlass.brakeTimer = none ∧ anchored.windlass.delayTimer = none ∧ anchored.windlass.jamTimer = none) := by
  decide +kernel
theorem test_meets_RunTimers_sweep :
    (atWork.windlass.state = .running ∧ anchored.windlass.state = .idle ∧ (allFault true).windlass.fault = some ⟨.jam, 0⟩)
      ∧ (let s := atWork.onInput 6 fun x => { x with scaled := atWork.windlass.settings.overCurrent + 1 }
         (s.windlass.settings.overCurrent : Int) < (s.input 6).scaled ∧ s.windlass.overWatch = none)
      ∧ (let s := atWork.onInput 1 fun x => { x with scaled := (atWork.input 1).settings.lowLimit - 1 }
         (s.input 1).faulted = false ∧ (s.input 1).scaled < (s.input 1).settings.lowLimit)
      ∧ (let w (c : Cause) (p : Option FaultRecord) : Windlass := { state := .stopping, stopCause := some c, pendingFault := p }
         (w .jam none).stopCause = some .jam ∧ Cause.jam.isFault = true ∧ Cause.target.isFault = false
           ∧ (w .target (some ⟨.sensorFault, 255⟩)).pendingFault = some ⟨.sensorFault, 255⟩) := by decide +kernel

theorem test_meets_WindlassSettles :
    anchored.windlass.settleTimer = none
      ∧ (let w (c : Cause) (p : Option FaultRecord) : Windlass := { state := .stopping, settleTimer := some 300, stopCause := some c
                                                                    pendingFault := p }
         (w .jam none).settleTimer = some 300 ∧ Cause.jam.isFault = true ∧ Cause.homeNotFound.isFault = true
           ∧ Cause.stopRequest.isFault = false ∧ (w .stopRequest (some ⟨.sensorFault, 2⟩)).pendingFault = some ⟨.sensorFault, 2⟩
           ∧ (w .stopRequest none).pendingFault = none ∧ (w .stopRequest none).homeFlag = false
           ∧ ({ w .target none with homeFlag := true } : Windlass).homeFlag = true
           ∧ ({ w .target none with run := some { kind := .seek, dir := .payOut } } : Windlass).run.map (·.kind) = some .seek) := by
  decide +kernel

/-- What the settle of the windlass posts: ANCHOR_HOME with the home flag, MOTION_DONE for END, MOTION_STOPPED with its cause, and
DECK_FAULT with its later count; the rode of 42,000 mm is 0xA410 (R153, R155). -/
theorem test_windlass_settle_notices :
    (let s (c : Cause) (home : Bool) : State :=
       { anchored with windlass := { anchored.windlass with state := .stopping, settleTimer := some 1300, stopCause := some c
                                                            homeFlag := home, stopLater := 2 }
                       bindings := [⟨1, .deck .anchorHome, .toggleChannel 2, 0⟩] }
     let t (c : Cause) (home : Bool) := done (exec .windlassSettleExpiry (s c home))
     ((t .target true).link.notices = [⟨.anchorHome, 3, [0x10, 0xA4, 0, 0], 1300⟩] ∧ (t .target true).bindings.map (·.fires) = [1])
       ∧ ((t .ended false).link.notices = [⟨.motionDone, 3, [0x10, 0xA4, 0, 0], 1300⟩] ∧ (t .ended false).bindings.map (·.fires) = [0])
       ∧ (t .stopRequest false).link.notices = [⟨.motionStopped, 3, [3, 0x10, 0xA4, 0, 0], 1300⟩]
       ∧ (t .jam false).link.notices = [⟨.deckFault, 3, [19, 2, 0x10, 0xA4, 0, 0], 1300⟩]) := by decide +kernel

/-! ## Roomline -/

/-- Entries of each class, oldest first: a class B one, a class C one, and a class A one. -/
def entryB : Entry := ⟨.b, .levels, 1, none, 0, false, false, false, false⟩
def entryC : Entry := ⟨.c, .setup, 2, none, 10, false, false, false, false⟩
def entryA : Entry := ⟨.a, .lamps, 5, none, 20, false, false, false, false⟩

/-- A lit part whose queue holds given entries. -/
def queued (q : List Entry) : State := { lit with bus := { queue := q } }

theorem test_meets_TransactionOpens :
    (full.bus.state ≠ .idle ∧ lit.bus.state = .idle)
      ∧ (let b : Bus := { pendingRelease := true }
         b.state = .idle ∧ b.pendingRelease = true)
      ∧ (lit.bus.pendingRelease = false ∧ lit.bus.queue = [])
      ∧ ((queued [entryB, entryC, entryA]).bus.queue = [entryB, entryC] ++ entryA :: []
        ∧ arbitrate 0 [entryB, entryC, entryA] = some [entryB, entryC].length)
      ∧ (arbitrate 600 [entryB, entryC] = some 1 ∧ arbitrate 510 [entryB, entryC] = some 0
        ∧ arbitrate 511 [entryB, entryC] = some 1)
      ∧ (arbitrate 0 [⟨.c, .identify, 3, none, 0, false, false, false, false⟩] = some 0
        ∧ arbitrate 0 [⟨.c, .status, 3, none, 0, false, false, false, false⟩] = some 0
        ∧ arbitrate 0 [⟨.c, .assign, 120, some (3, 7), 0, false, false, false, true⟩] = some 0
        ∧ arbitrate 0 [⟨.c, .release, 0, none, 0, false, false, false, false⟩] = some 0 ∧ arbitrate 0 [entryB] = some 0)
      ∧ ((lit.node 1).map (·.type) = some .dimmer4 ∧ arbitrate 0 [{ entryB with inFlight := true }] = none)
      ∧ ((lit.node 2).map (·.type) = some .switch8 ∧ (lit.node 3).map (·.type) = some .blind2 ∧ (lit.station 5).isSome = true
        ∧ arbitrate 0 [entryA] = some 0 ∧ entryA.kind = .lamps ∧ (∀ i : Fin 8, (0x01 : Byte).getLsbD i = decide (i.val = 0))) := by
  decide +kernel

/-- The bytes of a LEVELS transaction to a DIMMER4: four outputs and the check byte (R3, R4, R8). -/
theorem test_levels_on_the_wire :
    (let t := done (exec (.openTransaction true true) (queued [entryB]))
     t.bus.wire = [0x01, 0x04, 0, 0, 0xF4, 0x01, 0, 0, 0, 0, crc8 [0x01, 0x04, 0, 0, 0xF4, 0x01, 0, 0, 0, 0]]
       ∧ t.bus.state = .own ∧ (done (exec (.transactionEnd ⟨true, true, true, []⟩) t)).bus.state = .idle
       ∧ ((done (exec (.transactionEnd ⟨true, true, true, []⟩) t)).channels.map (·.lastSent)) = [some 0, some 500, none, none]) := by
  decide +kernel

/-- The bytes of LEVELS to a SWITCH8 with its first output on and to a BLIND2 with its first at 500, and of LAMPS with key 5 STEADY
(R8, R168). -/
theorem test_bitmap_and_lamps_on_the_wire :
    (let s : State :=
       { lit with channels := [{ cfg := ⟨3, 2, 1, .switch, 200, 7, 0, 1000⟩, current := 1000 },
                               { cfg := ⟨96, 3, 1, .blind, 300, 0, 0, 1000⟩, current := 500 }]
                  windlass := { count := 4714, rodeValid := true } }
     let wire (e : Entry) := (done (exec (.openTransaction true true) { s with bus := { queue := [e] } })).bus.wire
     wire { entryB with target := 2 } = [0x02, 0x04, 0x01, crc8 [0x02, 0x04, 0x01]]
       ∧ wire { entryB with target := 3 } = [0x03, 0x04, 0xF4, 0x01, 0, 0, crc8 [0x03, 0x04, 0xF4, 0x01, 0, 0]]
       ∧ wire entryA = [0x05, 0x05, 0x00, 0x01, crc8 [0x05, 0x05, 0x00, 0x01]]) := by decide +kernel

/-- A transaction to node 1 in flight, of a kind, with the record's misses. -/
def inFlight (k : TxKind) (misses : Nat) (followUp : Bool) : State :=
  { lit with
    nodes := [{ addr := 1, type := .dimmer4, serial := 11, state := .active, misses := misses }]
    bus := { state := .own, carried := .levels [(1, 300), (2, 400), (3, 0), (4, 0)]
             queue := [⟨.b, k, 1, none, 0, true, false, followUp, false⟩] } }

theorem test_meets_TransactionsEnd :
    (let e : Entry := ⟨.b, .levels, 1, none, 0, true, false, false, false⟩
     let s := inFlight .levels 1 false
     s.bus.state = .own ∧ s.bus.flying = some e ∧ e.enrol = false ∧ 1 ≤ e.target ∧ (s.node 1).isSome = true
       ∧ s.nodes = [{ addr := 1, type := .dimmer4, serial := 11, state := .active, misses := 1 }] ∧ e.kind = .levels
       ∧ s.bus.carried = .levels [(1, 300), (2, 400), (3, 0), (4, 0)] ∧ 1 < 2 ∧ e.followUp = false)
      ∧ (2 ≤ 2 ∧ ((inFlight .levels 2 true).node 1).map (·.misses) = some 2 ∧ NodeType.dimmer4 ≠ .station
        ∧ (inFlight .levels 2 true).bus.flying = some ⟨.b, .levels, 1, none, 0, true, false, true, false⟩)
      ∧ ((inFlight .levels 2 false).bus.flying = some ⟨.b, .levels, 1, none, 0, true, false, false, false⟩
        ∧ ((inFlight .levels 2 false).node 1).map (·.misses) = some 2)
      ∧ (let s : State := { lit with bus := { state := .own, carried := .lamps (.replicate 8 .slow), queue := [{ entryA with inFlight := true }] } }
         s.bus.state = .own ∧ s.bus.flying = some { entryA with inFlight := true } ∧ (s.node 5).isSome = true
           ∧ (s.node 5).map (fun r => (r.state, r.enrolHold)) = some (.active, false)
           ∧ s.bus.carried = .lamps (.replicate 8 .slow)) := by decide +kernel

/-- LAMPS that ends DONE leaves the states sent as last delivered; a third miss by the transaction timeout posts NODE_LOST with code 5
(R12, R34, R169). -/
theorem test_lamps_and_third_miss :
    (let s : State := { lit with bus := { state := .own, carried := .lamps (.replicate 8 .slow), queue := [{ entryA with inFlight := true }] } }
     (done (exec (.transactionEnd ⟨true, true, true, []⟩) s)).stations.map (·.delivered) = [some (.replicate 8 .slow)])
      ∧ (let t := done (exec .transactionTimeout (inFlight .levels 2 false))
         t.link.notices = [⟨.nodeLost, 1, [5], 20⟩] ∧ t.nodes.map (fun r => (r.state, r.retryTimer)) = [(.lost, some 1020)]
           ∧ t.bus.state = .idle ∧ t.bus.queue = []) := by decide +kernel

theorem test_meets_OthersAndRecovery :
    (full.bus.state = .own ∧ lit.bus.state ≠ .own ∧ lit.bus.state = .idle ∧ full.bus.state ≠ .idle)
      ∧ (({ state := .other } : Bus).state = .other ∧ lit.bus.state ≠ .other)
      ∧ (atWork.bus.state ≠ .recovery ∧ atWork.enrolment = none ∧ atWork.link.notices.length < 32)
      ∧ (let s : State := { atWork with windlassOwner := { owner := .station 5 }, hatchOwner := { owner := .station 5 } }
         s.windlassOwner.owner = .station 5 ∧ s.windlassOwner.stopDelivered = false ∧ s.windlass.underWay = true
           ∧ (s.ownerOf (moverResource .hatch)).owner = .station 5 ∧ (s.mover .hatch).state = .moving)
      ∧ (let s : State := { bus := { state := .recovery, recoveryRuns := 255, recoveryTimer := some 100 } }
         s.bus.recoveryTimer = some 100 ∧ (false = false ∨ true = false))
      ∧ lit.bus.recoveryTimer = none := by decide +kernel

theorem test_meets_KeyReportTaken :
    lit.bus.state = .idle
      ∧ (({ lit with bus := { state := .other, otherHead := some 0x7F } } : State).bus.state = .other)
      ∧ ([0x01, 0x81, 0x01, 0x81] : List Byte).length ≤ 4 ∧ (1 ≤ (4 : Byte).toNat ∧ (4 : Byte).toNat ≤ 119)
      ∧ [(0x01 : Byte), 0x81].map keyEvent? = [(⟨1, .press⟩ : KeyEvent), ⟨1, .release⟩].map some
      ∧ ((lit.node 4).map fun r => (r.type, r.state, r.addr)) = some (.keypad, .active, 4)
      ∧ (0x00 : Byte) ≠ crc8 [0x7F, 0x07, 0x04, 0x01, 0x01, 0x01]
      ∧ ((lit.node 5).map fun r => (r.type, r.state)) = some (.station, .active)
      ∧ ((ready.node 4).map fun r => (r.type, r.state)) = some (.keypad, .declared) ∧ ready.bus.state = .idle
      ∧ (lit.node 1).map (·.type) = some .dimmer4 ∧ (1 ≤ (119 : Byte).toNat ∧ (119 : Byte).toNat ≤ 119 ∧ lit.node 119 = none) := by
  decide +kernel

/-! ## Control stations -/

/-- The lit part at rest on deck with the rode at the max, for the windlass's end. -/
def station : State :=
  { lit with alloc := { limit := 20000 }, windlass := { count := 4714, rodeValid := true } }

theorem test_meets_StationMotions :
    ((station.ownerOf .hatch).confirm = none ∧ (atWork.ownerOf .platform).confirm = some 1100)
      ∧ (let s : State := { atWork with hatchOwner := { owner := .station 5, confirm := some 1100 }
                                        windlassOwner := { owner := .station 5, confirm := some 1100 }
                                        platformOwner := { owner := .station 5, confirm := some 1100, stopDelivered := true } }
         (s.ownerOf .hatch).confirm = some 1100 ∧ (s.ownerOf .hatch).owner = .station 5 ∧ (s.ownerOf .hatch).stopDelivered = false
           ∧ Resource.hatch = moverResource .hatch ∧ (s.mover .hatch).state = .moving ∧ s.windlass.underWay = true
           ∧ (s.ownerOf .platform).stopDelivered = true)
      ∧ (station.station 5).isSome = true ∧ station.mode = .run
      ∧ (∀ t ∈ station.stations, t.heldMapped 0x00 = [] ∧ t.heldMapped 0x41 = [1] ∧ t.heldMapped 0x60 = [6] ∧ t.heldMapped 0x61 = [1, 6]
        ∧ (t.function 1).motion = some (.hatch, .opening) ∧ t.mark 1 = none)
      ∧ (holds 0x41 7 = true ∧ holds 0x41 8 = false ∧ holds 0x01 7 = false ∧ holds 0xC1 8 = true)
      ∧ ((station.ownerOf .hatch).owner = .none ∧ (atWork.ownerOf .hatch).owner ≠ .none) := by decide +kernel
theorem test_meets_StationMotions_jogs :
    (station.jog .windlass .inward).2 = .ok ∧ (station.jog .windlass .out).2 = .atEnd
      ∧ (({ station with alloc := {} } : State).jog .windlass .inward).2 = .refused .noBudget := by decide +kernel

theorem test_meets_StationMotions_update :
    ((∀ t ∈ station.stations, t.heldMapped 0x69 = [1, 4, 6] ∧ t.mark 4 = none)
        ∧ ({ addr := 5, map := .replicate 6 .hatchOpen, spent := .replicate 6 (some .used) } : Station).mark 1 = some .used)
      ∧ ((∃ e ∈ [(⟨8, .press⟩ : KeyEvent)], e.key = 8 ∧ e.edge = .press) ∧ holds 0x80 8 = true ∧ holds 0x00 8 = false)
      ∧ ((atWork.ownerOf .platform).owner = .station 5 ∧ (atWork.ownerOf .platform).stopDelivered = false
        ∧ (atWork.ownerOf .platform).key = some 4 ∧ holds 0x48 7 = true ∧ holds 0x48 4 = true ∧ holds 0x08 7 = false
        ∧ holds 0x40 4 = false ∧ (atWork.ownerOf .hatch).owner ≠ .station 5) := by decide +kernel

theorem test_meets_StationMotions_answers :
    ((allFault true).windlass.state = .fault
        ∧ (let s : State := { station with windlass := { station.windlass with count := 4709 } }
           s.windlass.toCounts s.windlass.settings.maxRode - s.windlass.toCounts s.windlass.settings.stopBand = 4710
             ∧ s.windlass.count.toInt < 4710 ∧ s.windlass.state ≠ .fault)
        ∧ ({ station with windlass := { homeSw := true } } : State).windlass.homeSw = true ∧ ((faulted 6).input 6).faulted = true
        ∧ (station.startAdmission .windlass station.windlass.settings.g1 station.windlass.settings.inrush
            station.windlass.settings.inrushWindow).2 = true
        ∧ station.windlass.heaveFree = 500 ∧ ((500 : Uptime) - station.uptime).toNat ≤ 500)
      ∧ (let s (a : Int) : State := { (atRest.onInput 5 fun x => { x with scaled := a }) with
                                      platform := { atRest.platform with position := .between } }
         (s (atRest.platform.settings.deck - 11)).angle .platform < atRest.platform.settings.deck - 10
           ∧ atRest.platform.settings.deck + 10 < (s (atRest.platform.settings.deck + 11)).angle .platform
           ∧ ¬ (s (atRest.platform.settings.deck + 10)).angle .platform < atRest.platform.settings.deck - 10
           ∧ (s 0).platform.position = .between ∧ ((s 0).mover .platform).state = .atRest)
      ∧ (atRest.platform.position = .atDeck ∧ atRest.hatch.position = .closed ∧ (atRest.mover .hatch).state ≠ .fault
        ∧ (allFault true).hatch.state = .fault)
      ∧ ((faulted 4).angleFaulted .hatch = true ∧ ((faulted 3).input 3).faulted = true
        ∧ atRest.interlock .hatch (atRest.stowFlag .hatch .closed .opened) = true
        ∧ atWork.interlock .hatch false = false)
      ∧ ((pump .fault none).hpu.state = .fault ∧ (pump .ready (some .platform)).hpu.state = .ready
        ∧ (pump .starting (some .platform)).hpu.holder = some .platform ∧ (pump .starting none).hpu.holder = none
        ∧ (pump .runOn none).hpu.state = .runOn ∧ atRest.hpu.state = .off) := by decide +kernel

theorem test_meets_StationMotions_lamps :
    (let t : Station := { addr := 5, map := #v[.hatchOpen, .none, .none, .platformDown, .anchorOut, .anchorIn]
                          spent := #v[some .denied, none, none, none, none, none] }
     (KeyFunction.hatchOpen.motion = some (.hatch, .opening) ∧ KeyFunction.none.motion = none ∧ t.spent[0] = some .denied)
       ∧ ((atWork.ownerOf .platform).owner = .station t.addr ∧ (atWork.ownerOf .platform).dir = some .down
         ∧ KeyFunction.platformDown.motion = some (.platform, .down))
       ∧ (station.windlass.state = .idle ∧ station.windlass.rodeValid = true
         ∧ station.windlass.toCounts station.windlass.settings.maxRode
           - station.windlass.toCounts station.windlass.settings.stopBand ≤ station.windlass.count.toInt))
      ∧ ((station.station 5).bind (·.delivered) = none ∧ (station.node 5).map (·.state) = some .active
        ∧ (ready.station 5).isSome = true ∧ (ready.node 5).map (·.state) = some .declared
        ∧ station.bus.state ≠ .recovery ∧ station.mode ≠ .config ∧ station.bus.queue.length < 16
        ∧ 16 ≤ (List.replicate 16 entryC).length) := by decide +kernel

/-- A station's report that holds keys 7 and 6 starts a jog it owns, and one without key 7 ends it with RELEASED (R162, R163). -/
theorem test_station_jog :
    (let body : List Byte := [0x07, 0x05, 0x60, 0x01, 0x06]
     let t := done (exec (.keyReport (body ++ [crc8 (0x7F :: body)])) station)
     t.windlass.state = .starting ∧ t.windlassOwner.owner = .station 5 ∧ t.windlassOwner.confirm = some 150
       ∧ (let body : List Byte := [0x07, 0x05, 0x20, 0x01, 0x87]
          let u := done (exec (.keyReport (body ++ [crc8 (0x7F :: body)])) t)
          u.windlass.state = .stopping ∧ u.windlass.stopCause = some .released ∧ u.windlassOwner.stopDelivered = true)) := by
  decide +kernel

/-! ## Room nodes and enrolment -/

/-- The lit part with one node in a state, its timers running, and a queue. -/
def node (st : NodeState) (q : List Entry) : State :=
  { mode := .run, nodes := [{ addr := 1, type := .dimmer4, serial := 0, state := st, retryTimer := some 1000, pollTimer := some 250 }]
    bus := { queue := q } }

theorem node_ordered (st : NodeState) (q : List Entry) : (node st q).Ordered :=
  ⟨by simp [node, Rising], by simp [node, Rising], by simp [node, Rising], by simp [node, Rising], by simp [node, Rising],
    fun m h => absurd h (by simp [node]), fun m h => absurd h (by simp [node])⟩

theorem test_meets_NodeBringUp :
    ((lit.node 1).bind (·.retryTimer) = none ∧ (lit.node 1).bind (·.pollTimer) = none ∧ (lit.node 99).bind (·.pollTimer) = none)
      ∧ ((node .lost []).node 1).bind (·.retryTimer) = some 1000 ∧ ((node .active []).node 1).bind (·.pollTimer) = some 250
      ∧ ((node .lost []).mode ≠ .config ∧ (node .lost []).bus.state ≠ .recovery)
      ∧ ((node .lost (.replicate 15 entryC)).bus.queue.length < 16 ∧ 16 ≤ (node .mismatch (.replicate 16 entryC)).bus.queue.length)
      ∧ (∀ x ∈ (node .active [entryC]).bus.queue, ¬ (x.kind = .status ∧ x.target = 1))
      ∧ (∃ x ∈ (node .active [⟨.c, .status, 1, none, 0, false, false, false, false⟩]).bus.queue, x.kind = .status ∧ x.target = 1)
      ∧ ((node .identify []).nodes = [{ addr := 1, type := .dimmer4, serial := 0, state := .identify, retryTimer := some 1000, pollTimer := some 250 }]
        ∧ NodeType.dimmer4 = .dimmer4 ∧ (0 : Serial) = 0 ∧ NodeType.switch8 ≠ .dimmer4) := by decide +kernel
theorem test_meets_NodeBringUp_ordered : (node .identify []).Ordered ∧ (node .mismatch []).Ordered :=
  ⟨node_ordered _ _, node_ordered _ _⟩

/-- A part with one record of a type in a state, by its flags. -/
def bringUp (ty : NodeType) (st : NodeState) (adopt back : Bool) : State :=
  { mode := .run, nodes := [{ addr := 1, type := ty, serial := 5, state := st, misses := 2, adoptionPending := adopt, returnFlag := back }]
    channels := [{ cfg := ⟨1, 1, 1, .dim, 100, 1, 0, 1000⟩, untouched := true }, { cfg := ⟨2, 1, 4, .dim, 100, 1, 0, 1000⟩, untouched := false }]
    stations := [{ addr := 1, map := #v[.hatchOpen, .none, .none, .none, .none, .anchorIn] }] }

theorem bringUp_ordered (ty : NodeType) (st : NodeState) (adopt back : Bool) : (bringUp ty st adopt back).Ordered :=
  ⟨by simp [bringUp, Rising], by simp [bringUp, Rising], by simp [bringUp, Rising], by simp [bringUp, Rising], by simp [bringUp, Rising],
    fun m h => absurd h (by simp [bringUp]), fun m h => absurd h (by simp [bringUp])⟩

theorem test_meets_NodeBringUp_setup :
    [NodeType.dimmer4, .switch8, .blind2, .keypad, .station].all (fun ty =>
        ((bringUp ty (.setup .awaitSetup) false true).node 1).map (fun r => (r.type, r.state, r.returnFlag, r.enrolHold))
            == some (ty, .setup .awaitSetup, true, false)
          && ((bringUp ty (.setup .awaitStatus) true false).node 1).map (fun r => (r.type, r.state, r.adoptionPending))
            == some (ty, .setup .awaitStatus, true)) = true
      ∧ (bringUp .dimmer4 .identify false false).mode ≠ .config ∧ TxOutcome.busFault ≠ .done ∧ TxOutcome.noAckHead ≠ .busFault
      ∧ (∃ x ∈ [(⟨.c, .status, 1, none, 0, false, false, false, false⟩ : Entry)], x.kind = .status ∧ x.target = 1)
      ∧ (full.bus.queue.length = 16 ∧ ∀ x ∈ full.bus.queue, ¬ (x.kind = .status ∧ x.target = 1))
      ∧ ((bringUp .station .active false false).node 1).map (fun r => (r.type, r.state, r.misses)) = some (.station, .active, 2)
      ∧ ((atWork.ownerOf .platform).owner = .station 5 ∧ (atWork.ownerOf .platform).stopDelivered = false) := by decide +kernel
theorem test_meets_NodeBringUp_setup_ordered (ty : NodeType) (st : NodeState) (adopt back : Bool) :
    (bringUp ty st adopt back).Ordered := bringUp_ordered ty st adopt back

/-- A bring-up read with adoption pending gives its levels to the untouched channel alone (R32, R57). -/
theorem test_adoption :
    (let t := (bringUp .dimmer4 (.setup .awaitStatus) true false).nodeOutcome .status 1 .done (.status (.dimmer [10, 20, 30, 40] 8))
     t.channels.map (·.current) = [10, 0] ∧ (t.node 1).map (fun r => (r.state, r.misses, r.faultBits, r.adoptionPending, r.pollTimer))
       = some (.active, 0, some 8, false, some 250)) := by decide +kernel

theorem test_meets_NodeTableEdits :
    (ready.mode = .config ∧ ready.store.state ≠ .saving ∧ ready.enrolment = none)
      ∧ (1 ≤ 119 ∧ 119 ≤ 119 ∧ nodeType? 5 = some .station ∧ nodeType? 1 = some .dimmer4)
      ∧ (ready.node 119 = none ∧ ready.nodes.length < 48 ∧ 48 ≤ (List.replicate 48 (1 : Nat)).length)
      ∧ ((ready.node 1).map (·.type) = some .dimmer4 ∧ NodeType.dimmer4 ≠ .switch8 ∧ ∃ c ∈ ready.channels, c.cfg.node = 1)
      ∧ (let s : State := { nodes := (List.range 48).map fun n => { addr := n + 1, type := .keypad, serial := 0 } }
         s.node 119 = none ∧ 48 ≤ s.nodes.length)
      ∧ (0 < 1 ∧ 119 < 120 ∧ nodeType? 0 = none ∧ nodeType? 6 = none)
      ∧ (let s : State := { nodes := [{ addr := 5, type := .station, serial := 7 }, { addr := 6, type := .switch8, serial := 8 }]
                            stations := [{ addr := 5 }], bindings := [⟨1, .key 6 1 .press, .takeScene 1, 0⟩] }
         (s.node 5).map (·.type) = some .station ∧ NodeType.station ≠ .keypad ∧ (∀ t ∈ s.stations, ∀ f ∈ t.map.toList, f = .none)
           ∧ (∀ c ∈ s.channels, c.cfg.node ≠ 5) ∧ s.bindings.map (·.trigger) = [.key 6 1 .press] ∧ s.enrolment = none
           ∧ (s.node 6).map (·.type) = some .switch8)
      ∧ (∃ t ∈ lit.stations, t.addr = 5 ∧ ∃ f ∈ t.map.toList, f ≠ .none) := by decide +kernel
theorem test_meets_NodeTableEdits_removal :
    (let s : State := { lit with mode := .config }
     s.mode = .config ∧ s.store.state ≠ .saving ∧ (s.node 2).isSome = true ∧ s.enrolment = none
       ∧ (s.channels.filter fun c => c.cfg.node = 2).map (·.cfg.num) = [3]
       ∧ s.scenes.map (fun sc => sc.entries.map (·.channel)) = [[1, 3], [3]] ∧ s.node 119 = none) := by decide +kernel
theorem test_meets_NodeTableEdits_ordered : ({ lit with mode := .config } : State).Ordered := lit_ordered

theorem test_remove_node_takes_uses :
    (let t := done (exec (.removeNode 1 2) { lit with mode := .config })
     t.nodes.map (·.addr) = [1, 3, 4, 5] ∧ t.channels.map (·.cfg.num) = [1, 2, 96] ∧ t.scenes = [⟨1, 400, [⟨1, 700⟩]⟩]
       ∧ t.bindings.map (·.slot) = [2]) := by decide +kernel

/-- An enrolment of address 9 in a phase. -/
def enrolling (p : EnrolPhase) : State :=
  { ready with enrolment := some { addr := 9, type := .keypad, phase := p, serial := 7, retryTimer := some 100 } }

/-- The held place counts: with 47 records and an enrolment of a new address, another new address is FULL. -/
def placeHeld : State :=
  { nodes := (List.range 47).map fun n => { addr := n + 1, type := .keypad, serial := 0 }, enrolment := some { addr := 119, type := .keypad } }

theorem test_meets_NodeTableEdits_held :
    placeHeld.enrolment = some { addr := 119, type := .keypad } ∧ placeHeld.node 119 = none ∧ placeHeld.node 118 = none
      ∧ placeHeld.nodes.length + 1 = 48 ∧ placeHeld.enrolment.all (fun e => e.addr ≠ 118 && e.addr == 119) = true := by decide +kernel

/-- The lit part, in RUN, with an enrolment of an address in a phase, and its transaction in flight. -/
def enrolsInRun (addr : Nat) (ty : NodeType) (p : EnrolPhase) : State :=
  { lit with enrolment := some { addr := addr, type := ty, phase := p, serial := 7 }
             bus := { state := .own, queue := [⟨.c, .identify, 120, none, 0, true, false, false, true⟩] } }

theorem test_meets_EnrolmentRuns :
    (1 ≤ 119 ∧ 119 ≤ 119 ∧ nodeType? 4 = some .keypad)
      ∧ (ready.enrolment = none ∧ ready.store.state ≠ .saving ∧ ready.node 119 = none ∧ ready.nodes.length < 48
        ∧ ready.QueueRoom ∧ 16 ≤ (List.replicate 16 entryC).length ∧ full.bus.state ≠ .recovery ∧ full.bus.queue.length = 16)
      ∧ ((ready.node 4).map (fun r => (r.state, r.type)) = some (.declared, .keypad) ∧ NodeState.declared ≠ .active)
      ∧ ((enrolling .search).enrolment.isSome = true ∧ ({ store := saving } : State).store.state = .saving)
      ∧ ((lit.node 1).map (·.state) = some .active ∧ (ready.node 1).map (·.type) = some .dimmer4 ∧ NodeType.dimmer4 ≠ .keypad)
      ∧ ((enrolling .search).enrolment = some { addr := 9, type := .keypad, phase := .search, serial := 7, retryTimer := some 100 }
        ∧ (enrolling .deferred).enrolment.bind (·.retryTimer) = some 100)
      ∧ ready.enrolment.bind (·.retryTimer) = none
      ∧ ((enrolling .deferred).enrolment = some { addr := 9, type := .keypad, phase := .deferred, serial := 7, retryTimer := some 100 }
        ∧ (enrolling .deferred).store.state ≠ .saving ∧ (enrolling .deferred).mode = .config ∧ (enrolling .deferred).node 9 = none)
      ∧ EnrolPhase.search ≠ .deferred
      ∧ (let s : State := { nodes := (List.range 48).map fun n => { addr := n + 1, type := .keypad, serial := 0 } }
         s.enrolment = none ∧ s.node 119 = none ∧ 48 ≤ s.nodes.length) := by
  unfold State.QueueRoom; decide +kernel
theorem test_meets_EnrolmentRuns_outcomes :
    [EnrolPhase.search, .assign, .confirm].all (fun p =>
        (enrolsInRun 119 .station p).enrolment == some { addr := 119, type := .station, phase := p, serial := 7 }) = true
      ∧ NodeType.station ≠ .keypad ∧ (7 : Serial) ≠ 8 ∧ TxOutcome.checkFail ≠ .done
      ∧ (let s := enrolsInRun 119 .station .search
         s.bus.state = .own ∧ s.bus.flying = some ⟨.c, .identify, 120, none, 0, true, false, false, true⟩ ∧ s.bus.carried = .none
           ∧ TxKind.identify ≠ .release)
      ∧ (full.bus.flying = some ⟨.c, .identify, 1, none, 0, true, false, false, false⟩ ∧ full.bus.carried = .none)
      ∧ ((enrolsInRun 3 .blind2 .deferred).node 3).map (·.state) = some .declared := by decide +kernel

/-- The update of an enrolment in RUN puts the new station into IDENTIFY with a key map of NONE, and asks for it (R42, R160). -/
theorem test_enrolled_in_run :
    (let t := done (exec .enrolDeferredUpdate { enrolsInRun 119 .station .deferred with bus := {} })
     t.enrolment = none ∧ (t.node 119).map (fun r => (r.state, r.serial, r.adoptionPending)) = some (.identify, 7, false)
       ∧ t.station 119 = some { addr := 119 } ∧ t.bus.queue.map (fun e => (e.kind, e.target)) = [(.identify, 119)]
       ∧ t.link.notices = [⟨.enrolDone, 119, [5, 7, 0, 0, 0], 0⟩]) := by decide +kernel

/-! ## The reads -/

theorem test_meets_ReadsChangeNothing :
    ((lit.channel 96).isSome = true ∧ lit.channel 95 = none ∧ 0 ≤ 96 ∧ 96 ≤ 96)
      ∧ ((lit.scene 64).isSome = true ∧ lit.scene 2 = none ∧ (lit.binding 64).isSome = true ∧ lit.binding 3 = none)
      ∧ ((lit.node 1).isSome = true ∧ lit.node 119 = none ∧ 1 ≤ 1 ∧ 119 ≤ 119)
      ∧ (1 ≤ 8 ∧ 8 ≤ 8)
      ∧ ((lit.node 5).map (·.type) = some .station ∧ (lit.station 5).isSome = true) := by decide +kernel

end Sys2Proof.Tests
end

section
/-!
PROOFS. The link's own requests (chapter 10): STATUS, READ_NOTICES, LINK_STATS and SET_SUPERVISION. First the layers they stand on:
a request's payload, what the reply and a received frame leave of the link port, and what a reset and a load leave of it.
-/

namespace Sys2Proof.Machine

/-! ## Payloads of a fixed length (R174, R184) -/

theorem sized_fits {p : List Byte} {n : Nat} {i : Instr} (h : p.length = n) : sized p n i = .command i := if_pos h

theorem sized_misfit {p : List Byte} {n : Nat} {i : Instr} (h : p.length ≠ n) : sized p n i = .badLength := if_neg h

@[simp] theorem field_byte (b : Byte) (p : List Byte) : field (b :: p) 0 1 = b.toNat := by simp [field, leNat]

@[simp] theorem field_word (lo hi : Byte) (p : List Byte) : field (lo :: hi :: p) 0 2 = lo.toNat + 256 * hi.toNat := by
  simp [field, leNat]

theorem parseRequest_readNotices (tag : Byte) (p : List Byte) :
    parseRequest 0x02 tag p = sized p 1 (.readNotices tag (field p 0 1)) := rfl

theorem parseRequest_setSupervision (tag : Byte) (p : List Byte) :
    parseRequest 0x04 tag p = sized p 2 (.setSupervision tag (field p 0 2)) := rfl

/-- A kind without operands takes the empty payload, and answers BAD_LENGTH to any other. -/
theorem sized_zero (p : List Byte) (i : Instr) : (p = [] → sized p 0 i = .command i) ∧ (p ≠ [] → sized p 0 i = .badLength) :=
  ⟨fun h => sized_fits (by simp [h]), fun h => sized_misfit (by simpa using h)⟩

/-! ## Bytes -/

@[simp] theorem leBytes_one (v : Nat) : leBytes 1 v = [BitVec.ofNat 8 v] := rfl

@[simp] theorem leBytes_length (n v : Nat) : (leBytes n v).length = n := by
  induction n generalizing v with
  | zero => rfl
  | succ n ih => simp [leBytes, ih]

/-- A field spells the number it was made from, as far as its width goes. -/
theorem leNat_leBytes (n v : Nat) : leNat (leBytes n v) = v % 256 ^ n := by
  induction n generalizing v with
  | zero => simp [leBytes, leNat, Nat.mod_one]
  | succ n ih =>
    calc leNat (leBytes (n + 1) v) = v % 256 + 256 * (v / 256 % 256 ^ n) := by rw [leBytes, leNat, ih, BitVec.toNat_ofNat]
      _ = v % 256 ^ (n + 1) := by rw [Nat.pow_succ', Nat.mod_mul]

/-- The two CRC bytes of a frame spell its CRC (R171). -/
theorem ofNat_leNat_leBytes_two (c : BitVec 16) : BitVec.ofNat 16 (leNat (leBytes 2 c.toNat)) = c := by
  have hlt : c.toNat % 256 ^ 2 = c.toNat := Nat.mod_eq_of_lt c.isLt
  rw [leNat_leBytes, hlt, BitVec.ofNat_toNat, BitVec.setWidth_eq]

theorem noticeBytes_eq (x : Notice) :
    noticeBytes x = [BitVec.ofNat 8 x.kind.code, BitVec.ofNat 8 x.source, BitVec.ofNat 8 x.data.length] ++ x.data
      ++ leBytes 4 x.time.toNat := rfl

theorem noticeBytes_length (x : Notice) : (noticeBytes x).length = x.data.length + 7 := by
  simp [noticeBytes]

/-! ## What the reply path leaves of the link port (R173, R174) -/

section
variable (l : Link) (k t : Byte) (st : Status) (d : ReplyData)

@[simp] theorem Link.answer_notices : (l.answer k t st d).notices = l.notices := by
  obtain ⟨_, _, _, _, _, e, -⟩ := l.answer_frame k t st d; rw [e]

@[simp] theorem Link.answer_overflow : (l.answer k t st d).overflow = l.overflow := by
  obtain ⟨_, _, _, _, _, e, -⟩ := l.answer_frame k t st d; rw [e]

@[simp] theorem Link.answer_period : (l.answer k t st d).period = l.period := by
  obtain ⟨_, _, _, _, _, e, -⟩ := l.answer_frame k t st d; rw [e]

@[simp] theorem Link.answer_supervision : (l.answer k t st d).supervision = l.supervision := by
  obtain ⟨_, _, _, _, _, e, -⟩ := l.answer_frame k t st d; rw [e]

end

@[simp] theorem State.replied_link (s : State) (k t : Byte) (st : Status) (d : ReplyData) :
    (s.replied k t st d).link = s.link.answer k t st d := rfl

/-! ## A frame without payload (R171, R172) -/

/-- The bytes of a frame without payload that follow its start byte are found good. -/
theorem checkFrame_noPayload (kind tag : Byte) :
    checkFrame ([2, kind, tag] ++ leBytes 2 (crc16 [2, kind, tag]).toNat) = .good kind tag [] :=
  if_pos (ofNat_leNat_leBytes_two _).symm

/-- Received from HUNT, the last byte of a frame without payload completes it; the bytes before complete nothing. -/
theorem Link.receive_noPayload (now : Uptime) (l : Link) (kind tag : Byte) (h : l.rx = {}) :
    (frameBytes kind tag []).foldl (Link.receive now) l = (l.supervise now).takeFrame kind tag [] := by
  have hl : { l with rx := {} } = l := by rw [← h]
  have hc := checkFrame_noPayload kind tag
  simp [leBytes] at hc
  simp [frameBytes, leBytes, Link.receive, Receiver.take, h, hc, hl]

/-- A good frame changes none of the three error counts. -/
theorem Link.takeFrame_supervise_errors (now : Uptime) (l : Link) (k t : Byte) (p : List Byte) :
    ((l.supervise now).takeFrame k t p).gapErrors = l.gapErrors ∧ ((l.supervise now).takeFrame k t p).crcErrors = l.crcErrors
      ∧ ((l.supervise now).takeFrame k t p).framingErrors = l.framingErrors := by
  obtain ⟨_, _, _, _, _, e⟩ := (l.supervise now).takeFrame_frame k t p
  rw [e]; unfold Link.supervise; split <;> exact ⟨rfl, rfl, rfl⟩

/-! ## What a load and a reset leave of the link port (R192, R193) -/

@[simp] theorem State.loadImage_link (s : State) (m : Image) : (s.loadImage m).link = s.link := rfl

@[simp] theorem State.loadImage_resetCause (s : State) (m : Image) : (s.loadImage m).resetCause = s.resetCause := rfl

/-- A replacement of the configuration is refused with nothing changed, or is served. -/
theorem State.replaceConfig_cases (s : State) (k : Served) : (s.replaceConfig k).state = s ∨ s.replaceConfig k = k := by
  unfold State.replaceConfig; split
  · exact .inl rfl
  · split
    · exact .inl rfl
    · exact .inr rfl

/-- LOAD_SETTINGS leaves the link port as it was, but for its reply. -/
theorem exec_loadSettings_link (s t : State) (tag : Byte) (h : exec (.loadSettings tag) s = .next t) :
    ∃ st d, t.link = s.link.answer 0x0B tag st d := by
  have key (k : Served) (hk : k.state.link = s.link) : (s.replaceConfig k).state.link = s.link := by
    rcases s.replaceConfig_cases k with e | e
    · rw [e]
    · rw [e, hk]
  injection h with h
  subst h
  refine ⟨_, _, congrArg (fun l => Link.answer l 0x0B tag _ _) (key _ ?_)⟩
  split <;> rfl

@[simp] theorem State.queueRelease_link (s : State) : s.queueRelease.link = s.link := by
  unfold State.queueRelease; split <;> rfl

@[simp] theorem State.queueRelease_resetCause (s : State) : s.queueRelease.resetCause = s.resetCause := by
  unfold State.queueRelease; split <;> rfl

/-- A reset records its cause and leaves the link port at its reset values, but for a STORE_INVALID notice (R193). -/
theorem State.resetTo_frame (s : State) (cause : ResetCause) (lr1 lr0 : Bool) :
    (s.resetTo cause lr1 lr0).resetCause = cause
      ∧ ∃ ns o, (s.resetTo cause lr1 lr0).link = { rate := strapRate lr1 lr0, notices := ns, overflow := o } := by
  simp only [State.resetTo, State.reposition, State.queueRelease_resetCause, State.queueRelease_link, State.onMover_resetCause,
    State.onMover_link]
  split
  · exact ⟨rfl, [], 0, rfl⟩
  · exact ⟨rfl, Link.post_frame { rate := strapRate lr1 lr0 } _⟩

/-! ## The requests' operands and replies (R177, R178) -/

/-- 0 and any value above 8 are taken as 8, and every other value stands (R177). -/
theorem noticesWanted_eq {wanted n : Nat} (h8 : wanted = 0 ∨ 8 < wanted → n = 8) (hn : 1 ≤ wanted → wanted ≤ 8 → n = wanted) :
    noticesWanted wanted = n := by
  unfold noticesWanted; split <;> omega

/-- 0 stands, and every other period is brought within 200 to 10,000 (R178). -/
theorem supervisionPeriod_eq {period p : Nat} (h0 : period = 0 → p = 0) (hlow : 1 ≤ period → period ≤ 199 → p = 200)
    (hmid : 200 ≤ period → period ≤ 10000 → p = period) (hhigh : 10000 < period → p = 10000) : supervisionPeriod period = p := by
  unfold supervisionPeriod; split <;> omega

theorem exec_readNotices (s : State) (tag : Byte) (wanted : Nat) :
    exec (.readNotices tag wanted) s = .next
      ((s.onLink fun l => { l with notices := l.notices.drop (noticesWanted wanted), overflow := 0 }).replied 0x02 tag .ok
        (.notices s.link.overflow (s.link.notices.take (noticesWanted wanted)) (s.link.notices.drop (noticesWanted wanted)).length)) :=
  rfl

theorem exec_setSupervision (s : State) (tag : Byte) (period : Nat) :
    exec (.setSupervision tag period) s = .next
      ((s.onLink fun l =>
          { l with period := supervisionPeriod period,
                   supervision := if supervisionPeriod period = 0 then none else some (s.after (supervisionPeriod period)) }).replied
        0x04 tag .ok (.supervision (supervisionPeriod period))) :=
  rfl

/-- Full records of 13 bytes each, with two counts before them and one after (R177). -/
theorem ReplyData.notices_bytes_length (overflow left : Nat) (rs : List Notice) (h : ∀ x ∈ rs, x.data.length = 6) :
    (ReplyData.notices overflow rs left).bytes.length = 3 + 13 * rs.length := by
  have hrec : ∀ x ∈ rs, (noticeBytes x).length = 13 := fun x hx => by rw [noticeBytes_length, h x hx]
  have hsum : ((rs.map noticeBytes).map List.length).sum = rs.length * 13 := by
    rw [List.map_map, List.map_congr_left (f := List.length ∘ noticeBytes) hrec]; simp
  simp only [ReplyData.bytes, List.length_append, List.length_flatten, leBytes_length, hsum]; omega

end Sys2Proof.Machine

namespace Sys2Proof.Proofs

open Sys2Proof.Machine

/-! ## The statements -/

/-- Settles O18: the number wanted is clamped by `noticesWanted_eq`, and eight full records fill the reply by `notices_bytes_length`. -/
theorem readNoticesTakesOldest : Obligations.ReadNoticesTakesOldest := by
  refine ⟨fun tag p => ⟨?_, sized_misfit⟩, ?_, fun overflow left rs => ?_, fun overflow left rs h8 h => ?_⟩
  · rintro n rfl
    rw [parseRequest_readNotices, sized_fits (by rfl), field_byte]
  · intro s tag wanted n h8 hn
    rw [exec_readNotices, noticesWanted_eq h8 hn, List.length_drop]
  · simp [ReplyData.bytes, funext noticeBytes_eq]
  · rw [ReplyData.notices_bytes_length overflow left rs h, h8]

/-- Settles O20: the period is clamped by `supervisionPeriod_eq`, a load leaves the link port but for its reply, and a reset makes it
anew. -/
theorem setSupervisionPeriod : Obligations.SetSupervisionPeriod := by
  refine ⟨fun tag p => ⟨?_, sized_misfit⟩, ?_, fun s t tag h => ?_, fun s t c a b h => ?_⟩
  · rintro lo hi rfl
    rw [parseRequest_setSupervision, sized_fits (by rfl), field_word]
  · intro s tag period p h0 hlow hmid hhigh
    rw [exec_setSupervision, supervisionPeriod_eq h0 hlow hmid hhigh]; rfl
  · obtain ⟨st, d, e⟩ := exec_loadSettings_link s t tag h
    rw [e]; exact ⟨Link.answer_period .., Link.answer_supervision ..⟩
  · have hreset : ∃ cause, t = s.resetTo cause a b := by
      rcases h with h | h <;> injection h with h <;> exact ⟨_, h.symm⟩
    obtain ⟨cause, rfl⟩ := hreset
    obtain ⟨-, ns, o, e⟩ := s.resetTo_frame cause a b
    rw [e]; exact ⟨rfl, rfl⟩

/-- Settles O17: the reply leaves the notices and their count, and every reset records its cause. -/
theorem statusReply : Obligations.StatusReply := by
  refine ⟨fun tag p => sized_zero p _, fun s tag => ⟨rfl, rfl, ?_, ?_⟩, fun s a b => ⟨?_, ?_, ?_⟩⟩
  · exact Link.answer_notices ..
  · exact Link.answer_overflow ..
  · exact ⟨_, rfl, (s.resetTo_frame .power a b).1⟩
  · exact ⟨_, rfl, (s.resetTo_frame .pin a b).1⟩
  · exact ⟨_, rfl, (s.resetTo_frame .restart a b).1⟩

/-- Settles O19: the counts are set to 0 under the reply, and the request's own frame is found good. -/
theorem linkStatsClearsCounts : Obligations.LinkStatsClearsCounts := by
  refine ⟨fun tag p => sized_zero p _, fun s tag => ⟨rfl, rfl⟩, fun s t tag hrx h => ?_⟩
  injection h with h
  subst h
  have hframe := Link.receive_noPayload s.uptime s.link 0x03 tag hrx
  rw [State.onLink_link, hframe]
  exact Link.takeFrame_supervise_errors ..

end Sys2Proof.Proofs
end

section
/-!
PROOFS. The bounds of the outbound queue (section 1.6): a recovery run believes its timer alone, and so a state whose recovery timer
runs outside RECOVERY loses the bound.
-/

namespace Sys2Proof.Proofs

open Sys2Proof.Machine

/-- A part in OWN with its RELEASE in flight and a recovery timer that runs: its queue meets `Bus.Bounded`. -/
def ownWithRecoveryTimer : State :=
  { pending := [.recoveryRun true true]
    bus := { state := .own, recoveryTimer := some 0
             queue := [{ cls := .c, kind := .release, target := 0, queued := 0, inFlight := true }] } }

theorem ownWithRecoveryTimer_bounded : ownWithRecoveryTimer.bus.Bounded :=
  ⟨by decide, by decide, fun h => absurd rfl h, nofun⟩

/-- The run takes the bus to IDLE and leaves the entry in flight. -/
theorem ownWithRecoveryTimer_step :
    ∃ t, step ownWithRecoveryTimer = .next t ∧ t.bus.state = .idle ∧ ∃ e ∈ t.bus.queue, e.inFlight = true :=
  ⟨_, rfl, rfl, _, List.mem_cons_self, rfl⟩

/-- Refutes O7, in its third part: RECOVERY_RUN looks at the recovery timer and not at the bus state, and takes a bus in OWN to IDLE
with its entry still in flight. No part comes to such a state, but the statement is over every state that meets the bounds. -/
theorem not_boundsKept : ¬ Obligations.BoundsKept := by
  rintro ⟨-, -, hbus⟩
  obtain ⟨t, ht, hidle, e, he, hflight⟩ := ownWithRecoveryTimer_step
  obtain ⟨-, -, hnone, -⟩ := hbus _ t ownWithRecoveryTimer_bounded ht
  have := hnone (by simp [hidle]) e he
  simp [hflight] at this

end Sys2Proof.Proofs
end

section
/-!
PROOFS. What every operation keeps: the frame of a block's operation, the four laws of Safety.lean, and how they compose.
-/

namespace Sys2Proof.Machine

/-! ## What the laws look at -/

/-- The receiver, the request queue, the reply path and the rate of the link port. -/
def Link.port (l : Link) : Link :=
  { rate := l.rate, rx := l.rx, requests := l.requests, handed := l.handed, fullReplies := l.fullReplies, replies := l.replies
    sending := l.sending, restartDue := l.restartDue }

/-- The pieces of the state that no operation of a block changes outside its own chapter. -/
def State.fixed (s : State) : List Instr × ResetCause × Bool × Link := (s.pending, s.resetCause, s.bootValid, s.link.port)

/-- What the law of the deck looks at. -/
def State.deckView (s : State) : Hpu × Mover × Mover × OwnerRecord × OwnerRecord × Mode × Bool :=
  (s.hpu, s.hatch, s.platform, s.hatchOwner, s.platformOwner, s.mode, s.alloc.hpuGrant.isSome)

/-- What the law of the windlass looks at. -/
def State.windlassView' (s : State) : Windlass × OwnerRecord × Mode × Bool :=
  (s.windlass, s.windlassOwner, s.mode, s.alloc.windlassGrant.isSome)

/-- The keys of the tables, and the store with its images. -/
def State.keys (s : State) : List Nat × List Nat × List Nat × List Nat × List Nat × Store :=
  (s.nodes.map (·.addr), s.channels.map (·.cfg.num), s.scenes.map (·.num), s.bindings.map (·.slot), s.stations.map (·.addr), s.store)

theorem State.DeckLaw.of_view {s t : State} (h : t.deckView = s.deckView) (g : s.DeckLaw) : t.DeckLaw := by
  simp only [State.deckView, Prod.mk.injEq] at h
  obtain ⟨h1, h2, h3, h4, h5, h6, h7⟩ := h
  have hm : ∀ m, t.mover m = s.mover m := by intro m; cases m <;> assumption
  have ho : ∀ m, t.ownerOf (moverResource m) = s.ownerOf (moverResource m) := by intro m; cases m <;> assumption
  constructor <;> simp only [h1, h6, h7, hm, ho]
  exacts [g.contactor, g.granted, g.unheld, g.runOn, g.holder, g.waiter, g.moving, g.valves, g.timers, g.unowned, g.config]

theorem State.WindlassLaw.of_view {s t : State} (h : t.windlassView' = s.windlassView') (g : s.WindlassLaw) : t.WindlassLaw := by
  simp only [State.windlassView', Prod.mk.injEq] at h
  obtain ⟨h1, h2, h3, h4⟩ := h
  constructor <;> simp only [h1, h2, h3, h4]
  exacts [g.oneWay, g.behind, g.closed, g.granted, g.timers, g.unowned, g.config]

theorem State.Ordered.of_keys {s t : State} (h : t.keys = s.keys) (g : s.Ordered) : t.Ordered := by
  simp only [State.keys, Prod.mk.injEq] at h
  obtain ⟨h1, h2, h3, h4, h5, h6⟩ := h
  simpa only [State.Ordered, h1, h2, h3, h4, h5, h6] using g

theorem State.ClassLaw.of_classes {s t : State} (h : t.alloc.classes = s.alloc.classes) (g : s.ClassLaw) : t.ClassLaw := by
  simpa only [State.ClassLaw, State.classState, h] using g

/-! ## Operations that keep them -/

/-- An operation that leaves the frame and keeps the laws of the classes and of the tables. -/
structure Calm (s t : State) : Prop where
  fixed : t.fixed = s.fixed
  classLaw : s.ClassLaw → t.ClassLaw
  ordered : s.Ordered → t.Ordered

/-- An operation that leaves the frame and the mode and keeps every law. -/
structure Kept (s t : State) : Prop where
  calm : Calm s t
  mode : t.mode = s.mode
  deckLaw : s.DeckLaw → t.DeckLaw
  windlassLaw : s.WindlassLaw → t.WindlassLaw

variable {s t u : State}

theorem Calm.refl : Calm s s := ⟨rfl, id, id⟩

theorem Calm.trans (h : Calm s t) (g : Calm t u) : Calm s u :=
  ⟨g.fixed.trans h.fixed, g.classLaw ∘ h.classLaw, g.ordered ∘ h.ordered⟩

theorem Calm.of_views (h1 : t.fixed = s.fixed) (h2 : t.alloc.classes = s.alloc.classes) (h3 : t.keys = s.keys) : Calm s t :=
  ⟨h1, .of_classes h2, .of_keys h3⟩

theorem Kept.refl : Kept s s := ⟨.refl, rfl, id, id⟩

theorem Kept.trans (h : Kept s t) (g : Kept t u) : Kept s u :=
  ⟨h.calm.trans g.calm, g.mode.trans h.mode, g.deckLaw ∘ h.deckLaw, g.windlassLaw ∘ h.windlassLaw⟩

/-- A calm operation that leaves what the laws of the deck and the windlass look at. -/
theorem Kept.of_calm (h : Calm s t) (hd : t.deckView = s.deckView) (hw : t.windlassView' = s.windlassView') : Kept s t :=
  ⟨h, by simp only [State.deckView, Prod.mk.injEq] at hd; exact hd.2.2.2.2.2.1, .of_view hd, .of_view hw⟩

/-- An operation that leaves all that the laws look at. -/
theorem Kept.of_views (h1 : t.fixed = s.fixed) (h2 : t.alloc.classes = s.alloc.classes) (h3 : t.keys = s.keys)
    (hd : t.deckView = s.deckView) (hw : t.windlassView' = s.windlassView') : Kept s t :=
  .of_calm (.of_views h1 h2 h3) hd hw

/-- A fold of operations that keep the laws keeps them. -/
theorem Kept.foldl {α : Type} (f : State → α → State) (h : ∀ s x, Kept s (f s x)) (xs : List α) (s : State) :
    Kept s (xs.foldl f s) := by
  induction xs generalizing s with
  | nil => exact .refl
  | cons x xs ih => exact (h s x).trans (ih _)

/-! ## The shared operations (Ops.lean) -/

variable (s)

theorem Link.post_port (l : Link) (n : Notice) : (l.post n).port = l.port := by
  unfold Link.post; split <;> rfl

theorem Kept.of_post (k : NoticeKind) (n : Nat) (d : List Byte) : Kept s (s.post k n d) :=
  .of_views (by simp [State.fixed, State.post, Link.post_port]) rfl rfl rfl rfl

theorem Kept.of_atMoment (e : Uptime) : Kept s (s.atMoment e) := by
  unfold State.atMoment; split
  · exact .refl
  · exact .of_views rfl rfl rfl rfl rfl

theorem Kept.of_onBus (f : Bus → Bus) : Kept s (s.onBus f) := .of_views rfl rfl rfl rfl rfl

theorem Kept.of_onSense (f : Sense → Sense) : Kept s (s.onSense f) := .of_views rfl rfl rfl rfl rfl

theorem Kept.of_onInput (i : Nat) (f : SenseInput → SenseInput) : Kept s (s.onInput i f) := .of_views rfl rfl rfl rfl rfl

theorem Kept.of_onEnrolment (f : Enrolment → Enrolment) : Kept s (s.onEnrolment f) := .of_views rfl rfl rfl rfl rfl

theorem Kept.of_onNode (a : Nat) (f : NodeRecord → NodeRecord) (hf : ∀ r, (f r).addr = r.addr) : Kept s (s.onNode a f) :=
  .of_views rfl rfl (by simp [State.keys, tableModify_keys _ hf]) rfl rfl

theorem Kept.of_onStation (a : Nat) (f : Station → Station) (hf : ∀ r, (f r).addr = r.addr) : Kept s (s.onStation a f) :=
  .of_views rfl rfl (by simp [State.keys, tableModify_keys _ hf]) rfl rfl

theorem Kept.of_onChannels (f : Channel → Channel) (hf : ∀ c, (f c).cfg.num = c.cfg.num) : Kept s (s.onChannels f) :=
  .of_views rfl rfl (by simp [State.keys, State.onChannels, Function.comp_def, hf]) rfl rfl

/-- A change of the allocator that leaves the classes and which motors hold a grant. -/
theorem Kept.of_onAlloc (f : Alloc → Alloc) (h1 : (f s.alloc).classes = s.alloc.classes)
    (h2 : (f s.alloc).hpuGrant.isSome = s.alloc.hpuGrant.isSome)
    (h3 : (f s.alloc).windlassGrant.isSome = s.alloc.windlassGrant.isSome) : Kept s (s.onAlloc f) :=
  .of_views rfl h1 rfl (by simp [State.deckView, h2]) (by simp [State.windlassView', h3])

/-- A grant record put in place of another of the same motor. -/
theorem Kept.of_setGrant (m : Motor) (g : Option Grant) (h : (s.grant m).isSome = g.isSome) : Kept s (s.setGrant m g) := by
  cases m
  · exact .of_onAlloc s (fun a => { a with hpuGrant := g }) rfl h.symm rfl
  · exact .of_onAlloc s (fun a => { a with windlassGrant := g }) rfl rfl h.symm

theorem Kept.of_queueTx (k : TxKind) (n : Nat) (a : Option (Nat × Serial)) (e : Bool) : Kept s (s.queueTx k n a e).1 := by
  obtain ⟨q, h⟩ := s.queueTx_frame k n a e
  rw [h]; exact .of_onBus s _

theorem Kept.of_askTx (k : TxKind) (n : Nat) : Kept s (s.askTx k n) := .of_queueTx s k n none false

theorem Calm.of_onHpu (f : Hpu → Hpu) : Calm s (s.onHpu f) := .of_views rfl rfl rfl

theorem Calm.of_onWindlass (f : Windlass → Windlass) : Calm s (s.onWindlass f) := .of_views rfl rfl rfl

theorem Calm.of_onMover (m : MoverId) (f : Mover → Mover) : Calm s (s.onMover m f) := by cases m <;> exact .of_views rfl rfl rfl

theorem Calm.of_onOwner (r : Resource) (f : OwnerRecord → OwnerRecord) : Calm s (s.onOwner r f) := by
  cases r <;> exact .of_views rfl rfl rfl

/-! ## Staging and events -/

theorem ChannelsStaged.keys {a b : List Channel} (h : ChannelsStaged a b) : b.map (·.cfg.num) = a.map (·.cfg.num) := by
  induction h with
  | nil => rfl
  | cons hx _ ih => rw [List.map_cons, List.map_cons, ih, ← hx]

theorem BindingsFired.keys {a b : List Binding} (h : BindingsFired a b) : b.map (·.slot) = a.map (·.slot) := by
  induction h with
  | nil => rfl
  | cons hx _ ih => rw [List.map_cons, List.map_cons, ih, ← hx]

theorem Kept.of_stage (n l f : Nat) : Kept s (s.stage n l f) := by
  obtain ⟨cs, h, hc⟩ := s.stage_frame n l f
  rw [h]; exact .of_views rfl rfl (by simp [State.keys, hc.keys]) rfl rfl

theorem Kept.of_take (n : Nat) (src : TakeSource) : Kept s (s.take n src) := by
  obtain ⟨cs, lt, h, hc⟩ := s.take_frame n src
  rw [h]; exact .of_views rfl rfl (by simp [State.keys, hc.keys]) rfl rfl

theorem Kept.of_offer (e : Trigger) : Kept s (s.offer e) := by
  obtain ⟨bs, cs, lt, h, hb, hc⟩ := s.offer_frame e
  rw [h]; exact .of_views rfl rfl (by simp [State.keys, hc.keys, hb.keys]) rfl rfl

/-! ## The load allocator (chapter 5) -/

/-- What an allocator's operation keeps: all but the law of the classes and the grants is left by its frame. -/
theorem Allocated.calm {s t : State} (h : Allocated s t) (hc : s.ClassLaw → t.ClassLaw) : Calm s t := by
  obtain ⟨a, cs, bs, lt, ns, o, e⟩ := h.frame
  have hch : t.channels.map (·.cfg.num) = s.channels.map (·.cfg.num) := by
    have key : ∀ {a b : List Channel}, List.Forall₂ (fun c c' : Channel =>
        { c' with staged := c.staged, untouched := c.untouched, ceiling := c.ceiling } = c) a b →
        b.map (·.cfg.num) = a.map (·.cfg.num) := by
      intro a b hab
      induction hab with
      | nil => rfl
      | cons hx _ ih => rw [List.map_cons, List.map_cons, ih, ← hx]
    exact key h.channels
  have hb := h.bindings.keys
  refine ⟨by rw [e]; rfl, hc, .of_keys ?_⟩
  rw [e] at hch hb ⊢
  simpa [State.keys] using ⟨hch, hb⟩

theorem Allocated.kept {s t : State} (h : Allocated s t) (hc : s.ClassLaw → t.ClassLaw)
    (hp : t.alloc.hpuGrant.isSome = s.alloc.hpuGrant.isSome) (hw : t.alloc.windlassGrant.isSome = s.alloc.windlassGrant.isSome) :
    Kept s t := by
  refine .of_calm (h.calm hc) ?_ ?_ <;> obtain ⟨a, cs, bs, lt, ns, o, e⟩ := h.frame <;> rw [e] at hp hw ⊢ <;>
    simpa [State.deckView, State.windlassView']

/-- The state of a class after one class has been set (R84). -/
theorem State.classState_setIfInBounds {s t : State} {k : Nat} {c : ClassState} (hk : k ≤ 7)
    (h : t.alloc.classes = s.alloc.classes.setIfInBounds k c) (j : Nat) :
    t.classState j = if j = k then c else s.classState j := by
  unfold State.classState
  rw [h, Vector.getElem?_setIfInBounds]
  by_cases hj : j = k
  · subst hj; simp [show j < 8 by omega]
  · simp [hj, Ne.symm hj]

theorem State.classState_shedClass (k : Nat) (c : ShedCause) (h : Int) (hk : k ≤ 7) (j : Nat) :
    (s.shedClass k c h).classState j = if j = k then .shed else s.classState j :=
  State.classState_setIfInBounds hk (by rw [State.shedClass_alloc]) j

/-- The class that holds the SHED range at its back: every class above it is SHED, it is not, and those below are NORMAL. -/
def State.Front (s : State) (k : Nat) : Prop :=
  k ≤ 7 ∧ (∀ j, k < j → j ≤ 7 → s.classState j = .shed) ∧ s.classState k ≠ .shed ∧ (∀ j, j < k → s.classState j = .normal)
    ∧ s.classState 0 = .normal

/-- The front class, other than class 0, joins the SHED range. -/
theorem State.Front.shed {s t : State} {k : Nat} (h : s.Front (k + 1))
    (ht : ∀ j, t.classState j = if j = k + 1 then .shed else s.classState j) : t.Front k := by
  obtain ⟨h7, habove, -, hbelow, h0⟩ := h
  refine ⟨by omega, fun j hj hj7 => ?_, ?_, fun j hj => ?_, by simp [ht, h0]⟩
  · rw [ht]; split
    · rfl
    · exact habove j (by omega) hj7
  · simp [ht, hbelow k (by omega)]
  · rw [ht, if_neg (by omega)]; exact hbelow j (by omega)

/-- The class a walk down from 7 meets first that is not SHED is the front class. -/
theorem State.Front.topUnshed {s : State} {k : Nat} (h : s.Front k) : s.topUnshed 7 = if k = 0 then none else some k := by
  obtain ⟨h7, habove, hk, hbelow, h0⟩ := h
  have key : ∀ n, n ≤ 7 → k ≤ n → s.topUnshed n = if k = 0 then none else some k := by
    intro n
    induction n with
    | zero => intro _ hn; simp [State.topUnshed, Nat.le_zero.mp hn]
    | succ n ih =>
      intro hn hkn
      unfold State.topUnshed
      by_cases he : k = n + 1
      · subst he; simp [hk]
      · rw [if_pos (habove (n + 1) (by omega) hn)]; exact ih (by omega) (by omega)
  exact key 7 (by omega) h7

theorem State.Front.lowestShed {s : State} {k j : Nat} (h : s.Front k) (hj : s.lowestShed = some j) : j = k + 1 ∧ j ≤ 7 := by
  obtain ⟨h7, habove, hk, hbelow, h0⟩ := h
  have hs : s.classState j = .shed := by simpa using List.find?_some hj
  have hmem : j ∈ [1, 2, 3, 4, 5, 6, 7] := List.mem_of_find?_eq_some hj
  have hj7 : 1 ≤ j ∧ j ≤ 7 := by simp at hmem; omega
  refine ⟨?_, hj7.2⟩
  have hkj : k < j := by
    by_contra hc
    rcases Nat.lt_or_eq_of_le (Nat.le_of_not_lt hc) with hl | rfl
    · rw [hbelow j hl] at hs; cases hs
    · exact hk hs
  by_contra hne
  have hk1 : s.classState (k + 1) = .shed := habove _ (by omega) (by omega)
  unfold State.lowestShed at hj
  obtain ⟨-, as, bs, hsplit, hall⟩ := List.find?_eq_some_iff_append.mp hj
  have hin : k + 1 ∈ as := by
    have hm : k + 1 ∈ as ++ j :: bs := by rw [← hsplit]; simp; omega
    have hp : (as ++ j :: bs).Pairwise (· < ·) := by rw [← hsplit]; decide
    rcases List.mem_append.mp hm with hm | hm
    · exact hm
    · rcases List.mem_cons.mp hm with he | hm
      · omega
      · have := (List.pairwise_cons.mp (List.pairwise_append.mp hp).2.1).1 _ hm; omega
  have := hall _ hin
  simp [hk1] at this

theorem State.classLaw_iff_front : s.ClassLaw ↔ ∃ k, s.Front k := Iff.rfl

theorem State.review_classLaw (h : s.ClassLaw) : s.review.ClassLaw := by
  obtain ⟨k, hk⟩ := h
  unfold State.review
  dsimp only
  split
  · rw [State.Front.topUnshed hk]
    by_cases h0 : k = 0
    · rw [if_pos h0]
      refine State.ClassLaw.of_classes (s := s) ?_ ⟨k, hk⟩
      dsimp only
      unfold State.countOverLimit
      split
      · dsimp only; split <;> rfl
      · rfl
    · obtain ⟨n, rfl⟩ := Nat.exists_eq_succ_of_ne_zero h0
      rw [if_neg h0]
      exact ⟨n, State.Front.shed hk (s.classState_shedClass _ _ _ hk.1)⟩
  · have hz : (s.onAlloc fun a => { a with overLimit := 0 }).Front k := hk
    unfold State.tryRestore
    split
    · exact ⟨k, hz⟩
    · rename_i hr
      split
      · exact ⟨k, hz⟩
      · rename_i j hj
        split
        · obtain ⟨rfl, hj7⟩ := State.Front.lowestShed hz hj
          obtain ⟨h7, habove, hks, hbelow, h0⟩ := hz
          have hset := State.classState_setIfInBounds (s := s.onAlloc fun a => { a with overLimit := 0 })
            (t := (s.onAlloc fun a => { a with overLimit := 0 }).setClass (k + 1) .restoring) hj7 rfl
          have hkn : (s.onAlloc fun a => { a with overLimit := 0 }).classState k = .normal := by
            by_cases hk0 : k = 0
            · rw [hk0]; exact h0
            · have : (s.onAlloc fun a => { a with overLimit := 0 }).classState k ≠ .restoring := by
                intro hc
                refine hr (List.any_eq_true.mpr ⟨k, by simp; omega, by simp [hc]⟩)
              cases hcs : (s.onAlloc fun a => { a with overLimit := 0 }).classState k <;> simp_all
          refine ⟨k + 1, hj7, fun i hi hi7 => ?_, ?_, fun i hi => ?_, ?_⟩
          · rw [hset, if_neg (by omega)]; exact habove i (by omega) hi7
          · simp [hset]
          · rw [hset, if_neg (by omega)]
            rcases Nat.lt_or_eq_of_le (Nat.le_of_lt_succ hi) with hl | rfl
            · exact hbelow i hl
            · exact hkn
          · rw [hset, if_neg (by omega)]; exact h0
        · exact ⟨k, hz⟩

theorem Kept.of_review : Kept s s.review := by
  obtain ⟨h, w, -⟩ := s.review_grants
  exact (Allocated.of_review s).kept s.review_classLaw (by rw [h]) (by rw [w])

/-- A walk of shedding from class `n` down to `low`, with every class above `n` SHED already, leaves a front below it. -/
theorem State.shedDown_front (low : Nat) (c : ShedCause) (h : Int) (n k : Nat) (hk : s.Front k) (hn : n ≤ 7)
    (hkn : k ≤ n) : ∃ k', (s.shedDown low c h n).Front k' := by
  induction n generalizing s k with
  | zero => exact ⟨k, hk⟩
  | succ n ih =>
    unfold State.shedDown
    split
    · exact ⟨k, hk⟩
    · by_cases hs : s.classState (n + 1) = .shed
      · rw [if_pos hs]
        refine ih s k hk (by omega) ?_
        have : k ≠ n + 1 := fun e => hk.2.2.1 (e ▸ hs)
        omega
      · rw [if_neg hs]
        have he : k = n + 1 := by
          by_contra hne
          exact hs (hk.2.1 (n + 1) (by omega) hn)
        subst he
        exact ih _ n (State.Front.shed hk (s.classState_shedClass _ _ _ hk.1)) (by omega) (Nat.le_refl _)

theorem State.shedDown_alloc (low : Nat) (c : ShedCause) (h : Int) (n : Nat) :
    ∃ cl, (s.shedDown low c h n).alloc = { s.alloc with classes := cl } := by
  induction n generalizing s with
  | zero => exact ⟨_, rfl⟩
  | succ n ih =>
    unfold State.shedDown
    split
    · exact ⟨_, rfl⟩
    · split
      · exact ih s
      · obtain ⟨cl, e⟩ := ih (s.shedClass (n + 1) c h)
        exact ⟨cl, by rw [e, State.shedClass_alloc]⟩

theorem State.seekWatts_grants (who : Requester) (r : Nat) :
    (s.seekWatts who r).1.alloc.hpuGrant = s.alloc.hpuGrant ∧ (s.seekWatts who r).1.alloc.windlassGrant = s.alloc.windlassGrant := by
  unfold State.seekWatts
  dsimp only
  split
  · exact ⟨rfl, rfl⟩
  · split
    · rename_i low _
      obtain ⟨cl, e⟩ := s.shedDown_alloc low who.cause s.headroom 7
      simp [State.recordAdmission, e]
    · exact ⟨rfl, rfl⟩

theorem State.seekWatts_classLaw (who : Requester) (r : Nat) (h : s.ClassLaw) : (s.seekWatts who r).1.ClassLaw := by
  unfold State.seekWatts
  dsimp only
  split
  · exact h
  · split
    · rename_i low hl
      obtain ⟨k, hk⟩ := h
      exact s.shedDown_front low who.cause s.headroom 7 k hk (by omega) hk.1
    · exact h

theorem Kept.of_seekWatts (who : Requester) (r : Nat) : Kept s (s.seekWatts who r).1 := by
  obtain ⟨h, w⟩ := s.seekWatts_grants who r
  exact (Allocated.of_seekWatts s who r).kept (s.seekWatts_classLaw who r) (by rw [h]) (by rw [w])

theorem Kept.of_recordAdmission (who : Requester) (r : Nat) (h : Int) (n : Option Nat) (x : AdmissionResult) (l : Option Nat) :
    Kept s (s.recordAdmission who r h n x l) := .of_onAlloc s _ rfl rfl rfl

/-- What an allocator's operation leaves of the deck and the windlass. -/
theorem Allocated.deck {s t : State} (h : Allocated s t) : t.hpu = s.hpu ∧ (∀ m, t.mover m = s.mover m) ∧ (∀ r, t.ownerOf r = s.ownerOf r)
    ∧ t.windlass = s.windlass ∧ t.mode = s.mode ∧ t.uptime = s.uptime ∧ t.sense = s.sense := by
  obtain ⟨a, cs, bs, lt, ns, o, e⟩ := h.frame
  rw [e]
  exact ⟨rfl, fun m => by cases m <;> rfl, fun r => by cases r <;> rfl, rfl, rfl, rfl, rfl⟩

/-- A granted start admission: in RUN, a grant of the motor made where there was none, and the other motor's left (R98). -/
structure Admitted (s t : State) (m : Motor) : Prop where
  calm : Calm s t
  alloc : Allocated s t
  run : s.mode = .run
  fresh : s.grant m = none
  made : (t.grant m).isSome = true
  other : ∀ n, n ≠ m → t.grant n = s.grant n

/-- What a start admission answers: refused, it makes no grant; granted, it makes one, in RUN. -/
theorem State.startAdmission_cases (m : Motor) (g i w : Nat) :
    (∃ t, s.startAdmission m g i w = (t, false) ∧ Kept s t) ∨ ∃ t, s.startAdmission m g i w = (t, true) ∧ Admitted s t m := by
  have ha := Allocated.of_startAdmission s m g i w
  revert ha
  unfold State.startAdmission
  split
  · exact fun _ => .inl ⟨_, rfl, .of_recordAdmission s _ _ _ _ _ _⟩
  · rename_i hc
    push Not at hc
    have hk := Kept.of_seekWatts s (startRequester m) (g + i)
    obtain ⟨h1, h2⟩ := s.seekWatts_grants (startRequester m) (g + i)
    split
    · rename_i v hv; rw [hv] at hk; exact fun _ => .inl ⟨_, rfl, hk⟩
    · rename_i v hv
      rw [hv] at hk h1 h2
      refine fun ha => .inr ⟨_, rfl, ⟨hk.calm.trans ?_, ha, hc.1, by simpa using hc.2, ?_, fun n hn => ?_⟩⟩
      · cases m <;> exact .of_views rfl rfl rfl
      · cases m <;> simp [State.grant, State.setGrant]
      · dsimp only at h1 h2
        cases m <;> cases n <;> simp_all [State.grant, State.setGrant]

theorem Kept.of_stageAdmission (g : Nat) : Kept s (s.stageAdmission g).1 := by
  unfold State.stageAdmission
  split
  · exact .of_recordAdmission s _ _ _ _ _ _
  · rename_i x hx
    split
    · exact .of_recordAdmission s _ _ _ _ _ _
    · split
      · exact .refl
      · have h := Kept.of_seekWatts s .windlassStage (g - x.running)
        have hg := (s.seekWatts_grants .windlassStage (g - x.running)).2
        split
        · rename_i hs; rw [hs] at h; exact h
        · rename_i hs; rw [hs] at h hg
          exact h.trans (.of_setGrant _ .windlass _ (by dsimp only at hg; simp [State.grant, hg, hx]))

theorem Kept.of_lowerGrant (g : Nat) : Kept s (s.lowerGrant g) := by
  unfold State.lowerGrant
  split
  · exact .refl
  · rename_i x hx
    split
    · exact Kept.trans (.of_setGrant _ .windlass _ (by simp [State.grant, hx])) (.of_review _)
    · exact .refl

/-- A grant given back is calm, and leaves which grants the other motor holds. -/
theorem Calm.of_releaseGrant (m : Motor) : Calm s (s.releaseGrant m) := by
  unfold State.releaseGrant
  split
  · refine Calm.trans ?_ (Kept.of_review _).calm
    cases m <;> exact .of_views rfl rfl rfl
  · exact .refl

theorem Kept.of_rampClass (k : Nat) (hk : k ≤ 7) : Kept s (s.rampClass k) := by
  unfold State.rampClass
  split
  · rename_i hr
    dsimp only
    refine (Kept.of_onChannels s (fun c => if c.cfg.cls = k then { c with ceiling := min (c.ceiling + 25) 1000 } else c)
      (fun c => by split <;> rfl)).trans ?_
    generalize hu : s.onChannels (fun c => if c.cfg.cls = k then { c with ceiling := min (c.ceiling + 25) 1000 } else c) = u
    have hru : u.classState k = .restoring := by rw [← hu]; exact hr
    split
    · refine Kept.trans (t := u.setClass k .normal) ?_ ((Kept.of_post _ _ _ _).trans (.of_offer _ _))
      refine (Allocated.of_setClass u k .normal).kept ?_ rfl rfl
      rintro ⟨j, h7, habove, hj, hbelow, h0⟩
      have hset := State.classState_setIfInBounds (s := u) (t := u.setClass k .normal) hk rfl
      have hkj : k = j := by
        rcases Nat.lt_trichotomy k j with hl | he | hg
        · rw [hbelow k hl] at hru; cases hru
        · exact he
        · rw [habove k hg hk] at hru; cases hru
      subst hkj
      refine ⟨k, h7, fun i hi hi7 => ?_, by simp [hset], fun i hi => ?_, ?_⟩
      · rw [hset, if_neg (by omega)]; exact habove i hi hi7
      · rw [hset, if_neg (by omega)]; exact hbelow i hi
      · rw [hset]; split
        · rfl
        · exact h0
    · exact .refl
  · exact .refl

theorem Kept.of_ramp : Kept s s.ramp := by
  have key : ∀ (ks : List Nat) (u : State), (∀ k ∈ ks, k ≤ 7) → Kept u (ks.foldl State.rampClass u) := by
    intro ks
    induction ks with
    | nil => exact fun u _ => .refl
    | cons k ks ih =>
      intro u hk
      exact (Kept.of_rampClass u k (hk k List.mem_cons_self)).trans (ih _ fun j hj => hk j (List.mem_cons_of_mem _ hj))
  exact key _ s (by decide)

end Sys2Proof.Machine
end

section
/-!
PROOFS. The law of the hatch, the platform and the pump (R119 to R127) under the operations of the deck. The law is taken apart into
what the pump has to meet alone and how each mover fits it.
-/

namespace Sys2Proof.Machine

variable (s : State)

/-! ## What an event and a released grant leave, field by field -/

@[simp] theorem State.offer_pending (e : Trigger) : (s.offer e).pending = s.pending := by
  obtain ⟨_, _, _, h, -⟩ := s.offer_frame e; rw [h]
@[simp] theorem State.offer_uptime (e : Trigger) : (s.offer e).uptime = s.uptime := by
  obtain ⟨_, _, _, h, -⟩ := s.offer_frame e; rw [h]
@[simp] theorem State.offer_mode (e : Trigger) : (s.offer e).mode = s.mode := by
  obtain ⟨_, _, _, h, -⟩ := s.offer_frame e; rw [h]
@[simp] theorem State.offer_resetCause (e : Trigger) : (s.offer e).resetCause = s.resetCause := by
  obtain ⟨_, _, _, h, -⟩ := s.offer_frame e; rw [h]
@[simp] theorem State.offer_autoStart (e : Trigger) : (s.offer e).autoStart = s.autoStart := by
  obtain ⟨_, _, _, h, -⟩ := s.offer_frame e; rw [h]
@[simp] theorem State.offer_store (e : Trigger) : (s.offer e).store = s.store := by
  obtain ⟨_, _, _, h, -⟩ := s.offer_frame e; rw [h]
@[simp] theorem State.offer_bootValid (e : Trigger) : (s.offer e).bootValid = s.bootValid := by
  obtain ⟨_, _, _, h, -⟩ := s.offer_frame e; rw [h]
@[simp] theorem State.offer_bootTimer (e : Trigger) : (s.offer e).bootTimer = s.bootTimer := by
  obtain ⟨_, _, _, h, -⟩ := s.offer_frame e; rw [h]
@[simp] theorem State.offer_link (e : Trigger) : (s.offer e).link = s.link := by
  obtain ⟨_, _, _, h, -⟩ := s.offer_frame e; rw [h]
@[simp] theorem State.offer_bus (e : Trigger) : (s.offer e).bus = s.bus := by
  obtain ⟨_, _, _, h, -⟩ := s.offer_frame e; rw [h]
@[simp] theorem State.offer_nodes (e : Trigger) : (s.offer e).nodes = s.nodes := by
  obtain ⟨_, _, _, h, -⟩ := s.offer_frame e; rw [h]
@[simp] theorem State.offer_enrolment (e : Trigger) : (s.offer e).enrolment = s.enrolment := by
  obtain ⟨_, _, _, h, -⟩ := s.offer_frame e; rw [h]
@[simp] theorem State.offer_refresh (e : Trigger) : (s.offer e).refresh = s.refresh := by
  obtain ⟨_, _, _, h, -⟩ := s.offer_frame e; rw [h]
@[simp] theorem State.offer_scenes (e : Trigger) : (s.offer e).scenes = s.scenes := by
  obtain ⟨_, _, _, h, -⟩ := s.offer_frame e; rw [h]
@[simp] theorem State.offer_build (e : Trigger) : (s.offer e).build = s.build := by
  obtain ⟨_, _, _, h, -⟩ := s.offer_frame e; rw [h]
@[simp] theorem State.offer_sense (e : Trigger) : (s.offer e).sense = s.sense := by
  obtain ⟨_, _, _, h, -⟩ := s.offer_frame e; rw [h]
@[simp] theorem State.offer_hpu (e : Trigger) : (s.offer e).hpu = s.hpu := by
  obtain ⟨_, _, _, h, -⟩ := s.offer_frame e; rw [h]
@[simp] theorem State.offer_hatch (e : Trigger) : (s.offer e).hatch = s.hatch := by
  obtain ⟨_, _, _, h, -⟩ := s.offer_frame e; rw [h]
@[simp] theorem State.offer_platform (e : Trigger) : (s.offer e).platform = s.platform := by
  obtain ⟨_, _, _, h, -⟩ := s.offer_frame e; rw [h]
@[simp] theorem State.offer_windlass (e : Trigger) : (s.offer e).windlass = s.windlass := by
  obtain ⟨_, _, _, h, -⟩ := s.offer_frame e; rw [h]
@[simp] theorem State.offer_hatchOwner (e : Trigger) : (s.offer e).hatchOwner = s.hatchOwner := by
  obtain ⟨_, _, _, h, -⟩ := s.offer_frame e; rw [h]
@[simp] theorem State.offer_platformOwner (e : Trigger) : (s.offer e).platformOwner = s.platformOwner := by
  obtain ⟨_, _, _, h, -⟩ := s.offer_frame e; rw [h]
@[simp] theorem State.offer_windlassOwner (e : Trigger) : (s.offer e).windlassOwner = s.windlassOwner := by
  obtain ⟨_, _, _, h, -⟩ := s.offer_frame e; rw [h]
@[simp] theorem State.offer_stations (e : Trigger) : (s.offer e).stations = s.stations := by
  obtain ⟨_, _, _, h, -⟩ := s.offer_frame e; rw [h]

@[simp] theorem State.releaseGrant_pending (m : Motor) : (s.releaseGrant m).pending = s.pending := by
  obtain ⟨_, _, _, _, _, _, h⟩ := (Allocated.of_releaseGrant s m).frame; rw [h]
@[simp] theorem State.releaseGrant_uptime (m : Motor) : (s.releaseGrant m).uptime = s.uptime := by
  obtain ⟨_, _, _, _, _, _, h⟩ := (Allocated.of_releaseGrant s m).frame; rw [h]
@[simp] theorem State.releaseGrant_mode (m : Motor) : (s.releaseGrant m).mode = s.mode := by
  obtain ⟨_, _, _, _, _, _, h⟩ := (Allocated.of_releaseGrant s m).frame; rw [h]
@[simp] theorem State.releaseGrant_resetCause (m : Motor) : (s.releaseGrant m).resetCause = s.resetCause := by
  obtain ⟨_, _, _, _, _, _, h⟩ := (Allocated.of_releaseGrant s m).frame; rw [h]
@[simp] theorem State.releaseGrant_autoStart (m : Motor) : (s.releaseGrant m).autoStart = s.autoStart := by
  obtain ⟨_, _, _, _, _, _, h⟩ := (Allocated.of_releaseGrant s m).frame; rw [h]
@[simp] theorem State.releaseGrant_store (m : Motor) : (s.releaseGrant m).store = s.store := by
  obtain ⟨_, _, _, _, _, _, h⟩ := (Allocated.of_releaseGrant s m).frame; rw [h]
@[simp] theorem State.releaseGrant_bootValid (m : Motor) : (s.releaseGrant m).bootValid = s.bootValid := by
  obtain ⟨_, _, _, _, _, _, h⟩ := (Allocated.of_releaseGrant s m).frame; rw [h]
@[simp] theorem State.releaseGrant_bootTimer (m : Motor) : (s.releaseGrant m).bootTimer = s.bootTimer := by
  obtain ⟨_, _, _, _, _, _, h⟩ := (Allocated.of_releaseGrant s m).frame; rw [h]
@[simp] theorem State.releaseGrant_bus (m : Motor) : (s.releaseGrant m).bus = s.bus := by
  obtain ⟨_, _, _, _, _, _, h⟩ := (Allocated.of_releaseGrant s m).frame; rw [h]
@[simp] theorem State.releaseGrant_nodes (m : Motor) : (s.releaseGrant m).nodes = s.nodes := by
  obtain ⟨_, _, _, _, _, _, h⟩ := (Allocated.of_releaseGrant s m).frame; rw [h]
@[simp] theorem State.releaseGrant_enrolment (m : Motor) : (s.releaseGrant m).enrolment = s.enrolment := by
  obtain ⟨_, _, _, _, _, _, h⟩ := (Allocated.of_releaseGrant s m).frame; rw [h]
@[simp] theorem State.releaseGrant_refresh (m : Motor) : (s.releaseGrant m).refresh = s.refresh := by
  obtain ⟨_, _, _, _, _, _, h⟩ := (Allocated.of_releaseGrant s m).frame; rw [h]
@[simp] theorem State.releaseGrant_scenes (m : Motor) : (s.releaseGrant m).scenes = s.scenes := by
  obtain ⟨_, _, _, _, _, _, h⟩ := (Allocated.of_releaseGrant s m).frame; rw [h]
@[simp] theorem State.releaseGrant_build (m : Motor) : (s.releaseGrant m).build = s.build := by
  obtain ⟨_, _, _, _, _, _, h⟩ := (Allocated.of_releaseGrant s m).frame; rw [h]
@[simp] theorem State.releaseGrant_sense (m : Motor) : (s.releaseGrant m).sense = s.sense := by
  obtain ⟨_, _, _, _, _, _, h⟩ := (Allocated.of_releaseGrant s m).frame; rw [h]
@[simp] theorem State.releaseGrant_hpu (m : Motor) : (s.releaseGrant m).hpu = s.hpu := by
  obtain ⟨_, _, _, _, _, _, h⟩ := (Allocated.of_releaseGrant s m).frame; rw [h]
@[simp] theorem State.releaseGrant_hatch (m : Motor) : (s.releaseGrant m).hatch = s.hatch := by
  obtain ⟨_, _, _, _, _, _, h⟩ := (Allocated.of_releaseGrant s m).frame; rw [h]
@[simp] theorem State.releaseGrant_platform (m : Motor) : (s.releaseGrant m).platform = s.platform := by
  obtain ⟨_, _, _, _, _, _, h⟩ := (Allocated.of_releaseGrant s m).frame; rw [h]
@[simp] theorem State.releaseGrant_windlass (m : Motor) : (s.releaseGrant m).windlass = s.windlass := by
  obtain ⟨_, _, _, _, _, _, h⟩ := (Allocated.of_releaseGrant s m).frame; rw [h]
@[simp] theorem State.releaseGrant_hatchOwner (m : Motor) : (s.releaseGrant m).hatchOwner = s.hatchOwner := by
  obtain ⟨_, _, _, _, _, _, h⟩ := (Allocated.of_releaseGrant s m).frame; rw [h]
@[simp] theorem State.releaseGrant_platformOwner (m : Motor) : (s.releaseGrant m).platformOwner = s.platformOwner := by
  obtain ⟨_, _, _, _, _, _, h⟩ := (Allocated.of_releaseGrant s m).frame; rw [h]
@[simp] theorem State.releaseGrant_windlassOwner (m : Motor) : (s.releaseGrant m).windlassOwner = s.windlassOwner := by
  obtain ⟨_, _, _, _, _, _, h⟩ := (Allocated.of_releaseGrant s m).frame; rw [h]
@[simp] theorem State.releaseGrant_stations (m : Motor) : (s.releaseGrant m).stations = s.stations := by
  obtain ⟨_, _, _, _, _, _, h⟩ := (Allocated.of_releaseGrant s m).frame; rw [h]

@[simp] theorem State.releaseGrant_hpu_none : (s.releaseGrant .hpu).alloc.hpuGrant = none := (s.releaseGrant_grant .hpu).1

@[simp] theorem State.releaseGrant_hpu_windlassGrant : (s.releaseGrant .hpu).alloc.windlassGrant = s.alloc.windlassGrant :=
  (s.releaseGrant_grant .hpu).2 .windlass (by decide)

@[simp] theorem State.releaseGrant_windlass_none : (s.releaseGrant .windlass).alloc.windlassGrant = none :=
  (s.releaseGrant_grant .windlass).1

@[simp] theorem State.releaseGrant_windlass_hpuGrant : (s.releaseGrant .windlass).alloc.hpuGrant = s.alloc.hpuGrant :=
  (s.releaseGrant_grant .windlass).2 .hpu (by decide)

@[simp] theorem State.mover_releaseGrant (m : Motor) (n : MoverId) : (s.releaseGrant m).mover n = s.mover n := by
  cases n <;> simp [State.mover]

@[simp] theorem State.mover_offer (e : Trigger) (n : MoverId) : (s.offer e).mover n = s.mover n := by cases n <;> simp [State.mover]

@[simp] theorem State.mover_post (k : NoticeKind) (x : Nat) (d : List Byte) (n : MoverId) : (s.post k x d).mover n = s.mover n := by
  cases n <;> rfl

@[simp] theorem State.mover_onHpu (f : Hpu → Hpu) (n : MoverId) : (s.onHpu f).mover n = s.mover n := by cases n <;> rfl

@[simp] theorem State.mover_onOwner (r : Resource) (f : OwnerRecord → OwnerRecord) (n : MoverId) :
    (s.onOwner r f).mover n = s.mover n := by cases n <;> cases r <;> rfl

@[simp] theorem State.ownerOf_releaseGrant (m : Motor) (r : Resource) : (s.releaseGrant m).ownerOf r = s.ownerOf r := by
  cases r <;> simp [State.ownerOf]

@[simp] theorem State.ownerOf_offer (e : Trigger) (r : Resource) : (s.offer e).ownerOf r = s.ownerOf r := by
  cases r <;> simp [State.ownerOf]

@[simp] theorem State.ownerOf_post (k : NoticeKind) (x : Nat) (d : List Byte) (r : Resource) :
    (s.post k x d).ownerOf r = s.ownerOf r := by cases r <;> rfl

@[simp] theorem State.ownerOf_onHpu (f : Hpu → Hpu) (r : Resource) : (s.onHpu f).ownerOf r = s.ownerOf r := by cases r <;> rfl

@[simp] theorem State.ownerOf_onMover (m : MoverId) (f : Mover → Mover) (r : Resource) : (s.onMover m f).ownerOf r = s.ownerOf r := by
  cases r <;> cases m <;> rfl

theorem State.mover_onMover_ne {m n : MoverId} (h : n ≠ m) (f : Mover → Mover) : (s.onMover m f).mover n = s.mover n := by
  cases m <;> cases n <;> first | rfl | exact absurd rfl h

theorem State.ownerOf_onOwner_ne {r q : Resource} (h : q ≠ r) (f : OwnerRecord → OwnerRecord) : (s.onOwner r f).ownerOf q = s.ownerOf q := by
  cases r <;> cases q <;> first | rfl | exact absurd rfl h

@[simp] theorem moverResource_inj {m n : MoverId} : moverResource m = moverResource n ↔ m = n := by
  cases m <;> cases n <;> decide

/-! ## The law taken apart -/

/-- The pump's part of the law. -/
structure Hpu.Fits (h : Hpu) (granted : Bool) : Prop where
  contactor : h.contactor = true ↔ h.state = .starting ∨ h.state = .ready ∨ h.state = .runOn
  granted : h.contactor = true → granted = true
  unheld : h.state ≠ .starting → h.state ≠ .ready → h.holder = none ∧ h.waiting = none
  runOn : h.runOnTimer.isSome = true → h.state = .runOn

/-- How a mover fits the pump. -/
structure Mover.Fits (r : Mover) (h : Hpu) (m : MoverId) : Prop where
  holder : h.holder = some m → (h.state = .starting → r.state = .waitPump)
    ∧ (h.state = .ready → r.state = .moving ∨ r.state = .settling)
  waiter : h.waiting = some m → r.state = .waitPump ∧ h.holder ≠ some m
  moving : r.state = .moving → h.state = .ready ∧ h.holder = some m
  valves : r.ValvesSafe
  timers : (r.travelTimer.isSome = true → r.state = .moving) ∧ (r.settleTimer.isSome = true → r.state = .settling)

/-- A mover at rest or in FAULT. -/
def Mover.Idle (r : Mover) : Prop := r.state = .atRest ∨ r.state = .fault

/-- A mover with no owner is idle (R159). -/
def State.Manned (s : State) (m : MoverId) : Prop := (s.ownerOf (moverResource m)).owner = .none → (s.mover m).Idle

/-- What CONFIG asks of the deck (R185, R188). -/
def State.DeckQuiet (s : State) : Prop := s.hpu.contactor = false ∧ ∀ m, (s.mover m).Idle

theorem State.deckLaw_iff : s.DeckLaw ↔
    s.hpu.Fits s.alloc.hpuGrant.isSome ∧ (∀ m, (s.mover m).Fits s.hpu m) ∧ (∀ m, s.Manned m) ∧ (s.mode = .config → s.DeckQuiet) := by
  constructor
  · intro h
    exact ⟨⟨h.contactor, h.granted, h.unheld, h.runOn⟩,
      fun m => ⟨h.holder m, h.waiter m, h.moving m, h.valves m, h.timers m⟩, h.unowned, h.config⟩
  · rintro ⟨h, g, o, c⟩
    exact ⟨h.contactor, h.granted, h.unheld, h.runOn, fun m => (g m).holder, fun m => (g m).waiter, fun m => (g m).moving,
      fun m => (g m).valves, fun m => (g m).timers, o, c⟩

variable {s}

theorem State.DeckLaw.hpuFits (h : s.DeckLaw) : s.hpu.Fits s.alloc.hpuGrant.isSome := (s.deckLaw_iff.mp h).1
theorem State.DeckLaw.fits (h : s.DeckLaw) (m : MoverId) : (s.mover m).Fits s.hpu m := (s.deckLaw_iff.mp h).2.1 m
theorem State.DeckLaw.manned (h : s.DeckLaw) (m : MoverId) : s.Manned m := (s.deckLaw_iff.mp h).2.2.1 m
theorem State.DeckLaw.quiet (h : s.DeckLaw) (hm : s.mode = .config) : s.DeckQuiet := (s.deckLaw_iff.mp h).2.2.2 hm

/-- A mover that is not idle has an owner and stands outside CONFIG. -/
theorem State.DeckLaw.busy (h : s.DeckLaw) {m : MoverId} (hm : ¬ (s.mover m).Idle) :
    (s.ownerOf (moverResource m)).owner ≠ .none ∧ s.mode ≠ .config :=
  ⟨fun e => hm (h.manned m e), fun e => hm ((h.quiet e).2 m)⟩

/-! ## Changes of a mover -/

section
variable {r r' : Mover} {p p' : Hpu} {m : MoverId}

/-- A mover that neither holds nor waits for the pump fits it at rest, settling or in FAULT. -/
theorem Mover.Fits.apart (hh : p.holder ≠ some m) (hw : p.waiting ≠ some m) (hm : r.state ≠ .moving) (hr : r.raise = false)
    (hl : r.lower = false) (ht : r.travelTimer = none) (hs : r.settleTimer.isSome = true → r.state = .settling) : r.Fits p m :=
  ⟨fun e => absurd e hh, fun e => absurd e hw, fun e => absurd e hm, ⟨by simp [hr], fun _ => ⟨hr, hl⟩⟩, ⟨by simp [ht], hs⟩⟩

/-- Outside MOVING the valves are closed and the travel timer stands. -/
theorem Mover.Fits.still (h : r.Fits p m) (hm : r.state ≠ .moving) : r.raise = false ∧ r.lower = false ∧ r.travelTimer = none := by
  obtain ⟨hr, hl⟩ := h.valves.2 hm
  refine ⟨hr, hl, ?_⟩
  cases ht : r.travelTimer with
  | none => rfl
  | some e => exact absurd (h.timers.1 (by simp [ht])) hm

/-- A MOVING mover that closes its valves and settles keeps its place as the holder. -/
theorem Mover.Fits.settle (h : r.Fits p m) (hm : r.state = .moving) (h1 : r'.state = .settling) (h2 : r'.raise = false)
    (h3 : r'.lower = false) (h4 : r'.travelTimer = none) : r'.Fits p m := by
  obtain ⟨hready, hheld⟩ := h.moving hm
  exact ⟨fun _ => ⟨fun e => by simp [hready] at e, fun _ => .inr h1⟩, fun e => absurd hheld (h.waiter e).2,
    fun e => by simp [h1] at e, ⟨by simp [h2], fun _ => ⟨h2, h3⟩⟩, ⟨by simp [h4], fun _ => h1⟩⟩

/-- A mover in another state than MOVING fits a pump that has come to its state without naming it anew. -/
theorem Mover.Fits.pump (h : r.Fits p m) (hm : r.state ≠ .moving) (hh : p'.holder = some m → p'.state = .starting ∧ r.state = .waitPump)
    (hw : p'.waiting = some m → r.state = .waitPump ∧ p'.holder ≠ some m) : r.Fits p' m :=
  ⟨fun e => ⟨fun _ => (hh e).2, fun g => by simp [(hh e).1] at g⟩, hw, fun e => absurd e hm, h.valves, h.timers⟩

/-- A change that leaves state, valves and timers. -/
theorem Mover.Fits.congr (h : r.Fits p m) (h1 : r'.state = r.state) (h2 : r'.raise = r.raise) (h3 : r'.lower = r.lower)
    (h4 : r'.travelTimer = r.travelTimer) (h5 : r'.settleTimer = r.settleTimer) : r'.Fits p m := by
  obtain ⟨a, b, c, d, e⟩ := h
  simp only [Mover.ValvesSafe] at d
  exact ⟨by rwa [h1], by rwa [h1], by rwa [h1], by simp only [Mover.ValvesSafe, h1, h2, h3]; exact d, by rwa [h1, h4, h5]⟩

end

/-- The law after a change of one mover and of its owner, the pump standing. -/
theorem State.DeckLaw.of_mover {s t : State} (h : s.DeckLaw) (m : MoverId) (hhpu : t.hpu = s.hpu)
    (hg : t.alloc.hpuGrant.isSome = s.alloc.hpuGrant.isSome) (hmode : t.mode = s.mode)
    (hother : ∀ n, n ≠ m → t.mover n = s.mover n ∧ t.ownerOf (moverResource n) = s.ownerOf (moverResource n))
    (hfit : (t.mover m).Fits s.hpu m) (hman : t.Manned m) (hq : s.mode = .config → (t.mover m).Idle) : t.DeckLaw := by
  refine t.deckLaw_iff.mpr ⟨by rw [hhpu, hg]; exact h.hpuFits, fun n => ?_, fun n => ?_, fun e => ⟨?_, fun n => ?_⟩⟩
  · by_cases hn : n = m
    · subst hn; rwa [hhpu]
    · rw [hhpu, (hother n hn).1]; exact h.fits n
  · by_cases hn : n = m
    · subst hn; exact hman
    · unfold State.Manned; rw [(hother n hn).1, (hother n hn).2]; exact h.manned n
  · rw [hhpu]; exact (h.quiet (hmode ▸ e)).1
  · by_cases hn : n = m
    · subst hn; exact hq (hmode ▸ e)
    · rw [(hother n hn).1]; exact (h.quiet (hmode ▸ e)).2 n

/-- The law after a change of the pump and its grant, the movers and their owners standing. -/
theorem State.DeckLaw.of_hpu {s t : State} (h : s.DeckLaw) (hm : ∀ n, t.mover n = s.mover n)
    (ho : ∀ n, t.ownerOf (moverResource n) = s.ownerOf (moverResource n)) (hmode : t.mode = s.mode)
    (hfit : t.hpu.Fits t.alloc.hpuGrant.isSome) (hfits : ∀ n, (s.mover n).Fits t.hpu n)
    (hq : s.mode = .config → t.hpu.contactor = false) : t.DeckLaw := by
  refine t.deckLaw_iff.mpr ⟨hfit, fun n => ?_, fun n => ?_, fun e => ⟨hq (hmode ▸ e), fun n => ?_⟩⟩
  · rw [hm]; exact hfits n
  · unfold State.Manned; rw [hm, ho]; exact h.manned n
  · rw [hm]; exact (h.quiet (hmode ▸ e)).2 n

/-! ## Settling, resting and the watch of the interlocks -/

theorem State.enterSettling_deckLaw (h : s.DeckLaw) {m : MoverId} (c : Cause) (hm : (s.mover m).state = .moving) :
    (s.enterSettling m c).DeckLaw := by
  have hb := h.busy (m := m) (by simp [Mover.Idle, hm])
  refine h.of_mover m (by simp [State.enterSettling]) (by simp [State.enterSettling]) (by simp [State.enterSettling]) (fun n hn => ?_) ?_ ?_
    (fun e => absurd e hb.2)
  · simp [State.enterSettling, State.mover_onMover_ne _ hn]
  · rw [s.mover_enterSettling]; exact (h.fits m).settle hm rfl rfl rfl rfl
  · intro e; simp [State.enterSettling, hb.1] at e

theorem State.returnToRest_deckLaw (h : s.DeckLaw) {m : MoverId} (c : Cause) (hm : (s.mover m).state = .waitPump)
    (hh : s.hpu.holder ≠ some m) (hw : s.hpu.waiting ≠ some m) : (s.returnToRest m c).DeckLaw := by
  obtain ⟨hr, hl, ht⟩ := (h.fits m).still (by simp [hm])
  have hs : (s.mover m).settleTimer.isSome = true → (s.mover m).state = .settling := (h.fits m).timers.2
  have hrest : (s.returnToRest m c).mover m = { s.mover m with state := .atRest, motion := none } := by
    simp [State.returnToRest, State.releaseOwner, State.postStopped]
  refine h.of_mover m (by simp [State.returnToRest, State.releaseOwner, State.postStopped])
    (by simp [State.returnToRest, State.releaseOwner, State.postStopped])
    (by simp [State.returnToRest, State.releaseOwner, State.postStopped]) (fun n hn => ?_) ?_ ?_ ?_
  · simp [State.returnToRest, State.releaseOwner, State.postStopped, State.mover_onMover_ne _ hn,
      State.ownerOf_onOwner_ne _ (fun e => hn (moverResource_inj.mp e))]
  · rw [hrest]
    exact .apart hh hw (by simp) hr hl ht (fun e => by rw [hm] at hs; simp at hs; simp [hs] at e)
  · intro _; rw [hrest]; exact .inl rfl
  · intro _; rw [hrest]; exact .inl rfl

end Sys2Proof.Machine
end

section
/-!
PROOFS. The law of the deck under the operations of the pump (R120 to R123, R133, R137): its end, its hand-over, its faults and its
being asked for.
-/

namespace Sys2Proof.Machine

variable {s : State} {m : MoverId}

/-! ## The pump switched off or left idle -/

/-- With the holder and the wait slot empty no mover is MOVING. -/
theorem State.DeckLaw.unmoved (h : s.DeckLaw) (hh : s.hpu.holder = none) (n : MoverId) : (s.mover n).state ≠ .moving := by
  intro e
  have := ((h.fits n).moving e).2
  simp [hh] at this

/-- Every mover fits a pump with neither holder nor waiter when none is MOVING. -/
theorem State.DeckLaw.fits_unheld (h : s.DeckLaw) (hh : s.hpu.holder = none) {p : Hpu} (h1 : p.holder = none) (h2 : p.waiting = none)
    (n : MoverId) : (s.mover n).Fits p n :=
  (h.fits n).pump (h.unmoved hh n) (by simp [h1]) (by simp [h2])

theorem State.hpuOff_deckLaw (h : s.DeckLaw) (hh : s.hpu.holder = none) : s.hpuOff.DeckLaw := by
  refine h.of_hpu (fun n => ?_) (fun n => ?_) ?_ ?_ (fun n => ?_) ?_ <;> simp only [State.hpuOff, State.mover_releaseGrant,
    State.mover_onHpu, State.ownerOf_releaseGrant, State.ownerOf_onHpu, State.releaseGrant_mode, State.onHpu_mode,
    State.releaseGrant_hpu, State.onHpu_hpu, State.releaseGrant_hpu_none]
  · exact ⟨by simp, by simp, by simp, by simp⟩
  · exact h.fits_unheld hh rfl rfl n
  · simp

theorem State.hpuIdle_deckLaw (h : s.DeckLaw) (hh : s.hpu.holder = none) (hw : s.hpu.waiting = none) (hc : s.hpu.contactor = true) :
    s.hpuIdle.DeckLaw := by
  unfold State.hpuIdle
  split
  · exact s.hpuOff_deckLaw h hh
  · refine h.of_hpu (by simp) (by simp) rfl ⟨by simp [hc], fun _ => h.granted hc, by simp [hw], by simp⟩
      (fun n => h.fits_unheld hh (by exact rfl) (by exact hw) n) (fun e => by have := (h.quiet e).1; simp [hc] at this)

theorem State.dropIdleStart_deckLaw (h : s.DeckLaw) : s.dropIdleStart.DeckLaw := by
  unfold State.dropIdleStart
  split
  · rename_i hc; exact s.hpuOff_deckLaw h hc.2.2.1
  · exact h

/-! ## A mover that withdraws, and stops -/

theorem Hpu.Fits.of_slots {p p' : Hpu} {g : Bool} (h : p.Fits g) (h1 : p'.state = p.state) (h2 : p'.contactor = p.contactor)
    (h3 : p'.runOnTimer = p.runOnTimer) (h4 : p.holder = none → p.waiting = none → p'.holder = none ∧ p'.waiting = none) : p'.Fits g := by
  obtain ⟨a, b, c, d⟩ := h
  exact ⟨by rwa [h1, h2], by rwa [h2], fun x y => (fun e => h4 e.1 e.2) (c (h1 ▸ x) (h1 ▸ y)), by rwa [h1, h3]⟩

/-- A waiting mover withdraws: the pump's places are those of the others, and neither is its own. -/
theorem State.onHpu_withdraw_deckLaw (h : s.DeckLaw) (hm : (s.mover m).state = .waitPump) :
    (s.onHpu fun p => p.withdraw m).DeckLaw ∧ (s.hpu.withdraw m).holder ≠ some m ∧ (s.hpu.withdraw m).waiting ≠ some m := by
  have hready : s.hpu.holder = some m → s.hpu.state = .starting := by
    intro hh
    by_contra hs
    have h2 : s.hpu.state = .ready := by
      by_contra hr
      have := (h.unheld hs hr).1
      simp [hh] at this
    have := ((h.fits m).holder hh).2 h2
    simp [hm] at this
  have hslots : (s.hpu.withdraw m).state = s.hpu.state ∧ (s.hpu.withdraw m).contactor = s.hpu.contactor
      ∧ (s.hpu.withdraw m).runOnTimer = s.hpu.runOnTimer := by
    unfold Hpu.withdraw; split
    · exact ⟨rfl, rfl, rfl⟩
    · split <;> exact ⟨rfl, rfl, rfl⟩
  have hnone : s.hpu.holder = none → s.hpu.waiting = none → (s.hpu.withdraw m).holder = none ∧ (s.hpu.withdraw m).waiting = none := by
    intro a b; simp [Hpu.withdraw, a, b]
  refine ⟨h.of_hpu (by simp) (by simp) rfl (h.hpuFits.of_slots hslots.1 hslots.2.1 hslots.2.2 hnone) (fun n => ?_) ?_, ?_, ?_⟩
  · simp only [State.onHpu_hpu]
    unfold Hpu.withdraw
    split
    · rename_i hh
      refine (h.fits n).pump (fun e => ?_) (fun e => ⟨hready hh, ((h.fits n).waiter e).1⟩) (by simp)
      have := ((h.fits n).moving e).1
      simp [hready hh] at this
    · split
      · rename_i hw
        have hf := h.fits n
        exact ⟨hf.holder, by simp, hf.moving, hf.valves, hf.timers⟩
      · exact h.fits n
  · intro e; simp only [State.onHpu_hpu, hslots.2.1]; exact (h.quiet e).1
  · unfold Hpu.withdraw
    split
    · intro e; exact ((h.fits m).waiter e).2 ‹_›
    · split <;> simpa
  · unfold Hpu.withdraw
    split
    · simp
    · split <;> simp_all

theorem State.withdraw_deckLaw (h : s.DeckLaw) (c : Cause) (hm : (s.mover m).state = .waitPump) : (s.withdraw m c).DeckLaw := by
  obtain ⟨hl, hh, hw⟩ := s.onHpu_withdraw_deckLaw h hm
  exact State.dropIdleStart_deckLaw (State.returnToRest_deckLaw hl c (by simpa using hm) hh hw)

theorem State.moverStop_deckLaw (h : s.DeckLaw) (m : MoverId) (c : Cause) : (s.moverStop m c).DeckLaw := by
  rcases s.moverStop_cases m c with ⟨hm, e⟩ | ⟨hm, e⟩ | ⟨-, -, e⟩ <;> rw [e]
  · exact s.enterSettling_deckLaw h c hm
  · exact s.withdraw_deckLaw h c hm
  · exact h

theorem State.watchInterlockOf_deckLaw (h : s.DeckLaw) (m : MoverId) : (s.watchInterlockOf m).DeckLaw := by
  rcases s.watchInterlockOf_cases m with ⟨hm, -, e⟩ | ⟨-, e⟩ <;> rw [e]
  · exact s.enterSettling_deckLaw h _ hm
  · exact h

/-! ## The pump given to a mover -/

/-- What the pump and the movers come to when the pump with its contactor closed is given to a mover that waits or is at rest. -/
theorem State.givePump_fits (h : s.DeckLaw) (hc : s.hpu.contactor = true) (hm : (s.mover m).state = .waitPump ∨ (s.mover m).state = .atRest)
    (hh : ∀ n, n ≠ m → s.hpu.holder ≠ some n) (hw : s.hpu.waiting ≠ some m) :
    (s.givePump m).hpu.Fits (s.givePump m).alloc.hpuGrant.isSome ∧ ∀ n, ((s.givePump m).mover n).Fits (s.givePump m).hpu n := by
  have hhpu : (s.givePump m).hpu = { s.hpu with state := .ready, holder := some m, readyTimer := none, runOnTimer := none } := by
    simp [State.givePump, State.enterMoving]
  have hg : (s.givePump m).alloc = s.alloc := by simp [State.givePump, State.enterMoving]
  have hst : (s.mover m).settleTimer.isSome = true → False := fun e => by
    have := (h.fits m).timers.2 e
    rcases hm with hm | hm <;> simp [hm] at this
  rw [hhpu, hg]
  refine ⟨⟨by simp [hc], fun _ => h.granted hc, by simp, by simp⟩, fun n => ?_⟩
  by_cases hn : n = m
  · subst hn
    simp only [State.givePump, State.enterMoving, State.mover_onMover, State.mover_onHpu]
    exact ⟨by simp, fun e => absurd e hw, by simp, by simp [Mover.ValvesSafe], by simp, fun e => absurd e (by simpa using hst)⟩
  · have hnm : (s.mover n).state ≠ .moving := fun e => hh n hn ((h.fits n).moving e).2
    simp only [State.givePump, State.enterMoving, State.mover_onMover_ne _ hn, State.mover_onHpu]
    exact (h.fits n).pump hnm (fun e => absurd (Option.some.inj e).symm hn)
      (fun e => ⟨((h.fits n).waiter e).1, fun e' => hn (Option.some.inj e').symm⟩)

theorem State.givePump_deckLaw (h : s.DeckLaw) (hc : s.hpu.contactor = true) (hm : (s.mover m).state = .waitPump)
    (hh : ∀ n, n ≠ m → s.hpu.holder ≠ some n) (hw : s.hpu.waiting ≠ some m) : (s.givePump m).DeckLaw := by
  obtain ⟨h1, h2⟩ := s.givePump_fits h hc (.inl hm) hh hw
  have hb := h.busy (m := m) (by simp [Mover.Idle, hm])
  refine (State.deckLaw_iff _).mpr ⟨h1, h2, fun n => ?_, fun e => absurd e (by simpa [State.givePump, State.enterMoving] using hb.2)⟩
  by_cases hn : n = m
  · subst hn; intro e; simp [State.givePump, State.enterMoving, hb.1] at e
  · have := h.manned n
    simpa [State.Manned, State.givePump, State.enterMoving, State.mover_onMover_ne _ hn] using this

/-- The places of the pump emptied, with no mover MOVING. -/
theorem State.emptied_deckLaw (h : s.DeckLaw) (hh : s.hpu.holder = none) :
    (s.onHpu fun p => { p with waiting := none, holder := none }).DeckLaw :=
  h.of_hpu (by simp) (by simp) rfl (h.hpuFits.of_slots rfl rfl rfl fun _ _ => ⟨rfl, rfl⟩) (fun n => h.fits_unheld hh rfl rfl n)
    (fun e => (h.quiet e).1)

theorem State.serveWaiter_deckLaw (h : s.DeckLaw) (hh : s.hpu.holder = none) (hc : s.hpu.contactor = true) : s.serveWaiter.DeckLaw := by
  unfold State.serveWaiter
  split
  · exact s.hpuIdle_deckLaw h hh ‹_› hc
  · rename_i w hw
    have hl := s.emptied_deckLaw h hh
    have hwait : ((s.onHpu fun p => { p with waiting := none, holder := none }).mover w).state = .waitPump := by
      simpa using ((h.fits w).waiter hw).1
    dsimp only
    split
    · exact State.givePump_deckLaw hl hc hwait (by simp) (by simp)
    · exact State.hpuIdle_deckLaw (State.returnToRest_deckLaw hl _ hwait (by simp) (by simp))
        (by simp [State.returnToRest, State.releaseOwner, State.postStopped])
        (by simp [State.returnToRest, State.releaseOwner, State.postStopped])
        (by simpa [State.returnToRest, State.releaseOwner, State.postStopped] using hc)

/-- The holder of a STARTING pump leaves its place. -/
theorem State.holderGone_deckLaw (h : s.DeckLaw) (hs : s.hpu.state = .starting) :
    (s.onHpu fun p => { p with holder := none }).DeckLaw := by
  refine h.of_hpu (by simp) (by simp) rfl (h.hpuFits.of_slots rfl rfl rfl fun _ e => ⟨rfl, e⟩) (fun n => ?_) (fun e => (h.quiet e).1)
  refine (h.fits n).pump (fun e => ?_) (by simp) (fun e => ⟨((h.fits n).waiter e).1, by simp⟩)
  have := ((h.fits n).moving e).1
  simp [hs] at this

theorem State.hpuReady_deckLaw (h : s.DeckLaw) (hs : s.hpu.state = .starting) : s.hpuReady.DeckLaw := by
  have hc : s.hpu.contactor = true := h.contactor.mpr (.inl hs)
  unfold State.hpuReady
  split
  · rename_i m hm
    have hwait := ((h.fits m).holder hm).1 hs
    have hw : s.hpu.waiting ≠ some m := fun e => ((h.fits m).waiter e).2 hm
    split
    · exact s.givePump_deckLaw h hc hwait (fun n hn e => hn (Option.some.inj (e.symm.trans hm))) hw
    · have hl := State.returnToRest_deckLaw (s.holderGone_deckLaw h hs) .interlock (m := m) (by simpa using hwait) (by simp) hw
      exact State.serveWaiter_deckLaw hl (by simp [State.returnToRest, State.releaseOwner, State.postStopped])
        (by simpa [State.returnToRest, State.releaseOwner, State.postStopped] using hc)
  · exact s.serveWaiter_deckLaw h ‹_› hc

end Sys2Proof.Machine
end

section
/-!
PROOFS. The law of the deck under a fault of the pump, the end of a settle and an accepted motion (R120, R122, R123, R134).
-/

namespace Sys2Proof.Machine

variable {s : State} {m : MoverId}

/-! ## The pump in FAULT (R123) -/

/-- A pump in FAULT with its places emptied and its grant given back. -/
def State.pumpDead (s : State) (c : Cause) : State :=
  { s with hpu := { s.hpu with state := .fault, contactor := false, fault := some ⟨c, 0⟩, readyTimer := none, runOnTimer := none
                               holder := none, waiting := none }
           alloc := { s.alloc with hpuGrant := none } }

@[simp] theorem State.mover_pumpDead (c : Cause) (n : MoverId) : (s.pumpDead c).mover n = s.mover n := by cases n <;> rfl

theorem State.pumpDead_deckLaw (h : s.DeckLaw) (c : Cause) (hm : ∀ n, (s.mover n).state ≠ .moving) : (s.pumpDead c).DeckLaw := by
  refine h.of_hpu (by simp) (fun n => by cases n <;> rfl) rfl ⟨by simp [State.pumpDead], by simp [State.pumpDead], by simp [State.pumpDead],
    by simp [State.pumpDead]⟩ (fun n => ?_) (fun _ => rfl)
  exact (h.fits n).pump (hm n) (by simp [State.pumpDead]) (by simp [State.pumpDead])

/-- The part's pump on its way into FAULT, with its movers not yet told: but for the places it is `State.pumpDead`. -/
def State.pumpFaulting (s : State) (c : Cause) : State :=
  let u := State.releaseGrant (s.onHpu fun h => { h with state := .fault, contactor := false, fault := some ⟨c, 0⟩, readyTimer := none,
                                                         runOnTimer := none }) .hpu
  (u.post .hpuFault 4 (leBytes 1 c.code ++ leSigned 2 u.pressure)).offer (.deck (.fault .hpu))

/-- The holder of a pump that faults is told. -/
def State.tellHolder (u : State) : State :=
  match u.hpu.holder with
  | none => u
  | some m =>
    let t := u.onHpu fun h => { h with holder := none }
    match (u.mover m).state with
    | .moving => t.enterSettling m .hpuFault
    | .waitPump => t.returnToRest m .hpuFault
    | _ => t

/-- The waiter of a pump that faults is told. -/
def State.tellWaiter (u : State) : State :=
  match u.hpu.waiting with
  | none => u
  | some w => (u.onHpu fun h => { h with waiting := none }).returnToRest w .hpuFault

theorem State.hpuFault_eq (c : Cause) : s.hpuFault c = ((s.pumpFaulting c).tellHolder).tellWaiter := rfl

section
variable (s) (c : Cause)

@[simp] theorem State.pumpFaulting_hpu : (s.pumpFaulting c).hpu =
    { s.hpu with state := .fault, contactor := false, fault := some ⟨c, 0⟩, readyTimer := none, runOnTimer := none } := by
  simp [State.pumpFaulting]
@[simp] theorem State.pumpFaulting_mover (n : MoverId) : (s.pumpFaulting c).mover n = s.mover n := by simp [State.pumpFaulting]
@[simp] theorem State.pumpFaulting_hatch : (s.pumpFaulting c).hatch = s.hatch := by simp [State.pumpFaulting]
@[simp] theorem State.pumpFaulting_platform : (s.pumpFaulting c).platform = s.platform := by simp [State.pumpFaulting]
@[simp] theorem State.pumpFaulting_ownerOf (r : Resource) : (s.pumpFaulting c).ownerOf r = s.ownerOf r := by simp [State.pumpFaulting]
@[simp] theorem State.pumpFaulting_hatchOwner : (s.pumpFaulting c).hatchOwner = s.hatchOwner := by simp [State.pumpFaulting]
@[simp] theorem State.pumpFaulting_platformOwner : (s.pumpFaulting c).platformOwner = s.platformOwner := by simp [State.pumpFaulting]
@[simp] theorem State.pumpFaulting_windlassOwner : (s.pumpFaulting c).windlassOwner = s.windlassOwner := by simp [State.pumpFaulting]
@[simp] theorem State.pumpFaulting_windlass : (s.pumpFaulting c).windlass = s.windlass := by simp [State.pumpFaulting]
@[simp] theorem State.pumpFaulting_mode : (s.pumpFaulting c).mode = s.mode := by simp [State.pumpFaulting]
@[simp] theorem State.pumpFaulting_uptime : (s.pumpFaulting c).uptime = s.uptime := by simp [State.pumpFaulting]
@[simp] theorem State.pumpFaulting_sense : (s.pumpFaulting c).sense = s.sense := by simp [State.pumpFaulting]
@[simp] theorem State.pumpFaulting_hpuGrant : (s.pumpFaulting c).alloc.hpuGrant = none := by
  simp [State.pumpFaulting, State.offer_alloc]
@[simp] theorem State.pumpFaulting_windlassGrant : (s.pumpFaulting c).alloc.windlassGrant = s.alloc.windlassGrant := by
  simp [State.pumpFaulting, State.offer_alloc]

end

/-- What the movers of a pump that faults see, as the law looks at it: a MOVING holder has settled and one that waits has gone to
rest, each as it would by itself. -/
theorem State.tellHolder_view (h : s.DeckLaw) (c : Cause) : ∃ v : State, v.DeckLaw ∧ v.hpu = (s.pumpDead c).hpu
    ∧ (∀ n, v.mover n = ((s.pumpFaulting c).tellHolder).mover n)
    ∧ (∀ w, s.hpu.waiting = some w → (v.mover w).state = .waitPump)
    ∧ v.deckView = State.deckView (((s.pumpFaulting c).tellHolder).onHpu fun p => { p with waiting := none }) := by
  have hwait : ∀ w, s.hpu.waiting = some w → (s.mover w).state = .waitPump ∧ s.hpu.holder ≠ some w := fun w e => (h.fits w).waiter e
  unfold State.tellHolder
  simp only [State.pumpFaulting_hpu, State.pumpFaulting_mover]
  cases hh : s.hpu.holder with
  | none =>
    dsimp only
    refine ⟨s.pumpDead c, s.pumpDead_deckLaw h c (h.unmoved hh), rfl, by simp, fun w e => by simpa using (hwait w e).1, ?_⟩
    simp [State.deckView, State.pumpDead, hh]
  | some m =>
    dsimp only
    have hother : ∀ n, n ≠ m → (s.mover n).state ≠ .moving := fun n hn e =>
      hn (Option.some.inj (((h.fits n).moving e).2.symm.trans hh))
    have hne : ∀ w, s.hpu.waiting = some w → w ≠ m := fun w e e' => (hwait w e).2 (e' ▸ hh)
    have all : (s.mover m).state ≠ .moving → ∀ n, (s.mover n).state ≠ .moving := fun hm n => by
      by_cases hn : n = m
      · exact hn ▸ hm
      · exact hother n hn
    cases hm : (s.mover m).state
    case moving =>
      have hl := s.enterSettling_deckLaw h .hpuFault hm
      have hns : ∀ n, ((s.enterSettling m .hpuFault).mover n).state ≠ .moving := fun n => by
        by_cases hn : n = m
        · subst hn; simp [s.mover_enterSettling]
        · simpa [State.enterSettling, State.mover_onMover_ne _ hn] using hother n hn
      refine ⟨(s.enterSettling m .hpuFault).pumpDead c, State.pumpDead_deckLaw hl c hns, ?_, fun n => ?_, fun w e => ?_, ?_⟩
      · simp [State.pumpDead, State.enterSettling]
      · by_cases hn : n = m
        · subst hn; simp [State.mover_enterSettling, State.after]
        · simp [State.enterSettling, State.mover_onMover_ne _ hn]
      · have := (hwait w e).1
        simpa [State.enterSettling, State.mover_onMover_ne _ (hne w e)] using this
      · cases m <;> simp [State.deckView, State.pumpDead, State.enterSettling, State.after]
    case waitPump =>
      have hd := s.pumpDead_deckLaw h c (all (by simp [hm]))
      refine ⟨(s.pumpDead c).returnToRest m .hpuFault, State.returnToRest_deckLaw hd _ (by simpa using hm) (by simp [State.pumpDead])
        (by simp [State.pumpDead]), ?_, fun n => ?_, fun w e => ?_, ?_⟩
      · simp [State.returnToRest, State.releaseOwner, State.postStopped]
      · by_cases hn : n = m
        · subst hn; simp [State.returnToRest, State.releaseOwner, State.postStopped]
        · simp [State.returnToRest, State.releaseOwner, State.postStopped, State.mover_onMover_ne _ hn]
      · have := (hwait w e).1
        simpa [State.returnToRest, State.releaseOwner, State.postStopped, State.mover_onMover_ne _ (hne w e)] using this
      · cases m <;> simp [State.deckView, State.pumpDead, State.returnToRest, State.releaseOwner, State.postStopped, moverResource]
    all_goals
      refine ⟨s.pumpDead c, s.pumpDead_deckLaw h c (all (by simp [hm])), rfl, by simp, fun w e => by simpa using (hwait w e).1, ?_⟩
      simp [State.deckView, State.pumpDead]

theorem State.tellHolder_waiting (u : State) : u.tellHolder.hpu.waiting = u.hpu.waiting := by
  unfold State.tellHolder
  split
  · rfl
  · rename_i m _
    dsimp only
    split <;> simp [State.enterSettling, State.returnToRest, State.releaseOwner, State.postStopped]

theorem State.hpuFault_deckLaw (h : s.DeckLaw) (c : Cause) : (s.hpuFault c).DeckLaw := by
  rw [State.hpuFault_eq]
  obtain ⟨v, hv, hhpu, hmov, hwait, hview⟩ := s.tellHolder_view h c
  unfold State.tellWaiter
  rw [State.tellHolder_waiting, State.pumpFaulting_hpu]
  cases hw : s.hpu.waiting with
  | none =>
    refine .of_view ?_ hv
    rw [hview]
    have : (State.tellHolder (s.pumpFaulting c)).hpu.waiting = none := by rw [State.tellHolder_waiting]; simpa using hw
    simp [State.deckView, ← this]
  | some w =>
    refine .of_view ?_ (State.returnToRest_deckLaw hv .hpuFault (hwait w hw) (by simp [hhpu, State.pumpDead]) (by simp [hhpu, State.pumpDead]))
    simp only [State.deckView, Prod.mk.injEq] at hview
    obtain ⟨e1, e2, e3, e4, e5, e6, e7⟩ := hview
    cases w <;> simp_all [State.deckView, State.returnToRest, State.releaseOwner, State.postStopped, moverResource]

/-! ## The end of a settle (R134) -/

/-- The law once a mover that has settled is idle with its record NONE, and has left its place as the holder. -/
theorem State.settled_deckLaw (h : s.DeckLaw) (hm : (s.mover m).state = .settling) {t : State} (hhpu : t.hpu = s.hpu)
    (hg : t.alloc.hpuGrant = s.alloc.hpuGrant) (hmode : t.mode = s.mode)
    (hother : ∀ n, n ≠ m → t.mover n = s.mover n ∧ t.ownerOf (moverResource n) = s.ownerOf (moverResource n))
    (hidle : (t.mover m).Idle) (hout : (t.mover m).raise = (s.mover m).raise ∧ (t.mover m).lower = (s.mover m).lower
      ∧ (t.mover m).travelTimer = (s.mover m).travelTimer ∧ (t.mover m).settleTimer = none) : (t.handOver m).DeckLaw := by
  obtain ⟨hr, hl, ht⟩ := (h.fits m).still (by simp [hm])
  obtain ⟨h1, h2, h3, h4⟩ := hout
  have hnm : (t.mover m).state ≠ .moving := by rcases hidle with e | e <;> simp [e]
  have hw : s.hpu.waiting ≠ some m := fun e => by have := ((h.fits m).waiter e).1; simp [hm] at this
  unfold State.handOver
  rw [hhpu]
  split
  · rename_i hh
    have hu : (t.onHpu fun p => { p with holder := none }).DeckLaw := by
      refine (State.deckLaw_iff _).mpr ⟨?_, fun n => ?_, fun n => ?_, fun e => ⟨?_, fun n => ?_⟩⟩
      · simp only [State.onHpu_hpu, State.onHpu_alloc, hg, hhpu]
        exact h.hpuFits.of_slots rfl rfl rfl fun _ e => ⟨rfl, e⟩
      · simp only [State.mover_onHpu, State.onHpu_hpu, hhpu]
        by_cases hn : n = m
        · subst hn
          exact .apart (by simp) hw hnm (h1.trans hr) (h2.trans hl) (h3.trans ht) (by simp [h4])
        · rw [(hother n hn).1]
          exact (h.fits n).pump (fun e => hn (Option.some.inj (((h.fits n).moving e).2.symm.trans hh))) (by simp)
            (fun e => ⟨((h.fits n).waiter e).1, by simp⟩)
      · by_cases hn : n = m
        · subst hn; intro _; simpa using hidle
        · have := h.manned n
          simpa [State.Manned, (hother n hn).1, (hother n hn).2] using this
      · simp only [State.onHpu_hpu, hhpu]; exact (h.quiet (hmode ▸ e)).1
      · by_cases hn : n = m
        · subst hn; simpa using hidle
        · simp only [State.mover_onHpu, (hother n hn).1]; exact (h.quiet (hmode ▸ e)).2 n
    dsimp only
    split
    · exact hu
    · refine State.serveWaiter_deckLaw hu rfl ?_
      simp only [State.onHpu_hpu, hhpu]
      refine h.contactor.mpr ?_
      by_contra hc
      push Not at hc
      have := (h.unheld hc.1 hc.2.1).1
      simp [hh] at this
  · rename_i hh
    refine h.of_mover m hhpu (by rw [hg]) hmode hother
      (.apart hh hw hnm (h1.trans hr) (h2.trans hl) (h3.trans ht) (by simp [h4])) (fun _ => hidle) (fun _ => hidle)

/-- What the outcome of a settle leaves: all of the deck but its own mover, which is idle with its valves and travel timer as they
were. -/
theorem State.settleOutcome_frame (s : State) (m : MoverId) : ∃ (u : State) (f : Mover → Mover), s.settleOutcome m = u
    ∧ u.hpu = s.hpu ∧ u.alloc = s.alloc ∧ u.mode = s.mode ∧ u.windlass = s.windlass ∧ (∀ r, u.ownerOf r = s.ownerOf r)
    ∧ (∀ n, n ≠ m → u.mover n = s.mover n) ∧ u.mover m = f (s.mover m)
    ∧ (f (s.mover m)).Idle ∧ (f (s.mover m)).raise = (s.mover m).raise ∧ (f (s.mover m)).lower = (s.mover m).lower
    ∧ (f (s.mover m)).travelTimer = (s.mover m).travelTimer ∧ (f (s.mover m)).settleTimer = none ∧ Calm s u := by
  unfold State.settleOutcome
  dsimp only
  split
  · rename_i f _
    refine ⟨_, fun r => { r with state := .fault, fault := some f, settleTimer := none }, rfl, by simp, by simp [State.offer_alloc],
      by simp, by simp, by simp, fun n hn => by simp [State.mover_onMover_ne _ hn], by simp, .inr rfl, rfl, rfl, rfl, rfl, ?_⟩
    exact ((Calm.of_onMover _ _ _).trans (Kept.of_post _ _ _ _).calm).trans (Kept.of_offer _ _).calm
  · have hoffer : ∀ (v : State) (k : Option Motion), (v.offerCompletion m k = v ∨ ∃ e, v.offerCompletion m k = v.offer e) := by
      intro v k
      unfold State.offerCompletion
      split
      · split
        · exact .inl rfl
        · exact .inr ⟨_, rfl⟩
      · exact .inl rfl
    have fin : ∀ v : State, (v = (s.onMover m fun r => { r with state := .atRest, settleTimer := none })
          ∨ ∃ k x d, v = (s.onMover m fun r => { r with state := .atRest, settleTimer := none }).post k x d) →
        ∃ (u : State) (f : Mover → Mover), v.offerCompletion m (s.mover m).motion = u
          ∧ u.hpu = s.hpu ∧ u.alloc = s.alloc ∧ u.mode = s.mode ∧ u.windlass = s.windlass ∧ (∀ r, u.ownerOf r = s.ownerOf r)
          ∧ (∀ n, n ≠ m → u.mover n = s.mover n) ∧ u.mover m = f (s.mover m)
          ∧ (f (s.mover m)).Idle ∧ (f (s.mover m)).raise = (s.mover m).raise ∧ (f (s.mover m)).lower = (s.mover m).lower
          ∧ (f (s.mover m)).travelTimer = (s.mover m).travelTimer ∧ (f (s.mover m)).settleTimer = none ∧ Calm s u := by
      intro v hv
      refine ⟨_, fun r => { r with state := .atRest, settleTimer := none }, rfl, ?_⟩
      rcases hv with rfl | ⟨k, x, d, rfl⟩ <;> rcases hoffer _ (s.mover m).motion with e | ⟨t, e⟩ <;> rw [e] <;>
        refine ⟨by simp, by simp [State.offer_alloc], by simp, by simp, by simp, fun n hn => by simp [State.mover_onMover_ne _ hn], by simp,
        .inl rfl, rfl, rfl, rfl, rfl, ?_⟩
      · exact .of_onMover _ _ _
      · exact (Calm.of_onMover _ _ _).trans (Kept.of_offer _ _).calm
      · exact (Calm.of_onMover _ _ _).trans (Kept.of_post _ _ _ _).calm
      · exact ((Calm.of_onMover _ _ _).trans (Kept.of_post _ _ _ _).calm).trans (Kept.of_offer _ _).calm
    split
    · exact fin _ (.inr ⟨_, _, _, rfl⟩)
    · exact fin _ (.inr ⟨_, _, _, rfl⟩)
    · exact fin _ (.inr ⟨_, _, _, rfl⟩)
    · exact fin _ (.inl rfl)

theorem State.settleEnd_deckLaw (h : s.DeckLaw) (hm : (s.mover m).state = .settling) : (s.settleEnd m).DeckLaw := by
  have hd : ∃ d : State, s.disagreementTest m = d ∧ d.DeckLaw ∧ (d.mover m).state = .settling := by
    refine ⟨_, rfl, ?_⟩
    unfold State.disagreementTest
    split
    · refine ⟨h.of_mover m (by simp) (by simp) (by simp) (fun n hn => by simp [State.mover_onMover_ne _ hn]) ?_ (fun e => ?_) (fun e => ?_), ?_⟩
      · rw [State.mover_onMover]; exact (h.fits m).congr rfl rfl rfl rfl rfl
      · have := h.manned m (by simpa using e)
        simpa [Mover.Idle, Mover.noteDisagreement] using this
      · have := (h.quiet e).2 m
        simpa [Mover.Idle, Mover.noteDisagreement] using this
      · simpa [Mover.noteDisagreement] using hm
    · exact ⟨h, hm⟩
  obtain ⟨d, hde, hdl, hds⟩ := hd
  obtain ⟨u, f, hu, e1, e2, e3, -, e5, e6, e7, e8, e9, e10, e11, e12, -⟩ := d.settleOutcome_frame m
  unfold State.settleEnd
  rw [hde, hu]
  refine State.settled_deckLaw hdl hds (by simp [State.releaseOwner, e1]) (by simp [State.releaseOwner, e2]) (by simp [State.releaseOwner, e3])
    (fun n hn => ?_) ?_ ?_
  · simp [State.releaseOwner, State.mover_onMover_ne _ hn, e6 n hn, State.ownerOf_onOwner_ne _ (fun e => hn (moverResource_inj.mp e)), e5]
  · simpa [State.releaseOwner, e7, Mover.Idle] using e8
  · simpa [State.releaseOwner, e7] using ⟨e9, e10, e11, e12⟩

end Sys2Proof.Machine
end

section
/-!
PROOFS. The operations of the deck keep every law: what they leave of the rest of the part, and the law of the deck where it is not
yet proved (R113, R121 to R135).
-/

namespace Sys2Proof.Machine

variable {s t u : State} {m : MoverId}

/-! ## What an operation of the deck leaves -/

/-- An operation of the hatch, the platform and the pump: calm, and nothing of the windlass touched. -/
structure DeckStep (s t : State) : Prop where
  calm : Calm s t
  view : t.windlassView' = s.windlassView'

theorem DeckStep.refl : DeckStep s s := ⟨.refl, rfl⟩

theorem DeckStep.trans (h : DeckStep s t) (g : DeckStep t u) : DeckStep s u := ⟨h.calm.trans g.calm, g.view.trans h.view⟩

/-- With its law of the deck, an operation of the deck keeps every law. -/
theorem DeckStep.kept (h : DeckStep s t) (hd : s.DeckLaw → t.DeckLaw) : Kept s t :=
  ⟨h.calm, by have := h.view; simp only [State.windlassView', Prod.mk.injEq] at this; exact this.2.2.1, hd, .of_view h.view⟩

variable (s)

theorem DeckStep.of_onHpu (f : Hpu → Hpu) : DeckStep s (s.onHpu f) := ⟨.of_onHpu s f, rfl⟩

theorem DeckStep.of_onMover (m : MoverId) (f : Mover → Mover) : DeckStep s (s.onMover m f) :=
  ⟨.of_onMover s m f, by cases m <;> rfl⟩

theorem DeckStep.of_onOwner (m : MoverId) (f : OwnerRecord → OwnerRecord) : DeckStep s (s.onOwner (moverResource m) f) :=
  ⟨.of_onOwner s _ f, by cases m <;> rfl⟩

theorem DeckStep.of_post (k : NoticeKind) (n : Nat) (d : List Byte) : DeckStep s (s.post k n d) := ⟨(Kept.of_post s k n d).calm, rfl⟩

theorem DeckStep.of_offer (e : Trigger) : DeckStep s (s.offer e) :=
  ⟨(Kept.of_offer s e).calm, by simp [State.windlassView', State.offer_alloc]⟩

theorem DeckStep.of_releaseGrant : DeckStep s (s.releaseGrant .hpu) :=
  ⟨.of_releaseGrant s .hpu, by simp [State.windlassView']⟩

theorem DeckStep.of_postStopped (m : MoverId) (c : Cause) : DeckStep s (s.postStopped m c) := .of_post s _ _ _

theorem DeckStep.of_enterSettling (m : MoverId) (c : Cause) : DeckStep s (s.enterSettling m c) := .of_onMover s m _

theorem DeckStep.of_releaseOwner (m : MoverId) : DeckStep s (s.releaseOwner (moverResource m)) := .of_onOwner s m _

theorem DeckStep.of_enterMoving (m : MoverId) : DeckStep s (s.enterMoving m) := .of_onMover s m _

theorem DeckStep.of_returnToRest (m : MoverId) (c : Cause) : DeckStep s (s.returnToRest m c) :=
  ((of_onMover s m _).trans (of_postStopped _ m c)).trans (of_releaseOwner _ m)

theorem DeckStep.of_hpuOff : DeckStep s s.hpuOff := (of_onHpu s _).trans (of_releaseGrant _)

theorem DeckStep.of_hpuIdle : DeckStep s s.hpuIdle := by
  unfold State.hpuIdle
  split
  · exact of_hpuOff s
  · exact of_onHpu s _

theorem DeckStep.of_givePump (m : MoverId) : DeckStep s (s.givePump m) := (of_onHpu s _).trans (of_enterMoving _ m)

theorem DeckStep.of_serveWaiter : DeckStep s s.serveWaiter := by
  unfold State.serveWaiter
  split
  · exact of_hpuIdle s
  · dsimp only
    split
    · exact (of_onHpu s _).trans (of_givePump _ _)
    · exact ((of_onHpu s _).trans (of_returnToRest _ _ _)).trans (of_hpuIdle _)

theorem DeckStep.of_hpuReady : DeckStep s s.hpuReady := by
  unfold State.hpuReady
  split
  · split
    · exact of_givePump s _
    · exact ((of_onHpu s _).trans (of_returnToRest _ _ _)).trans (of_serveWaiter _)
  · exact of_serveWaiter s

theorem DeckStep.of_handOver (m : MoverId) : DeckStep s (s.handOver m) := by
  unfold State.handOver
  split
  · dsimp only
    split
    · exact of_onHpu s _
    · exact (of_onHpu s _).trans (of_serveWaiter _)
  · exact refl

theorem DeckStep.of_dropIdleStart : DeckStep s s.dropIdleStart := by
  unfold State.dropIdleStart
  split
  · exact of_hpuOff s
  · exact refl

theorem DeckStep.of_withdraw (m : MoverId) (c : Cause) : DeckStep s (s.withdraw m c) :=
  ((of_onHpu s _).trans (of_returnToRest _ m c)).trans (of_dropIdleStart _)

theorem DeckStep.of_tellHolder : DeckStep s s.tellHolder := by
  unfold State.tellHolder
  split
  · exact refl
  · dsimp only
    split
    · exact (of_onHpu s _).trans (of_enterSettling _ _ _)
    · exact (of_onHpu s _).trans (of_returnToRest _ _ _)
    · exact of_onHpu s _

theorem DeckStep.of_tellWaiter : DeckStep s s.tellWaiter := by
  unfold State.tellWaiter
  split
  · exact refl
  · exact (of_onHpu s _).trans (of_returnToRest _ _ _)

theorem DeckStep.of_hpuFault (c : Cause) : DeckStep s (s.hpuFault c) := by
  rw [State.hpuFault_eq]
  refine (trans ?_ (of_tellHolder _)).trans (of_tellWaiter _)
  exact (((of_onHpu s _).trans (of_releaseGrant _)).trans (of_post _ _ _ _)).trans (of_offer _ _)

theorem DeckStep.of_settleEnd (m : MoverId) : DeckStep s (s.settleEnd m) := by
  have hd : DeckStep s (s.disagreementTest m) := by
    unfold State.disagreementTest
    split
    · exact of_onMover s m _
    · exact refl
  obtain ⟨u, f, hu, -, e2, e3, e4, e5, -, -, -, -, -, -, -, hc⟩ := (s.disagreementTest m).settleOutcome_frame m
  have ho : DeckStep (s.disagreementTest m) u := ⟨hc, by
    have := e5 .windlass
    simp only [State.ownerOf] at this
    simp [State.windlassView', e2, e3, e4, this]⟩
  unfold State.settleEnd
  rw [hu]
  exact (((hd.trans ho).trans (of_onOwner _ m _)).trans (of_onMover _ m _)).trans (of_handOver _ m)

/-! ## Stops and the watch of the interlocks -/

theorem Kept.of_moverStop (m : MoverId) (c : Cause) : Kept s (s.moverStop m c) := by
  refine DeckStep.kept ?_ fun h => s.moverStop_deckLaw h m c
  rcases s.moverStop_cases m c with ⟨-, e⟩ | ⟨-, e⟩ | ⟨-, -, e⟩ <;> rw [e]
  · exact .of_enterSettling s m c
  · exact .of_withdraw s m c
  · exact .refl

theorem Kept.of_watchInterlockOf (m : MoverId) : Kept s (s.watchInterlockOf m) := by
  refine DeckStep.kept ?_ fun h => s.watchInterlockOf_deckLaw h m
  rcases s.watchInterlockOf_cases m with ⟨-, -, e⟩ | ⟨-, e⟩ <;> rw [e]
  · exact .of_enterSettling s m _
  · exact .refl

theorem Kept.of_watchInterlock : Kept s s.watchInterlock := (of_watchInterlockOf s .hatch).trans (of_watchInterlockOf _ .platform)

/-- A MOVING mover that settles keeps every law. -/
theorem Kept.of_enterSettling (m : MoverId) (c : Cause) (hm : (s.mover m).state = .moving) : Kept s (s.enterSettling m c) :=
  (DeckStep.of_enterSettling s m c).kept fun h => s.enterSettling_deckLaw h c hm

/-- A change of a mover that leaves state, valves and timers keeps every law. -/
theorem Kept.of_onMover (m : MoverId) (f : Mover → Mover) (h1 : (f (s.mover m)).state = (s.mover m).state)
    (h2 : (f (s.mover m)).raise = (s.mover m).raise) (h3 : (f (s.mover m)).lower = (s.mover m).lower)
    (h4 : (f (s.mover m)).travelTimer = (s.mover m).travelTimer) (h5 : (f (s.mover m)).settleTimer = (s.mover m).settleTimer) :
    Kept s (s.onMover m f) := by
  refine (DeckStep.of_onMover s m f).kept fun h => ?_
  have hidle : (f (s.mover m)).Idle ↔ (s.mover m).Idle := by simp only [Mover.Idle, h1]
  refine h.of_mover m (by simp) (by simp) (by simp) (fun n hn => by simp [State.mover_onMover_ne _ hn]) ?_ (fun e => ?_) (fun e => ?_)
  · rw [State.mover_onMover]; exact (h.fits m).congr h1 h2 h3 h4 h5
  · rw [State.mover_onMover, hidle]; exact h.manned m (by simpa using e)
  · rw [State.mover_onMover, hidle]; exact (h.quiet e).2 m

/-- A change of the pump that leaves state, contactor, places and the run-on timer keeps every law. -/
theorem Kept.of_onHpu (f : Hpu → Hpu) (h1 : (f s.hpu).state = s.hpu.state) (h2 : (f s.hpu).contactor = s.hpu.contactor)
    (h3 : (f s.hpu).holder = s.hpu.holder) (h4 : (f s.hpu).waiting = s.hpu.waiting) (h5 : (f s.hpu).runOnTimer = s.hpu.runOnTimer) :
    Kept s (s.onHpu f) := by
  refine (DeckStep.of_onHpu s f).kept fun h => ?_
  refine h.of_hpu (by simp) (by simp) rfl (h.hpuFits.of_slots h1 h2 h5 fun a b => ⟨h3.trans a, h4.trans b⟩) (fun n => ?_)
    (fun e => h2.trans (h.quiet e).1)
  obtain ⟨a, b, c, d, e⟩ := h.fits n
  exact ⟨by simpa [h1, h3] using a, by simpa [h3, h4] using b, by simpa [h1, h3] using c, d, e⟩

/-- An update of an ownership record that keeps its owner keeps every law. -/
theorem Kept.of_onOwner (r : Resource) (f : OwnerRecord → OwnerRecord) (h : (f (s.ownerOf r)).owner = (s.ownerOf r).owner) :
    Kept s (s.onOwner r f) := by
  have ho : ∀ q, ((s.onOwner r f).ownerOf q).owner = (s.ownerOf q).owner := fun q => by
    by_cases e : q = r
    · subst e; rw [State.ownerOf_onOwner]; exact h
    · rw [State.ownerOf_onOwner_ne s e]
  refine ⟨.of_onOwner s r f, by simp, fun g => ?_, fun g => ?_⟩
  · refine (State.deckLaw_iff _).mpr ⟨by simpa using g.hpuFits, fun n => by simpa using g.fits n, fun n e => ?_, fun e => ?_⟩
    · rw [State.mover_onOwner]; exact g.manned n ((ho _).symm.trans e)
    · simpa [State.DeckQuiet] using g.quiet (by simpa using e)
  · obtain ⟨a, b, c, d, e, f', i⟩ := g
    exact ⟨by simpa using a, by simpa using b, by simpa using c, by simpa using d, by simpa using e,
      fun e' => by simpa using f' ((ho .windlass).symm.trans e'), by simpa using i⟩

/-! ## Faults told at a sweep, and the watches -/

theorem Kept.of_hpuFault (c : Cause) : Kept s (s.hpuFault c) := (DeckStep.of_hpuFault s c).kept fun h => s.hpuFault_deckLaw h c

theorem Kept.of_pressureFaulted : Kept s s.pressureFaulted := by
  unfold State.pressureFaulted
  split
  · exact .refl
  · exact .of_onHpu s _ rfl rfl rfl rfl rfl
  · exact .of_hpuFault s _

theorem Mover.noteFault_frame (r : Mover) (c : Cause) : ∃ l p, r.noteFault c = { r with stopLater := l, pendingFault := p } := by
  unfold Mover.noteFault
  split
  · exact ⟨_, _, rfl⟩
  · split <;> exact ⟨_, _, rfl⟩

theorem Kept.of_angleHasFaulted (m : MoverId) : Kept s (s.angleHasFaulted m) := by
  unfold State.angleHasFaulted
  split
  · exact .refl
  · rename_i hm; exact (DeckStep.of_withdraw s m _).kept fun h => s.withdraw_deckLaw h _ hm
  · rename_i hm; exact .of_enterSettling s m _ hm
  · obtain ⟨l, p, e⟩ := (s.mover m).noteFault_frame .sensorFault
    exact .of_onMover s m _ (by rw [e]) (by rw [e]) (by rw [e]) (by rw [e]) (by rw [e])
  · exact .of_onMover s m _ rfl rfl rfl rfl rfl

theorem Kept.of_reposition (m : MoverId) : Kept s (s.reposition m) := .of_onMover s m _ rfl rfl rfl rfl rfl

theorem Kept.of_moverSweep (m : MoverId) : Kept s (s.moverSweep m) := by
  unfold State.moverSweep
  dsimp only
  split
  · exact .refl
  · split
    · exact .refl
    · rename_i hm
      push Not at hm
      split
      · exact .of_enterSettling s m _ hm
      · have hs : Kept s (s.onMover m fun r => { r with stall := (s.stallStep m).1 }) := .of_onMover s m _ rfl rfl rfl rfl rfl
        split
        · exact hs.trans (.of_enterSettling _ m _ (by simpa using hm))
        · split
          · exact hs.trans (.of_enterSettling _ m _ (by simpa using hm))
          · exact hs

theorem Kept.of_hpuSweep : Kept s s.hpuSweep := by
  unfold State.hpuSweep
  split
  · exact .of_onHpu s _ rfl rfl rfl rfl rfl
  · dsimp only
    have hs : Kept s (s.onHpu fun h => { h with overWatch := s.overStep.1 }) := .of_onHpu s _ rfl rfl rfl rfl rfl
    split
    · split
      · exact hs.trans (.of_onHpu _ _ rfl rfl rfl rfl rfl)
      · exact hs.trans (.of_hpuFault _ _)
    · split
      · rename_i hc
        exact hs.trans ((DeckStep.of_hpuReady _).kept fun h => State.hpuReady_deckLaw h hc.1)
      · exact hs

theorem Kept.of_switchEvent (sw : DeckSwitch) (active : Bool) : Kept s (s.switchEvent sw active) := by
  unfold State.switchEvent
  dsimp only
  have hs : Kept s (s.onMover (switchMover sw) fun r => r.setSwitch sw active) := by
    cases sw <;> exact .of_onMover s _ _ rfl rfl rfl rfl rfl
  refine ((hs.trans (.of_reposition _ (switchMover sw))).trans (.of_watchInterlockOf _ (otherMover (switchMover sw)))).trans ?_
  · unfold State.switchArrival
    dsimp only
    split
    · exact .refl
    · split
      · rename_i hc; exact .of_enterSettling _ _ _ hc.2.1
      · exact .refl

/-! ## Timers -/

/-- An expiry whose operation keeps the laws where its timer runs keeps them. -/
theorem State.DeckLaw.moving_of_travel (h : s.DeckLaw) {e : Uptime} (ht : (s.mover m).travelTimer = some e) : (s.mover m).state = .moving :=
  (h.fits m).timers.1 (by simp [ht])

theorem Kept.of_travelTimeout (m : MoverId) {e : Uptime} (ht : (s.mover m).travelTimer = some e) : Kept s (s.enterSettling m .travelTimeout) :=
  (DeckStep.of_enterSettling s m _).kept fun h => s.enterSettling_deckLaw h _ (h.moving_of_travel s ht)

theorem Kept.of_settleEnd (m : MoverId) {e : Uptime} (ht : (s.mover m).settleTimer = some e) : Kept s (s.settleEnd m) :=
  (DeckStep.of_settleEnd s m).kept fun h => s.settleEnd_deckLaw h ((h.fits m).timers.2 (by simp [ht]))

theorem Kept.of_runOnExpiry {e : Uptime} (ht : s.hpu.runOnTimer = some e) : Kept s s.hpuOff :=
  (DeckStep.of_hpuOff s).kept fun h => s.hpuOff_deckLaw h (by
    have := h.runOn (by simp [ht])
    exact (h.unheld (by simp [this]) (by simp [this])).1)

/-! ## Faults cleared -/

theorem Kept.of_clearedHpu (hf : s.hpu.state = .fault) : Kept s (s.onHpu fun h => { h with state := .off, fault := none, overWatch := none }) := by
  refine (DeckStep.of_onHpu s _).kept fun h => ?_
  obtain ⟨hh, hw⟩ := h.unheld (by simp [hf]) (by simp [hf])
  have hc : s.hpu.contactor = false := by
    cases e : s.hpu.contactor
    · rfl
    · have := h.contactor.mp e; simp [hf] at this
  have hr : s.hpu.runOnTimer.isSome = true → False := fun e => by have := h.runOn e; simp [hf] at this
  exact h.of_hpu (by simp) (by simp) rfl ⟨by simp [hc], by simp [hc], by simp [hh, hw], fun e => (hr e).elim⟩
    (fun n => h.fits_unheld hh (by exact hh) (by exact hw) n) (fun _ => hc)

theorem Kept.of_clearedMover (m : MoverId) (hf : (s.mover m).state = .fault) :
    Kept s (s.onMover m fun r => { r with state := .atRest, fault := none }) := by
  refine (DeckStep.of_onMover s m _).kept fun h => ?_
  obtain ⟨hr, hl, ht⟩ := (h.fits m).still (by simp [hf])
  refine h.of_mover m (by simp) (by simp) (by simp) (fun n hn => by simp [State.mover_onMover_ne _ hn]) ?_
    (fun _ => by rw [State.mover_onMover]; exact .inl rfl) (fun _ => by rw [State.mover_onMover]; exact .inl rfl)
  rw [State.mover_onMover]
  have := h.fits m
  obtain ⟨a, b, c, d, e⟩ := this
  refine ⟨fun x => ⟨fun y => ?_, fun y => ?_⟩, fun x => ?_, by simp, ⟨by simp [hr], fun _ => ⟨hr, hl⟩⟩, by simp [ht], fun x => ?_⟩
  · have := (a x).1 y; simp [hf] at this
  · have := (a x).2 y; simp [hf] at this
  · have := (b x).1; simp [hf] at this
  · have := e.2 x; simp [hf] at this

/-! ## An accepted motion (R120, R122, R128, R129) -/

/-- The law without its last two parts: what the pump and the movers come to while a motion is accepted, before its owner is set. -/
def State.DeckFits (s : State) : Prop := s.hpu.Fits s.alloc.hpuGrant.isSome ∧ ∀ m, (s.mover m).Fits s.hpu m

/-- What it comes to that a motion of a mover is accepted: the law holds once the mover has an owner. -/
structure MotionAccepted (s t : State) (m : MoverId) : Prop where
  step : DeckStep s t
  fits : s.DeckLaw → (s.mover m).Idle → (s.mover m).state ≠ .fault → s.mode = .run → t.DeckFits
  other : ∀ n, n ≠ m → t.mover n = s.mover n
  owners : ∀ r, t.ownerOf r = s.ownerOf r

/-- A mover at rest takes up a wait for the pump. -/
theorem Mover.Fits.waits {r : Mover} {p p' : Hpu} {k : Motion} (h : r.Fits p m) (hr : r.state = .atRest)
    (hh : p'.holder = some m → p'.state = .starting) (hw : p'.waiting = some m → p'.holder ≠ some m) :
    Mover.Fits { r with state := .waitPump, motion := some k } p' m := by
  obtain ⟨h1, h2, h3⟩ := h.still (by simp [hr])
  refine ⟨fun e => ⟨fun _ => rfl, fun g => by simp [hh e] at g⟩, fun e => ⟨rfl, hw e⟩, by simp, ⟨by simp [h1], fun _ => ⟨h1, h2⟩⟩,
    by simp [h3], fun e => ?_⟩
  have := h.timers.2 e
  simp [hr] at this

/-- A mover that is at rest neither holds nor waits for a pump. -/
theorem Mover.Fits.free {r : Mover} {p : Hpu} (h : r.Fits p m) (hr : r.state = .atRest) (hs : p.state = .starting ∨ p.state = .ready) :
    p.holder ≠ some m ∧ p.waiting ≠ some m := by
  refine ⟨fun e => ?_, fun e => by have := (h.waiter e).1; simp [hr] at this⟩
  rcases hs with hs | hs
  · have := (h.holder e).1 hs; simp [hr] at this
  · have := (h.holder e).2 hs; simp [hr] at this

theorem DeckStep.of_admitted {s t : State} (h : Admitted s t .hpu) : DeckStep s t := by
  obtain ⟨-, -, ho, hw, hm, -⟩ := h.alloc.deck
  have h1 := ho .windlass
  have h2 := h.other .windlass (by decide)
  simp only [State.ownerOf] at h1
  simp only [State.grant] at h2
  exact ⟨h.calm, by simp [State.windlassView', hw, h1, hm, h2]⟩

/-- A mover takes up a motion and waits for the pump (R122). -/
def State.waitsFor (s : State) (m : MoverId) (k : Motion) : State :=
  s.onMover m fun r => { r with state := .waitPump, motion := some k }

/-- The fit of a mover that takes up its wait for a pump whose state and places have been set. -/
theorem State.waitsFor_fits {s u : State} (k : Motion) (h : s.DeckLaw) (hr : (s.mover m).state = .atRest) (hmov : ∀ n, u.mover n = s.mover n)
    (hp : u.hpu.Fits u.alloc.hpuGrant.isSome) (hh : u.hpu.holder = some m → u.hpu.state = .starting)
    (hw : u.hpu.waiting = some m → u.hpu.holder ≠ some m) (hothers : ∀ n, n ≠ m → (s.mover n).Fits u.hpu n) :
    (u.waitsFor m k).DeckFits := by
  refine ⟨by simpa [State.waitsFor] using hp, fun n => ?_⟩
  by_cases hn : n = m
  · subst hn
    simp only [State.waitsFor, State.mover_onMover, hmov, State.onMover_hpu]
    exact (h.fits n).waits hr hh hw
  · simp only [State.waitsFor, State.mover_onMover_ne _ hn, hmov, State.onMover_hpu]
    exact hothers n hn

theorem State.pump_cases (m : MoverId) (k : Motion) :
    (∃ t st, s.pump m k = (t, some st) ∧ Kept s t) ∨ ∃ t, s.pump m k = (t, none) ∧ MotionAccepted s t m := by
  have hrest : (s.mover m).Idle → (s.mover m).state ≠ .fault → (s.mover m).state = .atRest := fun h g => h.resolve_right g
  unfold State.pump
  dsimp only
  split
  · rename_i hoff
    split
    · exact .inl ⟨_, _, rfl, .refl⟩
    · rcases s.startAdmission_cases .hpu s.hpu.settings.rated s.hpu.settings.inrush s.hpu.settings.inrushWindow with
        ⟨t, e, hk⟩ | ⟨t, e, ha⟩
      · rw [e]; exact .inl ⟨_, _, rfl, hk⟩
      · rw [e]
        obtain ⟨h1, h2, h3, -⟩ := ha.alloc.deck
        have hg := ha.made
        simp only [State.grant] at hg
        refine .inr ⟨_, rfl, ⟨((DeckStep.of_admitted ha).trans (.of_onHpu _ _)).trans (.of_onMover _ m _), fun h hi hf _ => ?_,
          fun n hn => by simp [State.mover_onMover_ne _ hn, h2], fun r => by simp [h3]⟩⟩
        obtain ⟨hh, hw⟩ := h.unheld (by simp [hoff]) (by simp [hoff])
        refine State.waitsFor_fits k h (hrest hi hf) (by simp [h2]) ⟨by simp, by simp [hg], by simp, fun x => ?_⟩ (by simp)
          (by simp [h1, hw]) (fun n hn => ?_)
        · have := h.runOn (by simpa [h1] using x); simp [hoff] at this
        · exact (h.fits n).pump (h.unmoved hh n) (fun x => absurd (Option.some.inj x).symm hn) (by simp [h1, hw])
  · rename_i hs
    refine .inr ⟨_, rfl, ⟨(DeckStep.of_onHpu s _).trans (.of_onMover _ m _), fun h hi hf _ => ?_,
      fun n hn => by simp [State.mover_onMover_ne _ hn], fun r => by simp⟩⟩
    have hfree := (h.fits m).free (hrest hi hf) (.inl hs)
    have hmov : ∀ n, (s.mover n).state ≠ .moving := fun n e => by have := ((h.fits n).moving e).1; simp [hs] at this
    by_cases hh : s.hpu.holder.isSome = true
    · refine State.waitsFor_fits k h (hrest hi hf) (by simp) ?_ (by simp [hh, hs]) (by simp [hh, hfree.1]) (fun n hn => ?_)
      · simp only [State.onHpu_hpu, State.onHpu_alloc, hh, if_true]
        exact h.hpuFits.of_slots rfl rfl rfl fun e => by simp [e] at hh
      · simp only [State.onHpu_hpu, hh, if_true]
        exact (h.fits n).pump (hmov n) (fun e => ⟨hs, ((h.fits n).holder e).1 hs⟩) (fun e => absurd (Option.some.inj e).symm hn)
    · have hn : s.hpu.holder = none := by simpa using hh
      refine State.waitsFor_fits k h (hrest hi hf) (by simp) ?_ (by simp [hn, hs]) (by simp [hn, hfree.2]) (fun n hn' => ?_)
      · simp only [State.onHpu_hpu, State.onHpu_alloc, hn, Option.isSome_none, Bool.false_eq_true, if_false]
        exact ⟨h.contactor, h.granted, fun a => absurd hs a, h.runOn⟩
      · simp only [State.onHpu_hpu, hn, Option.isSome_none, Bool.false_eq_true, if_false]
        exact (h.fits n).pump (hmov n) (fun e => absurd (Option.some.inj e).symm hn')
          (fun e => ⟨((h.fits n).waiter e).1, fun e' => hn' (Option.some.inj e').symm⟩)
  · rename_i hs
    refine .inr ⟨_, rfl, ⟨(DeckStep.of_onHpu s _).trans (.of_onMover _ m _), fun h hi hf _ => ?_,
      fun n hn => by simp [State.mover_onMover_ne _ hn], fun r => by simp⟩⟩
    have hfree := (h.fits m).free (hrest hi hf) (.inr hs)
    refine State.waitsFor_fits k h (hrest hi hf) (by simp) ⟨h.contactor, h.granted, fun _ a => absurd hs a, h.runOn⟩
      (by simp [hfree.1]) (by simp [hfree.1]) (fun n hn => ?_)
    obtain ⟨a, b, c, d, e⟩ := h.fits n
    exact ⟨a, fun x => absurd (Option.some.inj x).symm hn, c, d, e⟩
  · rename_i hs
    refine .inr ⟨_, rfl, ⟨(DeckStep.of_onMover s m _).trans (.of_givePump _ m), fun h hi hf _ => ?_,
      fun n hn => by simp [State.givePump, State.enterMoving, State.mover_onMover_ne _ hn],
      fun r => by simp [State.givePump, State.enterMoving]⟩⟩
    obtain ⟨hh, hw⟩ := h.unheld (by simp [hs]) (by simp [hs])
    have hk := (Kept.of_onMover s m (fun r => { r with motion := some k }) rfl rfl rfl rfl rfl).deckLaw h
    exact State.givePump_fits hk (by simpa using h.contactor.mpr (.inr (.inr hs))) (.inr (by simpa using hrest hi hf))
      (by simp [hh]) (by simp [hw])
  · exact .inl ⟨_, _, rfl, .refl⟩

theorem State.startMotion_cases (m : MoverId) (kind : MotionKind) (dir : Direction) (goal : Position) :
    (∃ t st, s.startMotion m kind dir goal = (t, some st) ∧ Kept s t)
      ∨ ∃ t, s.startMotion m kind dir goal = (t, none) ∧ MotionAccepted s t m := by
  unfold State.startMotion
  dsimp only
  split
  · exact .inl ⟨_, _, rfl, .refl⟩
  · split
    · exact .inl ⟨_, _, rfl, .refl⟩
    · exact s.pump_cases m _

/-- An accepted motion whose mover then gets an owner keeps every law, in RUN, where nobody owned the mover and it is not in FAULT. -/
theorem MotionAccepted.kept {s t : State} (h : MotionAccepted s t m) (hrun : s.mode = .run)
    (ho : (s.ownerOf (moverResource m)).owner = .none) (hf : (s.mover m).state ≠ .fault) (o : OwnerRecord) (hne : o.owner ≠ .none) :
    Kept s (t.onOwner (moverResource m) fun _ => o) := by
  have hmode := h.step.view
  simp only [State.windlassView', Prod.mk.injEq] at hmode
  refine (h.step.trans (.of_onOwner t m _)).kept fun g => ?_
  obtain ⟨h1, h2⟩ := h.fits g (g.manned m ho) hf hrun
  refine (State.deckLaw_iff _).mpr ⟨by simpa using h1, fun n => by simpa using h2 n, fun n e => ?_, fun e => ?_⟩
  · by_cases hn : n = m
    · subst hn; rw [State.ownerOf_onOwner] at e; exact absurd e hne
    · rw [State.ownerOf_onOwner_ne _ (fun x => hn (moverResource_inj.mp x)), h.owners] at e
      simp only [State.mover_onOwner, h.other n hn]
      exact g.manned n e
  · rw [State.onOwner_mode, hmode.2.2.1, hrun] at e; cases e

/-! ## The entry to STOPPING (R137) -/

theorem Kept.of_dropIdleStart : Kept s s.dropIdleStart := (DeckStep.of_dropIdleStart s).kept s.dropIdleStart_deckLaw

theorem Kept.of_runOnOff (hr : s.hpu.state = .runOn) : Kept s s.hpuOff :=
  (DeckStep.of_hpuOff s).kept fun h => s.hpuOff_deckLaw h (h.unheld (by simp [hr]) (by simp [hr])).1

end Sys2Proof.Machine
end

section
/-!
PROOFS. The operations of the windlass keep every law (R139 to R155).
-/

namespace Sys2Proof.Machine

variable {s t u : State}

/-! ## What an operation of the windlass leaves -/

/-- An operation of the windlass: calm, and nothing of the deck touched. -/
structure WindlassStep (s t : State) : Prop where
  calm : Calm s t
  view : t.deckView = s.deckView

theorem WindlassStep.refl : WindlassStep s s := ⟨.refl, rfl⟩

theorem WindlassStep.trans (h : WindlassStep s t) (g : WindlassStep t u) : WindlassStep s u := ⟨h.calm.trans g.calm, g.view.trans h.view⟩

/-- With its law of the windlass, an operation of the windlass keeps every law. -/
theorem WindlassStep.kept (h : WindlassStep s t) (hw : s.WindlassLaw → t.WindlassLaw) : Kept s t :=
  ⟨h.calm, by have := h.view; simp only [State.deckView, Prod.mk.injEq] at this; exact this.2.2.2.2.2.1, .of_view h.view, hw⟩

variable (s)

theorem WindlassStep.of_onWindlass (f : Windlass → Windlass) : WindlassStep s (s.onWindlass f) := ⟨.of_onWindlass s f, rfl⟩

theorem WindlassStep.of_onOwner (f : OwnerRecord → OwnerRecord) : WindlassStep s (s.onOwner .windlass f) := ⟨.of_onOwner s _ f, rfl⟩

theorem WindlassStep.of_releaseOwner : WindlassStep s (s.releaseOwner .windlass) := .of_onOwner s _

theorem WindlassStep.of_post (k : NoticeKind) (n : Nat) (d : List Byte) : WindlassStep s (s.post k n d) :=
  ⟨(Kept.of_post s k n d).calm, rfl⟩

theorem WindlassStep.of_offer (e : Trigger) : WindlassStep s (s.offer e) :=
  ⟨(Kept.of_offer s e).calm, by simp [State.deckView, State.offer_alloc]⟩

theorem WindlassStep.of_releaseGrant : WindlassStep s (s.releaseGrant .windlass) :=
  ⟨.of_releaseGrant s .windlass, by simp [State.deckView]⟩

theorem WindlassStep.of_closeContactor (dir : RodeDir) : WindlassStep s (s.closeContactor dir) := .of_onWindlass s _

theorem WindlassStep.of_admitted {s t : State} (h : Admitted s t .windlass) : WindlassStep s t := by
  obtain ⟨h1, hm, ho, hw, hmode, -⟩ := h.alloc.deck
  have e1 := hm .hatch
  have e2 := hm .platform
  have e3 := ho .hatch
  have e4 := ho .platform
  have e5 := h.other .hpu (by decide)
  simp only [State.mover, State.ownerOf, State.grant] at e1 e2 e3 e4 e5
  exact ⟨h.calm, by simp [State.deckView, h1, e1, e2, e3, e4, hmode, e5]⟩

/-! ## The law of the windlass under its operations -/

/-- The pieces of the windlass its law looks at. -/
def Windlass.drive (w : Windlass) : WindlassState × Bool × Bool × Bool × Bool × Option Uptime × Option Uptime × Option Uptime :=
  (w.state, w.payOut, w.heave, w.stage2, w.brakeRelease, w.brakeTimer, w.delayTimer, w.settleTimer)

theorem Kept.of_onWindlass (f : Windlass → Windlass) (h : (f s.windlass).drive = s.windlass.drive) : Kept s (s.onWindlass f) := by
  refine (WindlassStep.of_onWindlass s f).kept fun g => ?_
  simp only [Windlass.drive, Prod.mk.injEq] at h
  obtain ⟨h1, h2, h3, h4, h5, h6, h7, h8⟩ := h
  have hc : (f s.windlass).contactorClosed = s.windlass.contactorClosed := by simp [Windlass.contactorClosed, h2, h3]
  have hu : (f s.windlass).underWay = s.windlass.underWay := by simp [Windlass.underWay, h1]
  obtain ⟨a, b, c, d, e, i, j⟩ := g
  exact ⟨by simpa [h2, h3] using a, by simpa [h4, h5, hc] using b, by simpa [hc, hu, h1] using c, by simpa [hu] using d,
    by simpa [h6, h7, h8, h1, hc] using e, by simpa [h1] using i, by simpa [h1] using j⟩

/-- A windlass under way is owned and stands outside CONFIG. -/
theorem State.WindlassLaw.busy {s : State} (h : s.WindlassLaw) (hu : s.windlass.underWay = true ∨ s.windlass.state = .stopping) :
    s.windlassOwner.owner ≠ .none ∧ s.mode ≠ .config := by
  have hi : ¬ (s.windlass.state = .idle ∨ s.windlass.state = .fault) := by
    rcases hu with hu | hu
    · intro e; rcases e with e | e <;> simp [Windlass.underWay, e] at hu
    · simp [hu]
  exact ⟨fun e => hi (h.unowned e), fun e => hi (h.config e)⟩

theorem Kept.of_windlassStop (c : Cause) : Kept s (s.windlassStop c) := by
  rcases s.windlassStop_cases c with ⟨hu, e⟩ | ⟨-, e⟩ <;> rw [e]
  · refine (WindlassStep.of_onWindlass s _).kept fun h => ?_
    obtain ⟨ho, hm⟩ := h.busy (.inl hu)
    exact ⟨by simp, by simp, by simp [Windlass.contactorClosed], by simp [Windlass.underWay], by simp, fun e => absurd e ho,
      fun e => absurd e hm⟩
  · exact .refl

/-- What the windlass has energised once neither of its contactors is closed. -/
theorem State.WindlassLaw.still {s : State} (h : s.WindlassLaw) (hu : s.windlass.underWay = false) :
    s.windlass.payOut = false ∧ s.windlass.heave = false ∧ s.windlass.stage2 = false ∧ s.windlass.brakeRelease = false
      ∧ s.windlass.brakeTimer = none ∧ s.windlass.delayTimer = none := by
  have hc : s.windlass.contactorClosed = false := by
    cases e : s.windlass.contactorClosed
    · rfl
    · have := h.closed.1 e; simp [hu] at this
  have hb := h.behind
  have h1 := h.timers.1
  have h2 := h.timers.2.1
  have hne : s.windlass.state ≠ .running := fun e => by simp [Windlass.underWay, e] at hu
  have hcl : s.windlass.payOut = false ∧ s.windlass.heave = false := by simpa [Windlass.contactorClosed] using hc
  refine ⟨hcl.1, hcl.2, ?_⟩
  simp only [hc, Bool.false_eq_true, and_false, imp_false, not_or, Bool.not_eq_true, hne, Option.isSome_eq_false_iff,
    Option.isNone_iff_eq_none] at hb h1 h2
  exact ⟨hb.1, hb.2, h1, h2⟩

theorem WindlassStep.of_windlassNotice : WindlassStep s s.windlassNotice := by
  unfold State.windlassNotice
  dsimp only
  split
  · exact (of_post s _ _ _).trans (of_offer _ _)
  · split
    · exact (of_post s _ _ _).trans (of_offer _ _)
    · split
      · exact (of_post s _ _ _).trans (of_offer _ _)
      · exact of_post s _ _ _
      · exact of_post s _ _ _
      · exact refl

theorem State.windlassNotice_frame : (s.windlassNotice).windlass = s.windlass ∧ (s.windlassNotice).mode = s.mode
    ∧ (s.windlassNotice).alloc = s.alloc ∧ ∀ r, (s.windlassNotice).ownerOf r = s.ownerOf r := by
  unfold State.windlassNotice
  dsimp only
  split
  · simp [State.postRode, State.offer_alloc]
  · split
    · simp [State.postRode, State.offer_alloc]
    · split <;> simp [State.postRode, State.postAtTarget, State.offer_alloc]

theorem Windlass.settled_frame (w : Windlass) : (w.settled.state = .idle ∨ w.settled.state = .fault) ∧ w.settled.settleTimer = none
    ∧ w.settled.payOut = w.payOut ∧ w.settled.heave = w.heave ∧ w.settled.stage2 = w.stage2 ∧ w.settled.brakeRelease = w.brakeRelease
    ∧ w.settled.brakeTimer = w.brakeTimer ∧ w.settled.delayTimer = w.delayTimer := by
  unfold Windlass.settled
  split
  · exact ⟨.inr rfl, rfl, rfl, rfl, rfl, rfl, rfl, rfl⟩
  · exact ⟨.inl rfl, rfl, rfl, rfl, rfl, rfl, rfl, rfl⟩

/-- A windlass that is IDLE or in FAULT with nothing energised and no timer running meets its law. -/
theorem State.windlassLaw_of_rest {t : State} (hs : t.windlass.state = .idle ∨ t.windlass.state = .fault)
    (h1 : t.windlass.payOut = false) (h2 : t.windlass.heave = false) (h3 : t.windlass.stage2 = false) (h4 : t.windlass.brakeRelease = false)
    (h5 : t.windlass.brakeTimer = none) (h6 : t.windlass.delayTimer = none) (h7 : t.windlass.settleTimer = none) : t.WindlassLaw := by
  have hu : t.windlass.underWay = false := by rcases hs with e | e <;> simp [Windlass.underWay, e]
  have hr : t.windlass.state ≠ .running := by rcases hs with e | e <;> simp [e]
  exact ⟨by simp [h1], by simp [h3, h4], ⟨by simp [Windlass.contactorClosed, h1, h2], fun e => absurd e hr⟩, by simp [hu],
    ⟨by simp [h5], by simp [h6], by simp [h7]⟩, fun _ => hs, fun _ => hs⟩

theorem Kept.of_windlassSettleEnd {e : Uptime} (ht : s.windlass.settleTimer = some e) : Kept s s.windlassSettleEnd := by
  have step : WindlassStep s s.windlassSettleEnd :=
    ((((WindlassStep.of_onWindlass s Windlass.settled).trans (.of_releaseGrant _)).trans (.of_windlassNotice _)).trans
      (.of_releaseOwner _)).trans
      (.of_onWindlass _ fun w => { w with run := none, stopCause := none, stopLater := 0, pendingFault := none, homeFlag := false })
  refine step.kept fun h => ?_
  have hst : s.windlass.state = .stopping := h.timers.2.2 (by simp [ht])
  obtain ⟨h1, h2, h3, h4, h5, h6⟩ := h.still (by simp [Windlass.underWay, hst])
  obtain ⟨g0, g1, g2, g3, g4, g5, g6, g7⟩ := s.windlass.settled_frame
  have hw : s.windlassSettleEnd.windlass =
      { s.windlass.settled with run := none, stopCause := none, stopLater := 0, pendingFault := none, homeFlag := false } := by
    simp [State.windlassSettleEnd, State.releaseOwner, (State.windlassNotice_frame _).1]
  apply State.windlassLaw_of_rest <;> rw [hw]
  exacts [g0, g2.trans h1, g3.trans h2, g4.trans h3, g5.trans h4, g6.trans h5, g7.trans h6, g1]

/-! ## Starting and running -/

theorem Kept.of_closeContactor (dir : RodeDir) (hs : s.windlass.state = .starting) (hc : s.windlass.contactorClosed = false) :
    Kept s (s.closeContactor dir) := by
  refine (WindlassStep.of_onWindlass s _).kept fun h => ?_
  obtain ⟨ho, hm⟩ := h.busy (.inl (by simp [Windlass.underWay, hs]))
  have hb := h.behind
  simp only [hc, Bool.false_eq_true, imp_false, not_or, Bool.not_eq_true] at hb
  have hu : s.windlass.underWay = true := by simp [Windlass.underWay, hs]
  refine ⟨?_, by simp [hb], ⟨fun _ => by simp [Windlass.underWay, hs], by simp [hs]⟩, fun _ => h.granted hu, ⟨fun _ => ?_, ?_, ?_⟩,
    fun e => absurd e ho, fun e => absurd e hm⟩
  · cases dir <;> simp
  · cases dir <;> simp [hs, Windlass.contactorClosed]
  · simpa using h.timers.2.1
  · simpa using h.timers.2.2

/-- An operation that keeps the laws, with one of the windlass after it. -/
theorem Kept.andThen {s t u : State} (h : Kept s t) (g : WindlassStep t u) (hl : s.WindlassLaw → t.WindlassLaw → u.WindlassLaw) :
    Kept s u := by
  have hm := g.view
  simp only [State.deckView, Prod.mk.injEq] at hm
  exact ⟨h.calm.trans g.calm, hm.2.2.2.2.2.1.trans h.mode, fun e => .of_view g.view (h.deckLaw e), fun e => hl e (h.windlassLaw e)⟩

theorem Kept.of_stage2Closed (hr : s.windlass.state = .running) : Kept s (s.onWindlass fun w => { w with stage2 := true }) := by
  refine (WindlassStep.of_onWindlass s _).kept fun h => ?_
  have hc := h.closed.2 hr
  obtain ⟨a, -, c, d, e, i, j⟩ := h
  exact ⟨a, fun _ => hc, c, d, e, i, j⟩

theorem WindlassStep.of_stageAdmission (g : Nat) : WindlassStep s (s.stageAdmission g).1 := by
  have hg : (s.stageAdmission g).1.alloc.hpuGrant = s.alloc.hpuGrant := by
    unfold State.stageAdmission
    split
    · rfl
    · split
      · rfl
      · rename_i x _ _
        split
        · rfl
        · have h := (s.seekWatts_grants .windlassStage (g - x.running)).1
          split <;> rename_i e <;> rw [e] at h <;> exact h
  obtain ⟨h1, hm, ho, -, hmode, -⟩ := (Allocated.of_stageAdmission s g).deck
  have e1 := hm .hatch
  have e2 := hm .platform
  have e3 := ho .hatch
  have e4 := ho .platform
  simp only [State.mover, State.ownerOf] at e1 e2 e3 e4
  exact ⟨(Kept.of_stageAdmission s g).calm, by simp [State.deckView, h1, e1, e2, e3, e4, hmode, hg]⟩

theorem WindlassStep.of_askStage2 : WindlassStep s s.askStage2 := by
  unfold State.askStage2
  split
  · exact refl
  · rename_i r _
    dsimp only
    have ha := of_onWindlass s fun w => { w with run := some { r with asked := true } }
    split
    · exact ha
    · have hk := of_stageAdmission (s.onWindlass fun w => { w with run := some { r with asked := true } }) s.windlass.settings.g2
      split <;> rename_i e <;> rw [e] at hk
      · exact (ha.trans hk).trans (of_onWindlass _ _)
      · exact ha.trans hk

theorem Kept.of_askStage2 (hr : s.WindlassLaw → s.windlass.state = .running) : Kept s s.askStage2 := by
  unfold State.askStage2
  split
  · exact .refl
  · rename_i r _
    dsimp only
    have ha : Kept s (s.onWindlass fun w => { w with run := some { r with asked := true } }) := .of_onWindlass s _ rfl
    split
    · exact ha
    · have hk := Kept.of_stageAdmission (s.onWindlass fun w => { w with run := some { r with asked := true } }) s.windlass.settings.g2
      have hw := ((Allocated.of_stageAdmission (s.onWindlass fun w => { w with run := some { r with asked := true } })
        s.windlass.settings.g2).deck).2.2.2.1
      split <;> rename_i e <;> rw [e] at hk hw
      · exact (ha.trans hk).andThen (.of_onWindlass _ _) fun h g => (Kept.of_stage2Closed _ (by rw [hw]; exact hr h)).windlassLaw g
      · exact ha.trans hk

theorem Kept.of_dropStage2 : Kept s s.dropStage2 := by
  refine Kept.trans (t := s.onWindlass fun w => { w with stage2 := false }) ?_ (.of_lowerGrant _ _)
  refine (WindlassStep.of_onWindlass s _).kept fun h => ?_
  obtain ⟨a, b, c, d, e, i, j⟩ := h
  exact ⟨a, fun x => b (.inr (by simpa using x)), c, d, e, i, j⟩

theorem Kept.of_enterRunning {e : Uptime} (ht : s.windlass.brakeTimer = some e) : Kept s s.enterRunning := by
  have hk : Kept s (s.onWindlass fun w =>
      { w with state := .running, brakeRelease := true, brakeTimer := none
               jamTimer := some (s.after w.settings.jamTime)
               delayTimer := if w.run.any (fun r => r.kind = .jog) then some (s.after w.settings.stage2Delay) else none }) := by
    refine (WindlassStep.of_onWindlass s _).kept fun h => ?_
    obtain ⟨hs, hc⟩ := h.timers.1 (by simp [ht])
    obtain ⟨ho, hm⟩ := h.busy (.inl (by simp [Windlass.underWay, hs]))
    have hc' : s.windlass.payOut = true ∨ s.windlass.heave = true := by simpa [Windlass.contactorClosed] using hc
    have hset : s.windlass.settleTimer = none := by
      cases x : s.windlass.settleTimer
      · rfl
      · have := h.timers.2.2 (by simp [x]); simp [hs] at this
    exact ⟨h.oneWay, fun _ => by simpa [Windlass.contactorClosed] using hc',
      ⟨fun _ => by simp [Windlass.underWay], fun _ => by simpa [Windlass.contactorClosed] using hc'⟩,
      fun _ => h.granted (by simp [Windlass.underWay, hs]), ⟨by simp, fun _ => rfl, by simp [hset]⟩, fun x => absurd x ho, fun x => absurd x hm⟩
  unfold State.enterRunning
  dsimp only
  split
  · exact hk.trans (.of_askStage2 _ fun _ => rfl)
  · exact hk

theorem Kept.of_delayExpiry {e : Uptime} (ht : s.windlass.delayTimer = some e) :
    Kept s (s.onWindlass fun w => { w with delayTimer := none }).askStage2 := by
  have hrest : Kept s (s.onWindlass fun w => { w with delayTimer := none }) := by
    refine (WindlassStep.of_onWindlass s _).kept fun h => ?_
    obtain ⟨a, b, c, d, ⟨e1, -, e3⟩, i, j⟩ := h
    exact ⟨a, b, c, d, ⟨e1, by simp, e3⟩, i, j⟩
  refine hrest.andThen (.of_askStage2 _) fun h g => ?_
  have hr : (s.onWindlass fun w => { w with delayTimer := none }).windlass.state = .running := h.timers.2.1 (by simp [ht])
  exact (Kept.of_askStage2 _ fun _ => hr).windlassLaw g

/-! ## The ends of a run (R151), counting and the watches -/

theorem Kept.of_setCount (c : Count) : Kept s (s.onWindlass fun w => w.setCount c) := .of_onWindlass s _ rfl

theorem Kept.of_arriveHome (k : RunKind) : Kept s (s.arriveHome k) :=
  (Kept.of_onWindlass s (fun w => { w.setCount 0 with homeFlag := true }) rfl).trans (.of_windlassStop _ _)

theorem Kept.of_testEnds (b : Bool) : Kept s (s.testEnds b) := by
  unfold State.testEnds
  dsimp only
  split
  · exact .refl
  · split
    · exact .refl
    · split
      · exact .of_windlassStop s _
      · split
        · exact .of_windlassStop s _
        · split
          · exact .of_arriveHome s _
          · split
            · exact .of_windlassStop s _
            · exact .refl

theorem Kept.of_testSlowZone : Kept s s.testSlowZone := by
  unfold State.testSlowZone
  split
  · exact .refl
  · split
    · exact .of_dropStage2 s
    · exact .refl

theorem Kept.of_gypsyStep (dir : RodeDir) : Kept s (s.gypsyStep dir) := by
  unfold State.gypsyStep
  dsimp only
  refine (Kept.trans ?_ (.of_testEnds _ _)).trans (.of_testSlowZone _)
  refine .of_onWindlass s _ ?_
  split <;> rfl

theorem Kept.of_loseTrust : Kept s s.loseTrust := by
  unfold State.loseTrust
  split
  · exact .refl
  · split
    · exact .refl
    · split
      · exact .of_windlassStop s _
      · split
        · exact .of_dropStage2 s
        · exact .refl

theorem Kept.of_decodeError : Kept s s.decodeError := by
  have h1 : Kept s (s.onWindlass fun w => { w with decodeErrors := min (w.decodeErrors + 1) 255, rodeUncertain := true }) :=
    .of_onWindlass s _ rfl
  have h2 : ∀ u, Kept s u → Kept s (if s.windlass.rodeUncertain then u else u.postSlip 2 0) := fun u h => by
    split
    · exact h
    · exact h.trans (.of_post _ _ _ _)
  unfold State.decodeError
  dsimp only
  split
  · exact (h2 _ h1).trans (.of_loseTrust _)
  · exact h2 _ h1

theorem Kept.of_postSlip (r : Nat) (d : Int) : Kept s (s.postSlip r d) := .of_post s _ _ _

theorem Kept.of_uncertain : Kept s (s.onWindlass fun w => { w with rodeUncertain := true }) := .of_onWindlass s _ rfl

theorem Kept.of_fifoEmptied : Kept s (s.onWindlass fun w => { w with fifo := [] }) := .of_onWindlass s _ rfl

theorem Kept.of_gypsyIndex : Kept s s.gypsyIndex := by
  have h1 : Kept s (s.onWindlass fun w => { w with fifo := pushCount w.fifo w.count }) := .of_onWindlass s _ rfl
  unfold State.gypsyIndex
  dsimp only
  split
  · split
    · exact h1
    · have h2 := h1.trans (.of_uncertain _)
      split
      · exact ((h2.trans (.of_postSlip _ _ _)).trans (.of_fifoEmptied _)).trans (.of_loseTrust _)
      · exact (h2.trans (.of_postSlip _ _ _)).trans (.of_fifoEmptied _)
  · exact h1

theorem Kept.of_homeSwitch (active : Bool) : Kept s (s.homeSwitch active) :=
  (Kept.of_onWindlass s (fun w => { w with homeSw := active }) rfl).trans (.of_testEnds _ _)

theorem Windlass.noteFault_drive (w : Windlass) (c : Cause) : (w.noteFault c).drive = w.drive := by
  unfold Windlass.noteFault
  split
  · rfl
  · split <;> rfl

theorem Kept.of_currentFaulted : Kept s s.currentFaulted := by
  unfold State.currentFaulted
  split
  · exact .refl
  · exact .of_windlassStop s _
  · exact .of_windlassStop s _
  · exact .of_onWindlass s _ (Windlass.noteFault_drive _ _)
  · exact .of_onWindlass s _ rfl

theorem Kept.of_windlassSweep : Kept s s.windlassSweep := by
  unfold State.windlassSweep
  dsimp only
  split
  · have h (a b : Option Uptime) : Kept s (s.onWindlass fun w => { w with overWatch := a, lowWatch := b }) := .of_onWindlass s _ rfl
    split
    · exact (h _ _).trans (.of_windlassStop _ _)
    · split
      · exact (h _ _).trans (.of_windlassStop _ _)
      · exact h _ _
  · exact .refl

theorem Kept.of_clearedWindlass (hf : s.windlass.state = .fault) : Kept s (s.onWindlass fun w => { w with state := .idle, fault := none }) := by
  refine (WindlassStep.of_onWindlass s _).kept fun h => ?_
  obtain ⟨h1, h2, h3, h4, h5, h6⟩ := h.still (by simp [Windlass.underWay, hf])
  refine State.windlassLaw_of_rest (.inl rfl) h1 h2 h3 h4 h5 h6 ?_
  cases x : s.windlass.settleTimer
  · exact x
  · have := h.timers.2.2 (by simp [x]); simp [hf] at this

theorem Windlass.withSettings_drive (w : Windlass) (f : WindlassSettings) : (w.withSettings f).drive = w.drive := by
  unfold Windlass.withSettings
  split <;> rfl

/-! ## An accepted run (R147 to R150) -/

theorem State.acceptRun_cases (r : Run) :
    (∃ t st, s.acceptRun r = (t, some st) ∧ Kept s t)
      ∨ ∃ t, s.acceptRun r = (t, none) ∧ WindlassStep s t ∧ s.mode = .run
          ∧ (s.windlassOwner.owner = .none → s.windlass.state ≠ .fault → ∀ o : OwnerRecord, o.owner ≠ .none →
              s.WindlassLaw → (t.onOwner .windlass fun _ => o).WindlassLaw) := by
  unfold State.acceptRun
  split
  · exact .inl ⟨_, _, rfl, .refl⟩
  · unfold State.startRun
    rcases s.startAdmission_cases .windlass s.windlass.settings.g1 s.windlass.settings.inrush s.windlass.settings.inrushWindow with
      ⟨t, e, hk⟩ | ⟨t, e, ha⟩
    · rw [e]; exact .inl ⟨_, _, rfl, hk⟩
    · rw [e]
      dsimp only
      have hstep := WindlassStep.of_admitted ha
      obtain ⟨-, -, -, hw, hm, -⟩ := ha.alloc.deck
      have hg := ha.made
      simp only [State.grant] at hg
      refine .inr ⟨_, rfl, ?_, ha.run, fun hn hf o ho h => ?_⟩
      · have hs := hstep.trans (.of_onWindlass t fun w => { w with state := .starting, run := some r })
        split
        · exact hs.trans (.of_closeContactor _ _)
        · exact hs
      · have hidle := (h.unowned hn).resolve_right hf
        obtain ⟨h1, h2, h3, h4, h5, h6⟩ := h.still (by simp [Windlass.underWay, hidle])
        have h7 : s.windlass.settleTimer = none := by
          cases x : s.windlass.settleTimer
          · rfl
          · have := h.timers.2.2 (by simp [x]); simp [hidle] at this
        have hmode : t.mode ≠ .config := by rw [hm, ha.run]; decide
        split
        · refine ⟨?_, by simp [State.closeContactor, hw, h3, h4], ?_, fun _ => by simpa [State.closeContactor] using hg, ?_,
            fun x => absurd x (by simpa using ho), fun x => absurd x (by simpa [State.closeContactor] using hmode)⟩
          · cases r.dir <;> simp [State.closeContactor]
          · simp [State.closeContactor, Windlass.underWay]
          · cases r.dir <;> simp [State.closeContactor, Windlass.contactorClosed, hw, h6, h7]
        · refine ⟨by simp [hw, h1], by simp [hw, h3, h4], by simp [Windlass.underWay], fun _ => by simpa using hg,
            by simp [hw, h5, h6, h7], fun x => absurd x (by simpa using ho), fun x => absurd x (by simpa using hmode)⟩

/-- An accepted run whose windlass then gets an owner keeps every law, where nobody owned it and it is not in FAULT. -/
theorem State.acceptRun_kept {s t : State} {r : Run} (h : s.acceptRun r = (t, none)) (hn : s.windlassOwner.owner = .none)
    (hf : s.windlass.state ≠ .fault) (o : OwnerRecord) (ho : o.owner ≠ .none) : Kept s (t.onOwner .windlass fun _ => o) := by
  rcases s.acceptRun_cases r with ⟨u, st, e, -⟩ | ⟨u, e, hs, -, hl⟩
  · rw [e] at h; cases h
  · rw [e] at h
    cases h
    exact (hs.trans (.of_onOwner _ _)).kept (hl hn hf o ho)

end Sys2Proof.Machine
end

section
/-!
PROOFS. The operations of the sense unit, the channel engine, the ownership unit, the node table and the Roomline controller keep every
law.
-/

namespace Sys2Proof.Machine

variable (s : State)

/-- The later of two operations first: what it starts from is read off it. -/
theorem Kept.after {s t u : State} (g : Kept t u) (h : Kept s t) : Kept s u := h.trans g

/-! ## The sense unit (chapter 6) -/

theorem Kept.of_railCheck (i : Nat) : Kept s (s.railCheck i) := by
  have h1 (n : Nat) : Kept s (s.onInput i fun x => { x with railCount := n }) := .of_onInput s i _
  unfold State.railCheck
  dsimp only
  split
  · split
    · have h2 := ((h1 (min ((s.input i).railCount + 1) 5)).trans (.of_onInput _ i fun x => { x with faulted := true })).trans
        (.of_post _ .senseFault i (leBytes 2 (s.input i).raw.toNat))
      split
      · exact h2.trans (.of_onSense _ _)
      · exact h2
    · exact h1 _
  · split
    · exact ((h1 0).trans (.of_onInput _ i _)).trans (.of_post _ _ _ _)
    · exact h1 0

theorem Kept.of_crossing (i : Nat) (c : Crossing) (v l : Int) : Kept s (s.crossing i c v l) :=
  (Kept.of_post s _ _ _).trans (.of_offer _ _)

theorem Kept.of_highMonitor (i : Nat) : Kept s (s.highMonitor i) := by
  unfold State.highMonitor
  dsimp only
  split
  · split
    · exact .of_onInput s i _
    · exact .refl
  · split
    · exact (Kept.of_onInput s i _).trans (.of_crossing _ _ _ _ _)
    · exact .refl

theorem Kept.of_lowMonitor (i : Nat) : Kept s (s.lowMonitor i) := by
  unfold State.lowMonitor
  dsimp only
  split
  · split
    · exact .of_onInput s i _
    · exact .refl
  · split
    · exact (Kept.of_onInput s i _).trans (.of_crossing _ _ _ _ _)
    · exact .refl

theorem Kept.of_sweepInput (i : Nat) : Kept s (s.sweepInput i) := by
  unfold State.sweepInput
  dsimp only
  split
  · exact .of_railCheck s i
  · exact ((Kept.of_railCheck s i).trans (.of_highMonitor _ i)).trans (.of_lowMonitor _ i)

theorem Kept.of_supplySample : Kept s s.supplySample := by
  unfold State.supplySample
  dsimp only
  split
  · exact .of_onSense s _
  · split
    · exact .of_onSense s _
    · exact (Kept.of_onSense s _).trans (.of_onSense _ _)

theorem Kept.of_senseSweep (raw : Vector Raw 8) : Kept s (s.senseSweep raw) :=
  ((Kept.of_onSense s _).trans (.foldl _ (fun u i => .of_sweepInput u i) _ _)).trans (.of_supplySample _)

/-! ## The channel engine (chapter 3) -/

theorem Kept.of_requestLevels : Kept s s.requestLevels :=
  .foldl (fun u (r : NodeRecord) => u.askTx .levels r.addr) (fun u r => .of_askTx u .levels r.addr) _ s

theorem Kept.of_tick : Kept s s.tick := by
  have hu : ∀ c : Channel, c.takeUp.cfg.num = c.cfg.num := fun c => by
    unfold Channel.takeUp; split
    · rfl
    · split <;> rfl
  have ha : ∀ c : Channel, c.advance.cfg.num = c.cfg.num := fun c => by unfold Channel.advance; split <;> rfl
  exact (((Kept.of_onChannels s _ hu).trans (.of_onChannels _ _ ha)).trans (.of_ramp _)).trans (.of_requestLevels _)

theorem Kept.of_levelsSent (a : Nat) (sent : List (Nat × Nat)) : Kept s (s.levelsSent a sent) :=
  .of_onChannels s _ fun c => by
    split
    · split <;> rfl
    · rfl

theorem Kept.of_adopt (a : Nat) (levels : List Nat) : Kept s (s.adopt a levels) := by
  unfold State.adopt
  split
  · exact .refl
  · refine .of_onChannels s _ fun c => ?_
    split
    · split <;> rfl
    · rfl

theorem Kept.of_nodeLeft (a : Nat) : Kept s (s.nodeLeft a) := .of_onChannels s _ fun c => by split <;> rfl

theorem Kept.of_nodeReturned (a : Nat) : Kept s (s.nodeReturned a) := .of_onChannels s _ fun c => by split <;> rfl

theorem Kept.of_blindReport (a : Nat) (ps : List Nat) (mv : Byte) : Kept s (s.blindReport a ps mv) :=
  .of_onChannels s _ fun c => by split <;> rfl

/-! ## The ownership unit (chapter 9) -/

theorem Kept.of_stopResource (r : Resource) (c : Cause) : Kept s (s.stopResource r c) := by
  cases r
  · exact .of_moverStop s _ c
  · exact .of_moverStop s _ c
  · exact .of_windlassStop s c

theorem Kept.of_deliverStop (r : Resource) (c : Cause) : Kept s (s.deliverStop r c) :=
  (Kept.of_onOwner s r (fun o => { o with stopDelivered := true }) rfl).trans (.of_stopResource _ r c)

theorem Kept.of_stopOwned (mine : Owner → Bool) (c : Cause) : Kept s (s.stopOwned mine c) := by
  refine .foldl _ (fun u r => ?_) _ s
  split
  · exact .of_deliverStop u r c
  · exact .refl

theorem Kept.of_requestLamps (a : Nat) : Kept s (s.requestLamps a) := by
  obtain ⟨q, h, -⟩ := s.requestLamps_frame a
  rw [h]; exact .of_onBus s _

theorem Kept.of_lampPass (b : State) : Kept s (s.lampPass b) := by
  obtain ⟨q, h, -⟩ := s.lampPass_frame b
  rw [h]; exact .of_onBus s _

theorem Kept.of_stationActive (a : Nat) : Kept s (s.stationActive a) :=
  Kept.after (.of_requestLamps _ a) (.of_onStation s a _ fun _ => rfl)

theorem Kept.of_spend (a k : Nat) (m : SpentMark) : Kept s (s.spend a k m) := .of_onStation s a _ fun _ => rfl

theorem Kept.of_confirmRecord (a : Nat) (held : Byte) (r : Resource) : Kept s (s.confirmRecord a held r) := by
  unfold State.confirmRecord
  dsimp only
  split
  · split
    · exact .of_onOwner s r _ rfl
    · exact .of_deliverStop s r _
  · exact .refl

/-- What a jog answers: on OK, in RUN and with nobody the owner, the laws hold once an owner is set; and on any other answer they are kept. -/
theorem State.moverJog_cases (m : MoverId) (d : Direction) :
    (∃ t a, s.moverJog m d = (t, a) ∧ a ≠ .ok ∧ Kept s t)
      ∨ ∃ t, s.moverJog m d = (t, .ok) ∧ MotionAccepted s t m ∧ (s.mover m).state ≠ .fault := by
  unfold State.moverJog
  split
  · exact .inl ⟨_, _, rfl, by simp, .refl⟩
  · rename_i hf
    split
    · exact .inl ⟨_, _, rfl, by simp, .refl⟩
    · split
      · exact .inl ⟨_, _, rfl, by simp, .refl⟩
      · rename_i goal _
        rcases s.startMotion_cases m .jog d goal with ⟨t, st, e, h⟩ | ⟨t, e, h⟩ <;> rw [e]
        · exact .inl ⟨_, _, rfl, by simp, h⟩
        · exact .inr ⟨_, rfl, h, hf⟩

theorem State.windlassJog_cases (d : RodeDir) :
    (∃ t a, s.windlassJog d = (t, a) ∧ a ≠ .ok ∧ Kept s t)
      ∨ ∃ t, s.windlassJog d = (t, .ok) ∧ s.acceptRun { kind := .jog, dir := d } = (t, none) ∧ s.windlass.state ≠ .fault := by
  unfold State.windlassJog
  dsimp only
  by_cases hf : s.windlass.state = .fault
  · rw [if_pos hf]; exact .inl ⟨_, _, rfl, by simp, .refl⟩
  · rw [if_neg hf]
    cases d
    all_goals
      dsimp only
      split
      · exact .inl ⟨_, _, rfl, by simp, .refl⟩
      · rcases s.acceptRun_cases _ with ⟨t, st, e, h⟩ | ⟨t, e, -⟩ <;> rw [e]
        · exact .inl ⟨_, _, rfl, by simp, h⟩
        · exact .inr ⟨_, rfl, rfl, hf⟩

theorem State.jog_cases (r : Resource) (d : Direction) (hrun : s.mode = .run) (hn : (s.ownerOf r).owner = .none) :
    (∃ t a, s.jog r d = (t, a) ∧ a ≠ .ok ∧ Kept s t)
      ∨ ∃ t, s.jog r d = (t, .ok) ∧ ∀ o : OwnerRecord, o.owner ≠ .none → Kept s (t.onOwner r fun _ => o) := by
  have mover (m : MoverId) (hn : (s.ownerOf (moverResource m)).owner = .none) : (∃ t a, s.moverJog m d = (t, a) ∧ a ≠ .ok ∧ Kept s t)
      ∨ ∃ t, s.moverJog m d = (t, .ok) ∧ ∀ o : OwnerRecord, o.owner ≠ .none → Kept s (t.onOwner (moverResource m) fun _ => o) := by
    rcases s.moverJog_cases m d with h | ⟨t, e, h, hf⟩
    · exact .inl h
    · exact .inr ⟨t, e, fun o ho => h.kept hrun hn hf o ho⟩
  cases r with
  | hatch => exact mover .hatch hn
  | platform => exact mover .platform hn
  | windlass =>
    rcases s.windlassJog_cases (if d = .out then .payOut else .heave) with h | ⟨t, e, h, hf⟩
    · exact .inl h
    · exact .inr ⟨t, e, fun o ho => State.acceptRun_kept h hn hf o ho⟩

theorem Kept.of_attempt (a k : Nat) (r : Resource) (d : Direction) (hrun : s.mode = .run) : Kept s (s.attempt a k r d) := by
  unfold State.attempt
  split
  · exact .of_spend s a k _
  · rename_i hn
    push Not at hn
    rcases s.jog_cases r d hrun hn with ⟨t, ans, e, ha, h⟩ | ⟨t, e, h⟩ <;> rw [e]
    · cases ans with
      | ok => exact absurd rfl ha
      | atEnd => exact h.trans (.of_spend _ _ _ _)
      | refused _ => exact h.trans (.of_spend _ _ _ _)
    · exact (h _ (by simp)).trans (.of_spend _ _ _ _)

theorem Kept.of_acquire (a : Nat) (held : Byte) : Kept s (s.acquire a held) := by
  unfold State.acquire
  split
  · exact .refl
  · split
    · rename_i hc
      split
      · exact .refl
      · split
        · exact .of_attempt s a _ _ _ hc.1
        · exact .refl
      · exact .foldl _ (fun u k => .of_spend u a k .denied) _ s
    · exact .refl

theorem Kept.of_stationUpdate (a : Nat) (old new : Byte) (es : List KeyEvent) : Kept s (s.stationUpdate a old new es) := by
  unfold State.stationUpdate
  dsimp only
  refine Kept.trans ?_ ((Kept.of_acquire _ a new).trans (.of_requestLamps _ a))
  refine Kept.trans ?_ (.foldl _ (fun u r => .of_confirmRecord u a new r) _ _)
  have h1 : Kept s (s.onStation a fun t => t.release new) := .of_onStation s a _ fun _ => rfl
  split
  · exact h1.trans (.of_stopOwned _ _ _)
  · exact h1

theorem Kept.of_offerKeys (a : Nat) (es : List KeyEvent) : Kept s (s.offerKeys a es) := .foldl _ (fun u _ => .of_offer u _) es s

theorem Kept.of_stationKeys (a : Nat) (old new : Byte) (es : List KeyEvent) : Kept s (s.stationKeys a old new es) :=
  (Kept.of_stationUpdate s a old new es).trans (.of_offerKeys _ a _)

/-! ## Operations that touch nothing of the deck -/

/-- A calm operation that leaves what the laws of the deck and the windlass look at. -/
structure Aside (s t : State) : Prop where
  calm : Calm s t
  deck : t.deckView = s.deckView
  windlass : t.windlassView' = s.windlassView'

theorem Aside.kept {s t : State} (h : Aside s t) : Kept s t := .of_calm h.calm h.deck h.windlass

theorem Aside.refl {s : State} : Aside s s := ⟨.refl, rfl, rfl⟩

theorem Aside.trans {s t u : State} (h : Aside s t) (g : Aside t u) : Aside s u :=
  ⟨h.calm.trans g.calm, g.deck.trans h.deck, g.windlass.trans h.windlass⟩

/-- The later of two operations first: what it starts from is read off it. -/
theorem Aside.after {s t u : State} (g : Aside t u) (h : Aside s t) : Aside s u := h.trans g

theorem Aside.drained {s t : State} (h : Aside s t) : t.drained = s.drained := by
  have h1 := h.deck
  have h2 := h.windlass
  simp only [State.deckView, State.windlassView', Prod.mk.injEq] at h1 h2
  simp only [State.drained, h1.1, h1.2.1, h1.2.2.1, h2.1]

theorem Aside.foldl {α : Type} (f : State → α → State) (h : ∀ s x, Aside s (f s x)) (xs : List α) (s : State) :
    Aside s (xs.foldl f s) := by
  induction xs generalizing s with
  | nil => exact .refl
  | cons x xs ih => exact (h s x).trans (ih _)

theorem Aside.of_onBus (f : Bus → Bus) : Aside s (s.onBus f) := ⟨(Kept.of_onBus s f).calm, rfl, rfl⟩

theorem Aside.of_post (k : NoticeKind) (n : Nat) (d : List Byte) : Aside s (s.post k n d) := ⟨(Kept.of_post s k n d).calm, rfl, rfl⟩

theorem Aside.of_onNode (a : Nat) (f : NodeRecord → NodeRecord) (hf : ∀ r, (f r).addr = r.addr) : Aside s (s.onNode a f) :=
  ⟨(Kept.of_onNode s a f hf).calm, rfl, rfl⟩

theorem Aside.of_onEnrolment (f : Enrolment → Enrolment) : Aside s (s.onEnrolment f) := ⟨.of_views rfl rfl rfl, rfl, rfl⟩

theorem Aside.of_queueTx (k : TxKind) (n : Nat) (a : Option (Nat × Serial)) (e : Bool) : Aside s (s.queueTx k n a e).1 := by
  obtain ⟨q, h⟩ := s.queueTx_frame k n a e
  rw [h]; exact .of_onBus s _

theorem Aside.of_requestLamps (a : Nat) : Aside s (s.requestLamps a) := by
  obtain ⟨q, h, -⟩ := s.requestLamps_frame a
  rw [h]; exact .of_onBus s _

theorem Aside.of_lampPass (b : State) : Aside s (s.lampPass b) := by
  obtain ⟨q, h, -⟩ := s.lampPass_frame b
  rw [h]; exact .of_onBus s _

theorem Aside.of_startRetry (a : Nat) : Aside s (s.startRetry a) := .of_onNode s a _ fun _ => rfl

theorem Aside.of_leaveSetup (a : Nat) : Aside s (s.leaveSetup a) := .of_onNode s a _ fun _ => rfl

theorem Aside.of_askIdentify (a : Nat) : Aside s (s.askIdentify a) := by
  have h := Aside.of_queueTx s .identify a none false
  unfold State.askIdentify
  split <;> rename_i e <;> rw [e] at h
  · exact h
  · exact h.trans (.of_startRetry _ a)

theorem Aside.of_enterIdentify (a : Nat) : Aside s (s.enterIdentify a) :=
  Aside.after (.of_askIdentify _ a) (.of_onNode s a _ fun _ => rfl)

theorem Aside.of_setEnrolment (e : Option Enrolment) : Aside s { s with enrolment := e } := ⟨.of_views rfl rfl rfl, rfl, rfl⟩

theorem Aside.of_resume (r : NodeRecord) : Aside s (s.resume r) := by
  have h : Aside s (s.onNode r.addr fun n => { n with enrolHold := false }) := .of_onNode s _ _ fun _ => rfl
  unfold State.resume
  dsimp only
  split
  · exact h
  · split
    · exact h.trans (.of_enterIdentify _ _)
    · exact h.trans (.of_startRetry _ _)
    · exact h.trans (.of_startRetry _ _)
    · exact h.trans (.of_startRetry _ _)
    · exact h.trans (.of_leaveSetup _ _)
    · exact h

theorem Aside.of_enrolFail (e : Enrolment) (w : EnrolFailure) : Aside s (s.enrolFail e w) := by
  unfold State.enrolFail
  dsimp only
  have h : Aside s (State.post { s with enrolment := none } .enrolFailed e.addr (leBytes 1 w.code ++ leBytes 1 e.reported)) :=
    (Aside.of_setEnrolment s none).trans (.of_post _ _ _ _)
  split
  · exact h
  · exact h.trans (.of_resume _ _)

theorem Aside.of_enrolAsk : Aside s s.enrolAsk := by
  unfold State.enrolAsk
  split
  · exact .refl
  · rename_i e _
    have h : Aside s (s.queueEnrolment e).1 := by
      unfold State.queueEnrolment
      split
      · exact .of_queueTx s _ _ _ _
      · exact .of_queueTx s _ _ _ _
      · exact .of_queueTx s _ _ _ _
      · exact .refl
    split <;> rename_i g <;> rw [g] at h
    · exact h.trans (.of_onEnrolment _ _)
    · exact h.trans (.of_enrolFail _ _ _)
    · exact h.trans (.of_onEnrolment _ _)

theorem Aside.of_queueRelease : Aside s s.queueRelease := by
  unfold State.queueRelease
  split <;> exact .of_onBus s _

theorem Aside.of_busToConfig : Aside s s.busToConfig := by
  unfold State.busToConfig
  dsimp only
  have h : Aside s (State.queueRelease (s.onBus fun b =>
      { b with queue := (b.queue.filter (·.inFlight)).map fun e => { e with followUp := false } })) :=
    (Aside.of_onBus s _).trans (.of_queueRelease _)
  split
  · exact h.trans (.of_enrolAsk _)
  · exact h

theorem Kept.of_startRetry (a : Nat) : Kept s (s.startRetry a) := (Aside.of_startRetry s a).kept

theorem Kept.of_leaveSetup (a : Nat) : Kept s (s.leaveSetup a) := (Aside.of_leaveSetup s a).kept

theorem Kept.of_enterIdentify (a : Nat) : Kept s (s.enterIdentify a) := (Aside.of_enterIdentify s a).kept

theorem Kept.of_enrolFail (e : Enrolment) (w : EnrolFailure) : Kept s (s.enrolFail e w) := (Aside.of_enrolFail s e w).kept

theorem Kept.of_enrolAsk : Kept s (s.enrolAsk) := (Aside.of_enrolAsk s).kept

theorem Kept.of_setEnrolment (e : Option Enrolment) : Kept s { s with enrolment := e } := (Aside.of_setEnrolment s e).kept

/-! ## The node table (chapter 2) -/

theorem Kept.of_enterSetup (a : Nat) : Kept s (s.enterSetup a) := by
  have h1 : Kept s (s.onNode a fun r => { r with state := .setup .awaitSetup, retryTimer := none }) := .of_onNode s a _ fun _ => rfl
  have h := Kept.of_queueTx (s.onNode a fun r => { r with state := .setup .awaitSetup, retryTimer := none }) .setup a none false
  unfold State.enterSetup
  dsimp only
  split <;> rename_i e <;> rw [e] at h
  · exact h1.trans h
  · exact (h1.trans h).trans (.of_leaveSetup _ a)

theorem Kept.of_askBringUpRead (a : Nat) : Kept s (s.askBringUpRead a) := by
  have h1 : Kept s (s.onNode a fun r => { r with state := .setup .awaitStatus }) := .of_onNode s a _ fun _ => rfl
  have h := Kept.of_queueTx (s.onNode a fun r => { r with state := .setup .awaitStatus }) .status a none false
  unfold State.askBringUpRead
  dsimp only
  split <;> rename_i e <;> rw [e] at h
  · exact h1.trans h
  · exact (h1.trans h).trans (.of_leaveSetup _ a)

theorem Kept.of_identified (r : NodeRecord) (ty : NodeType) (n : Serial) (fw : Byte × Byte) : Kept s (s.identified r ty n fw) := by
  unfold State.identified
  split
  · exact Kept.after (.of_enterSetup _ _) (.of_onNode s _ _ fun _ => rfl)
  · have h : Kept s ((s.onNode r.addr fun r => { r with state := .mismatch }).startRetry r.addr) :=
      Kept.after (.of_startRetry _ _) (.of_onNode s _ _ fun _ => rfl)
    dsimp only
    split
    · exact h
    · exact h.trans (.of_post _ _ _ _)

theorem Kept.of_takeStatus (a : Nat) (d : NodeStatus) : Kept s (s.takeStatus a d) := by
  unfold State.takeStatus
  split
  · exact .of_onNode s a _ fun _ => rfl
  · exact .of_blindReport s a _ _
  · exact .refl

theorem Kept.of_bringUpFlags (r : NodeRecord) (d : NodeStatus) : Kept s (s.bringUpFlags r d) := by
  have h : Kept s (if r.adoptionPending then (s.adopt r.addr d.levels).onNode r.addr fun r => { r with adoptionPending := false } else s) := by
    split
    · exact (Kept.of_adopt s _ _).trans (.of_onNode _ _ _ fun _ => rfl)
    · exact .refl
  unfold State.bringUpFlags
  dsimp only
  split
  · exact ((h.trans (.of_nodeReturned _ _)).trans (.of_post _ _ _ _)).trans (.of_onNode _ _ _ fun _ => rfl)
  · exact h

theorem Kept.of_enterActive (r : NodeRecord) (d : NodeStatus) : Kept s (s.enterActive r d) := by
  unfold State.enterActive
  dsimp only
  have h : Kept s (State.bringUpFlags (State.takeStatus (s.onNode r.addr fun n =>
      { n with state := .active, misses := 0, retryTimer := none, pollTimer := some (s.after n.type.pollPeriod) }) r.addr d) r d) :=
    Kept.after (.of_bringUpFlags _ _ _) (.after (.of_takeStatus _ _ _) (.of_onNode s _ _ fun _ => rfl))
  split
  · split
    · exact .after (.of_stationActive _ _) (.after (.of_stationUpdate _ _ _ _ _) (.after (.of_onNode _ _ _ fun _ => rfl) h))
    · exact .after (.of_onNode _ _ _ fun _ => rfl) h
  · exact h

theorem Kept.of_takeKeys (r : NodeRecord) (held : Byte) (es : List KeyEvent) : Kept s (s.takeKeys r held es) := by
  unfold State.takeKeys
  split
  · exact Kept.after (.of_offerKeys _ _ _) (.of_onNode s _ _ fun _ => rfl)
  · exact Kept.after (.of_stationKeys _ _ _ _ _) (.of_onNode s _ _ fun _ => rfl)
  · exact .refl

theorem Kept.of_polled (r : NodeRecord) (d : NodeStatus) : Kept s (s.polled r d) := by
  unfold State.polled
  split
  · exact .of_takeKeys s r _ _
  · exact .of_takeStatus s _ _

theorem Kept.of_seen (a : Nat) : Kept s (s.seen a) := .of_onNode s a _ fun _ => rfl

theorem Kept.of_report (a : Nat) (held : Byte) (es : List KeyEvent) : Kept s (s.report a held es) := by
  unfold State.report
  split
  · exact .refl
  · split
    · exact .refl
    · split
      · exact (Kept.of_seen s a).trans (.of_takeKeys _ _ _ _)
      · exact .of_seen s a

theorem Kept.of_enterLost (r : NodeRecord) (o : TxOutcome) : Kept s (s.enterLost r o) := by
  unfold State.enterLost
  dsimp only
  refine Kept.trans ?_ (.of_post _ _ _ _)
  have h : Kept s ((s.onNode r.addr fun n =>
      { n with state := .lost, misses := 3, returnFlag := true, pollTimer := none, retryTimer := some (s.after 1000), held := 0 }).nodeLeft
        r.addr) := Kept.after (.of_nodeLeft _ _) (.of_onNode s _ _ fun _ => rfl)
  split
  · exact h.trans (.of_stopOwned _ _ _)
  · exact h

theorem Kept.of_missed (r : NodeRecord) (o : TxOutcome) : Kept s (s.missed r o) := by
  unfold State.missed
  split
  · split
    · exact .of_enterLost s r o
    · exact .of_onNode s _ _ fun _ => rfl
  · exact .refl

theorem Kept.of_applyStep (r : NodeRecord) (k : TxKind) (o : TxOutcome) (d : Delivered) : Kept s (s.applyStep r k o d) := by
  unfold State.applyStep
  split
  · exact .of_identified s _ _ _ _
  · exact .of_identified s _ _ _ _
  · exact .of_identified s _ _ _ _
  · exact .of_startRetry s _
  · exact .of_startRetry s _
  · exact .of_startRetry s _
  · split
    · exact .of_askBringUpRead s _
    · exact .of_leaveSetup s _
  · exact .of_enterActive s _ _
  · exact .of_leaveSetup s _
  · exact .of_polled s _ _
  · exact .refl

theorem Kept.of_nodeOutcome (k : TxKind) (a : Nat) (o : TxOutcome) (d : Delivered) : Kept s (s.nodeOutcome k a o d) := by
  unfold State.nodeOutcome
  split
  · exact .refl
  · dsimp only
    have h : Kept s (if o = .done then s.seen a else s) := by
      split
      · exact .of_seen s a
      · exact .refl
    split
    · exact h
    · split
      · exact (h.trans (.of_missed _ _ _)).trans (.of_applyStep _ _ _ _ _)
      · exact h.trans (.of_applyStep _ _ _ _ _)

/-! ## Enrolment -/

/-- A change of the tables that keeps their order, and of nothing else the laws look at. -/
theorem Kept.of_tables {t : State} (h : s.Ordered → t.Ordered) (h1 : t.fixed = s.fixed) (h2 : t.alloc.classes = s.alloc.classes)
    (hd : t.deckView = s.deckView) (hw : t.windlassView' = s.windlassView') : Kept s t := .of_calm ⟨h1, .of_classes h2, h⟩ hd hw

theorem Kept.of_addStation (a : Nat) : Kept s (s.addStation a) := by
  refine .of_tables s (fun h => ?_) rfl rfl rfl rfl
  obtain ⟨h1, h2, h3, h4, h5, h6⟩ := h
  exact ⟨h1, h2, h3, h4, tablePut_ordered (key := _) h5, h6⟩

theorem Kept.of_dropStation (a : Nat) : Kept s (s.dropStation a) := by
  refine .of_tables s (fun h => ?_) rfl rfl rfl rfl
  obtain ⟨h1, h2, h3, h4, h5, h6⟩ := h
  exact ⟨h1, h2, h3, h4, tableErase_ordered (key := _) h5, h6⟩

theorem Kept.of_putNode (r : NodeRecord) : Kept s { s with nodes := tablePut (·.addr) r s.nodes } := by
  refine .of_tables s (fun h => ?_) rfl rfl rfl rfl
  obtain ⟨h1, h⟩ := h
  exact ⟨tablePut_ordered (key := _) h1, h⟩

theorem Kept.of_enrolRecord (e : Enrolment) : Kept s (s.enrolRecord e) := by
  unfold State.enrolRecord
  split
  · exact .of_onNode s _ _ fun _ => rfl
  · dsimp only
    split
    · exact (Kept.of_putNode s _).trans (.of_addStation _ _)
    · exact .of_putNode s _

theorem Kept.of_enrolCommit (e : Enrolment) : Kept s (s.enrolCommit e) := by
  unfold State.enrolCommit
  dsimp only
  refine Kept.trans ?_ (.of_post _ _ _ _)
  have h : Kept s (State.enrolRecord { s with enrolment := none } e) := (Kept.of_setEnrolment s none).trans (.of_enrolRecord _ _)
  split
  · exact h
  · exact h.trans (.of_enterIdentify _ _)

theorem Kept.of_enrolUpdate (e : Enrolment) : Kept s (s.enrolUpdate e) := by
  unfold State.enrolUpdate
  split
  · exact .of_setEnrolment s _
  · exact .of_enrolCommit s e

theorem Kept.of_enrolOutcome (o : TxOutcome) (d : Delivered) : Kept s (s.enrolOutcome o d) := by
  unfold State.enrolOutcome
  split
  · exact .refl
  · split
    · dsimp only
      split
      · exact (Kept.of_setEnrolment s _).trans (.of_enrolAsk _)
      · exact .of_enrolFail s _ _
    · exact .of_enrolFail s _ _
    · split
      · exact (Kept.of_setEnrolment s _).trans (.of_enrolAsk _)
      · exact .of_enrolFail s _ _
    · dsimp only
      split
      · exact .of_enrolUpdate s _
      · exact .of_enrolFail s _ _
    · exact .of_enrolFail s _ _
    · exact .refl

/-! ## The Roomline controller (chapter 1) -/

theorem Kept.of_deliverValues (a : Nat) (o : TxOutcome) (c : Carried) : Kept s (s.deliverValues a o c) := by
  unfold State.deliverValues
  split
  · split
    · exact .of_levelsSent s _ _
    · exact .of_onStation s _ _ fun _ => rfl
    · exact .refl
  · exact .refl

theorem Kept.of_deliver (e : Entry) (o : TxOutcome) (d : Delivered) (c : Carried) : Kept s (s.deliver e o d c) := by
  unfold State.deliver
  dsimp only
  have h : Kept s (State.deliverValues (if e.enrol then s.enrolOutcome o d else s.nodeOutcome e.kind e.target o d) e.target o c) := by
    refine Kept.trans ?_ (.of_deliverValues _ _ _ _)
    split
    · exact .of_enrolOutcome s _ _
    · exact .of_nodeOutcome s _ _ _ _
  split
  · exact h.trans (.of_onBus _ _)
  · exact h

theorem Kept.of_endTransaction (o : TxOutcome) (d : Delivered) : Kept s (s.endTransaction o d) := by
  unfold State.endTransaction
  dsimp only
  refine Kept.trans ?_ (.of_onBus _ _)
  split
  · exact .refl
  · exact .of_deliver s _ _ _ _

theorem Kept.of_transactionEnd (a : TargetAnswer) : Kept s (s.transactionEnd a) := by
  unfold State.transactionEnd
  split
  · exact .refl
  · split
    · exact .of_onBus s _
    · exact .of_endTransaction s _ _

theorem Kept.of_byteTimeout : Kept s s.byteTimeout := by
  unfold State.byteTimeout
  split
  · exact .of_endTransaction s _ _
  · exact .refl

theorem Kept.of_transactionTimeout : Kept s s.transactionTimeout := by
  unfold State.transactionTimeout
  split
  · exact (Kept.of_atMoment s _).trans (.of_endTransaction _ _ _)
  · exact .refl

theorem Kept.of_keyReport (bytes : List Byte) : Kept s (s.keyReport bytes) := by
  unfold State.keyReport
  split
  · dsimp only
    split
    · exact (Kept.of_onBus s _).trans (.of_report _ _ _ _)
    · exact .of_onBus s _
  · exact .refl

theorem Kept.of_enterRecovery (c : RecoveryCause) : Kept s (s.enterRecovery c) := by
  unfold State.enterRecovery
  dsimp only
  exact (((Kept.of_onBus s _).trans (.foldl _ (fun u e => .of_deliver u e .busFault .nothing .none) _ _)).trans
    (.of_post _ _ _ _)).trans (.of_stopOwned _ _ _)

theorem Kept.of_overrun : Kept s s.overrun := by
  unfold State.overrun
  split
  · exact (Kept.of_atMoment s _).trans (.of_enterRecovery _ _)
  · exact .refl

theorem Kept.of_stuckLine (a b : Bool) : Kept s (s.stuckLine a b) := by
  unfold State.stuckLine
  split
  · exact .refl
  · split
    · exact .of_enterRecovery s _
    · exact .refl

end Sys2Proof.Machine
end

section
/-!
PROOFS. Changes of mode, the settings store and the resets, and the requests that edit the tables (chapters 2 to 4 and 11).
-/

namespace Sys2Proof.Machine

variable {s t u : State}

/-! ## What a change of mode leaves of the laws -/

/-- A deck whose pump's contactor is open with its places empty, and whose movers are idle, meets its law whatever grants and owners are. -/
theorem State.deckLaw_of_quiet {t : State} (h : s.DeckLaw) (hq : s.DeckQuiet) (hhpu : t.hpu = s.hpu) (hm : ∀ m, t.mover m = s.mover m) :
    t.DeckLaw := by
  refine t.deckLaw_iff.mpr ⟨?_, fun m => ?_, fun m _ => ?_, fun _ => ?_⟩
  · rw [hhpu]
    exact ⟨h.contactor, by simp [hq.1], h.unheld, h.runOn⟩
  · rw [hhpu, hm]; exact h.fits m
  · rw [hm]; exact hq.2 m
  · exact ⟨hhpu ▸ hq.1, fun m => by rw [hm]; exact hq.2 m⟩

/-- A windlass that is IDLE or in FAULT meets its law whatever its grant and owner are. -/
theorem State.windlassLaw_of_quiet {t : State} (h : s.WindlassLaw) (hq : s.windlass.state = .idle ∨ s.windlass.state = .fault)
    (hw : t.windlass = s.windlass) : t.WindlassLaw := by
  have hu : s.windlass.underWay = false := by rcases hq with e | e <;> simp [Windlass.underWay, e]
  obtain ⟨h1, h2, h3, h4, h5, h6⟩ := h.still hu
  have h7 : s.windlass.settleTimer = none := by
    cases x : s.windlass.settleTimer
    · rfl
    · have := h.timers.2.2 (by simp [x]); rcases hq with e | e <;> simp [e] at this
  refine State.windlassLaw_of_rest ?_ ?_ ?_ ?_ ?_ ?_ ?_ ?_ <;> rw [hw] <;> assumption

theorem State.DeckLaw.quiet_of_drained (h : s.DeckLaw) (hd : s.drained = true) : s.DeckQuiet := by
  simp only [State.drained, decide_eq_true_eq, Bool.decide_and, Bool.and_eq_true] at hd
  obtain ⟨h1, h2, h3, -⟩ := hd
  refine ⟨?_, fun m => ?_⟩
  · cases e : s.hpu.contactor
    · rfl
    · have := h.contactor.mp e
      rcases h1 with h1 | h1 <;> simp [h1] at this
  · cases m
    · exact h2
    · exact h3

theorem State.drained_windlass (hd : s.drained = true) : s.windlass.state = .idle ∨ s.windlass.state = .fault := by
  simp only [State.drained, decide_eq_true_eq, Bool.decide_and, Bool.and_eq_true] at hd
  exact hd.2.2.2

/-- With every class NORMAL the SHED range is empty. -/
theorem State.classLaw_of_clear {t : State} (h : t.alloc.classes = .replicate 8 .normal) : t.ClassLaw := by
  have hc : ∀ k, t.classState k = .normal := fun k => by
    unfold State.classState
    rw [h, Vector.getElem?_replicate]
    split <;> rfl
  exact ⟨7, by omega, fun j h1 h2 => absurd h1 (by omega), by simp [hc], fun j _ => hc j, hc 0⟩

/-! ## Entry to RUN and to CONFIG (R187, R189) -/

theorem Aside.of_nodesMap (s : State) (f : NodeRecord → NodeRecord) (hf : ∀ r, (f r).addr = r.addr) :
    Aside s { s with nodes := s.nodes.map f } :=
  ⟨.of_views rfl rfl (by simp [State.keys, Function.comp_def, hf]), rfl, rfl⟩

theorem Aside.of_bringUpAll (s : State) : Aside s s.bringUpAll := by
  unfold State.bringUpAll
  dsimp only
  refine .after (.foldl _ (fun v r => ?_) _ _) (.of_nodesMap s _ fun _ => rfl)
  exact .after (.of_enterIdentify _ _) (.of_onNode v r.addr _ fun _ => rfl)

theorem Calm.of_clear (s : State) (cs : List Channel) (hk : cs.map (·.cfg.num) = s.channels.map (·.cfg.num)) :
    Calm s { s with channels := cs, alloc := s.alloc.clear } :=
  ⟨rfl, fun _ => State.classLaw_of_clear rfl, .of_keys (by simp [State.keys, hk])⟩

theorem Calm.of_mode (s : State) (m : Mode) (c : ModeCause) : Calm s (s.changeMode m c) :=
  Calm.trans (t := { s with mode := m }) (.of_views rfl rfl rfl) (Kept.of_post _ _ _ _).calm

/-- The part at its entry to RUN, before the records are brought up. -/
def State.running (s : State) (cause : ModeCause) : State :=
  let s := ((s.onChannels Channel.prepare).onAlloc Alloc.clear).changeMode .run cause
  let s := { s with refresh := some (s.after 20) }
  let s := s.onAlloc fun a => { a with reviewTimer := some (s.after 500) }
  s.onSense Sense.emptyWindow

theorem State.enterRun_eq (s : State) (c : ModeCause) : s.enterRun c = (s.running c).bringUpAll := rfl

theorem Calm.of_running (s : State) (c : ModeCause) : Calm s (s.running c) :=
  ((Calm.of_clear s _ (by simp [Channel.prepare, Function.comp_def])).trans (.of_mode _ .run c)).trans (.of_views rfl rfl rfl)

/-- What the entry to RUN keeps, from CONFIG. -/
theorem State.enterRun_kept (s : State) (c : ModeCause) (hm : s.mode = .config) :
    Calm s (s.enterRun c) ∧ (s.enterRun c).mode = .run ∧ (s.DeckLaw → (s.enterRun c).DeckLaw)
      ∧ (s.WindlassLaw → (s.enterRun c).WindlassLaw) := by
  rw [State.enterRun_eq]
  have ha := Aside.of_bringUpAll (s.running c)
  refine ⟨(Calm.of_running s c).trans ha.calm, ha.kept.mode, fun h => ha.kept.deckLaw ?_, fun h => ha.kept.windlassLaw ?_⟩
  · exact State.deckLaw_of_quiet h (h.quiet hm) rfl fun m => by cases m <;> rfl
  · exact State.windlassLaw_of_quiet h (h.config hm) rfl

/-- The part at its entry to CONFIG, before the bus. -/
def State.configured (s : State) : State :=
  let s := s.changeMode .config .drained
  let s := { s with refresh := none, nodes := s.nodes.map NodeRecord.rest, channels := s.channels.map Channel.halt
                    hatchOwner := {}, platformOwner := {}, windlassOwner := {}, stations := s.stations.map Station.rest }
  s.onAlloc fun a => { a.clear with reviewTimer := none }

theorem State.enterConfig_eq (s : State) : s.enterConfig = s.configured.busToConfig := rfl

theorem Calm.of_configured (s : State) : Calm s s.configured := by
  refine (Calm.of_mode s .config .drained).trans ⟨rfl, fun _ => State.classLaw_of_clear rfl, .of_keys ?_⟩
  simp [State.keys, State.configured, NodeRecord.rest, Channel.halt, Station.rest, Function.comp_def]

/-- What the entry to CONFIG keeps, once the deck is at rest. -/
theorem State.enterConfig_kept (s : State) (hd : s.drained = true) :
    Calm s s.enterConfig ∧ s.enterConfig.mode = .config ∧ s.enterConfig.drained = true ∧ (s.DeckLaw → s.enterConfig.DeckLaw)
      ∧ (s.WindlassLaw → s.enterConfig.WindlassLaw) := by
  rw [State.enterConfig_eq]
  have ha := Aside.of_busToConfig s.configured
  refine ⟨(Calm.of_configured s).trans ha.calm, ha.kept.mode, ha.drained.trans hd, fun h => ha.kept.deckLaw ?_,
    fun h => ha.kept.windlassLaw ?_⟩
  · exact State.deckLaw_of_quiet h (h.quiet_of_drained hd) rfl fun m => by cases m <;> rfl
  · exact State.windlassLaw_of_quiet h (s.drained_windlass hd) rfl

/-! ## What a command does to the laws and the mode -/

/-- The mode after a command, as chapter 11 gives it (R185 to R188, R193). -/
def ModeBy (i : Instr) (s t : State) : Prop :=
  t.mode = s.mode
    ∨ (s.mode = .config ∧ t.mode = .run ∧ s.startCheck = none ∧ (i = .autoStart ∨ ∃ tag, i = .start tag))
    ∨ (s.mode = .run ∧ (t.mode = .stopping ∨ t.mode = .config) ∧ ∃ tag, i = .stop tag)
    ∨ (s.mode = .stopping ∧ t.mode = .config ∧ t.drained = true)
    ∨ (t.mode = .config ∧ ((∃ c a b, i = .hardReset c a b) ∨ ∃ a b, i = .restartReset a b))

/-- What the operation of a command keeps, with the mode as chapter 11 gives it. -/
structure Passed (i : Instr) (s t : State) : Prop where
  calm : Calm s t
  mode : ModeBy i s t
  deckLaw : s.DeckLaw → t.DeckLaw
  windlassLaw : s.WindlassLaw → t.WindlassLaw

theorem Kept.passed (h : Kept s t) (i : Instr) : Passed i s t := ⟨h.calm, .inl h.mode, h.deckLaw, h.windlassLaw⟩

/-- What follows a deck operation keeps the laws, and changes the mode by the drain alone. -/
theorem State.deckPass_cases (s b : State) :
    Kept s (s.deckPass b) ∨ (Calm s (s.deckPass b) ∧ s.mode = .stopping ∧ (s.deckPass b).mode = .config ∧ (s.deckPass b).drained = true
      ∧ (s.DeckLaw → (s.deckPass b).DeckLaw) ∧ (s.WindlassLaw → (s.deckPass b).WindlassLaw)) := by
  have hw := Kept.of_watchInterlock s
  by_cases hd : s.watchInterlock.mode = .stopping ∧ s.watchInterlock.drained = true
  · right
    obtain ⟨h1, h2, h3, h4, h5⟩ := s.watchInterlock.enterConfig_kept hd.2
    have hl := Aside.of_lampPass s.watchInterlock.enterConfig b
    rw [State.deckPass_drained b hd.1 hd.2]
    exact ⟨(hw.calm.trans h1).trans hl.calm, hw.mode.symm.trans hd.1, hl.kept.mode.trans h2, hl.drained.trans h3,
      fun g => hl.kept.deckLaw (h4 (hw.deckLaw g)), fun g => hl.kept.windlassLaw (h5 (hw.windlassLaw g))⟩
  · left
    rw [State.deckPass_undrained b (by by_cases h : s.watchInterlock.mode = .stopping <;> simp_all)]
    exact hw.trans (Aside.of_lampPass _ b).kept

theorem Kept.deckPass (h : Kept s t) (i : Instr) (b : State) : Passed i s (t.deckPass b) := by
  rcases t.deckPass_cases b with g | ⟨g1, g2, g3, g4, g5, g6⟩
  · exact (h.trans g).passed i
  · exact ⟨h.calm.trans g1, .inr (.inr (.inr (.inl ⟨h.mode.symm.trans g2, g3, g4⟩))), g5 ∘ h.deckLaw, g6 ∘ h.windlassLaw⟩

/-- An expiry whose operation keeps the laws where its timer runs. -/
theorem Passed.of_expire (s : State) (timer : Option Uptime) (op : State → State) (i : Instr)
    (h : ∀ e, timer = some e → Kept (s.atMoment e) (op (s.atMoment e))) : Passed i s (s.expire timer op) := by
  unfold State.expire
  split
  · exact Kept.refl.passed i
  · exact ((Kept.of_atMoment s _).trans (h _ rfl)).deckPass i s

/-! ## STOP (R137, R156, R188) -/

theorem Kept.of_stopDeck (s : State) : Kept s s.stopDeck := by
  unfold State.stopDeck
  dsimp only
  refine .after (.of_windlassStop _ _) ?_
  have h := (Kept.of_moverStop s .hatch .modeStop).trans (.of_moverStop _ .platform .modeStop)
  split
  · rename_i hr; exact h.trans (.of_runOnOff _ hr)
  · exact h.trans (.of_dropIdleStart _)

/-- A change between two modes other than CONFIG keeps the laws. -/
theorem State.changeMode_laws (s : State) (m : Mode) (c : ModeCause) (hm : m ≠ .config) :
    (s.DeckLaw → (s.changeMode m c).DeckLaw) ∧ (s.WindlassLaw → (s.changeMode m c).WindlassLaw) := by
  refine ⟨fun h => ?_, fun h => ?_⟩
  · refine (State.deckLaw_iff _).mpr ⟨h.hpuFits, fun n => ?_, fun n => ?_, fun e => absurd e hm⟩
    · have := h.fits n; cases n <;> exact this
    · have := h.manned n; cases n <;> exact this
  · obtain ⟨a, b, c, d, e, f, -⟩ := h
    exact ⟨a, b, c, d, e, f, fun x => absurd x hm⟩

/-! ## The store and the stored image (R190 to R193) -/

theorem State.Ordered.image (h : s.Ordered) {m : Image} (hm : s.store.image = some m) : m.Ordered := by
  obtain ⟨-, -, -, -, -, h6, -⟩ := h; exact h6 m hm

theorem State.configuration_ordered (h : s.Ordered) : s.configuration.Ordered := by
  obtain ⟨h1, h2, h3, h4, h5, -⟩ := h
  simpa [Image.Ordered, State.configuration, Function.comp_def] using ⟨h1, h2, h3, h4, h5⟩

/-- The tables of an image put in place of the part's, its other figures standing. -/
def State.withTables (s : State) (m : Image) : State :=
  { s with
    nodes := m.nodes.map fun (a, ty, serial) => { addr := a, type := ty, serial := serial }
    channels := m.channels.map fun c => { cfg := c }
    scenes := m.scenes
    build := none
    lastTake := none
    bindings := m.bindings.map fun (n, t, a) => ⟨n, t, a, 0⟩
    stations := m.maps.map fun (a, f) => { addr := a, map := f }
    alloc := { s.alloc with margin := m.margin, hysteresis := m.hysteresis }
    sense := { s.sense with inputs := Vector.ofFn fun i => s.sense.inputs[i].withSettings m.sense[i] }
    bus := { s.bus with settings := m.roomline }
    autoStart := m.autoStart }

theorem State.loadImage_eq (s : State) (m : Image) : s.loadImage m =
    ((((s.withTables m).onHpu fun h => { h with settings := m.hpu }).onMover .hatch fun r => { r with settings := m.hatch }).onMover
      .platform fun r => { r with settings := m.platform }).onWindlass fun w => w.withSettings m.windlass := rfl

theorem Kept.of_withTables (s : State) (m : Image) (h : s.Ordered → m.Ordered) : Kept s (s.withTables m) := by
  refine .of_tables s (fun g => ?_) rfl rfl rfl rfl
  obtain ⟨h1, h2, h3, h4, h5⟩ := h g
  obtain ⟨-, -, -, -, -, g6⟩ := g
  exact ⟨by simpa [State.withTables, Function.comp_def] using h1, by simpa [State.withTables, Function.comp_def] using h2, h3,
    by simpa [State.withTables, Function.comp_def] using h4, by simpa [State.withTables, Function.comp_def] using h5, g6⟩

theorem Kept.of_loadImage (s : State) (m : Image) (h : s.Ordered → m.Ordered) : Kept s (s.loadImage m) := by
  rw [State.loadImage_eq]
  refine .after (.of_onWindlass _ _ (Windlass.withSettings_drive _ _)) ?_
  refine .after (.of_onMover _ _ _ rfl rfl rfl rfl rfl) (.after (.of_onMover _ _ _ rfl rfl rfl rfl rfl) ?_)
  exact .after (.of_onHpu _ _ rfl rfl rfl rfl rfl) (.of_withTables s m h)

theorem Kept.of_store (s : State) (st : Store) (a : Bool) (h : s.Ordered → (∀ m, st.image = some m → m.Ordered) ∧ ∀ m, st.saving = some m → m.Ordered) :
    Kept s { s with store := st, autoStart := a } := by
  refine .of_tables s (fun g => ?_) rfl rfl rfl rfl
  obtain ⟨g1, g2, g3, g4, g5, -⟩ := id g
  exact ⟨g1, g2, g3, g4, g5, h g⟩

/-! ## The resets (R193) -/

/-- The part at a reset before its image is looked at. -/
def State.bare (s : State) (cause : ResetCause) (lr1 lr0 : Bool) : State :=
  { pending := s.pending, resetCause := cause, link := { rate := strapRate lr1 lr0 }, store := s.store.atReset }

theorem State.bare_laws (s : State) (c : ResetCause) (a b : Bool) :
    (s.bare c a b).ClassLaw ∧ (s.bare c a b).DeckLaw ∧ (s.bare c a b).WindlassLaw ∧ (s.Ordered → (s.bare c a b).Ordered) := by
  refine ⟨State.classLaw_of_clear rfl, ?_, ?_, fun h => ?_⟩
  · refine (State.deckLaw_iff _).mpr ⟨⟨by simp [State.bare], by simp [State.bare], by simp [State.bare], by simp [State.bare]⟩, fun m => ?_,
      fun m _ => ?_, fun _ => ⟨rfl, fun m => ?_⟩⟩
    · cases m <;> exact .apart (by simp [State.bare]) (by simp [State.bare]) (by simp [State.bare, State.mover]) rfl rfl rfl
        (by simp [State.bare, State.mover])
    · cases m <;> exact .inl rfl
    · cases m <;> exact .inl rfl
  · exact State.windlassLaw_of_rest (.inl rfl) rfl rfl rfl rfl rfl rfl rfl
  · refine ⟨.nil, .nil, .nil, .nil, .nil, fun m hm => ?_, by simp [State.bare, Store.atReset]⟩
    simp only [State.bare, Store.atReset] at hm
    split at hm
    · cases hm
    · exact h.image hm

theorem State.booted_laws (u : State) (st : Store) (b : Bool) :
    (u.DeckLaw → State.DeckLaw { u with store := st, bootValid := b }) ∧ (u.WindlassLaw → State.WindlassLaw { u with store := st, bootValid := b }) :=
  ⟨.of_view rfl, .of_view rfl⟩

/-- A reset ends in a state that meets the laws, whatever the state before, but for the order of its tables. -/
theorem State.resetTo_laws (s : State) (c : ResetCause) (a b : Bool) :
    (s.resetTo c a b).ClassLaw ∧ (s.resetTo c a b).DeckLaw ∧ (s.resetTo c a b).WindlassLaw ∧ (s.Ordered → (s.resetTo c a b).Ordered)
      ∧ (s.resetTo c a b).mode = .config ∧ (s.resetTo c a b).pending = s.pending := by
  obtain ⟨h1, h2, h3, h4⟩ := s.bare_laws c a b
  have hfin (u : State) (hu1 : u.ClassLaw) (hu2 : u.DeckLaw) (hu3 : u.WindlassLaw) (hu4 : s.Ordered → u.Ordered) (hu5 : u.mode = .config)
      (hu6 : u.pending = s.pending) :
      (((u.reposition .hatch).reposition .platform).queueRelease).ClassLaw ∧ (((u.reposition .hatch).reposition .platform).queueRelease).DeckLaw
        ∧ (((u.reposition .hatch).reposition .platform).queueRelease).WindlassLaw
        ∧ (s.Ordered → (((u.reposition .hatch).reposition .platform).queueRelease).Ordered)
        ∧ (((u.reposition .hatch).reposition .platform).queueRelease).mode = .config
        ∧ (((u.reposition .hatch).reposition .platform).queueRelease).pending = s.pending := by
    have k : Kept u (((u.reposition .hatch).reposition .platform).queueRelease) :=
      ((Kept.of_reposition u .hatch).trans (.of_reposition _ .platform)).trans (Aside.of_queueRelease _).kept
    have hp := k.calm.fixed
    simp only [State.fixed, Prod.mk.injEq] at hp
    exact ⟨k.calm.classLaw hu1, k.deckLaw hu2, k.windlassLaw hu3, fun o => k.calm.ordered (hu4 o), k.mode.trans hu5, hp.1.trans hu6⟩
  unfold State.resetTo
  dsimp only
  split
  · rename_i m hm
    have hk := Kept.of_loadImage (s.bare c a b) m fun o => o.image (by
      simp only [Store.checked, Option.filter_eq_some_iff] at hm; exact hm.1)
    refine hfin _ (.of_classes rfl (hk.calm.classLaw h1)) ((State.booted_laws _ _ _).1 (hk.deckLaw h2))
      ((State.booted_laws _ _ _).2 (hk.windlassLaw h3)) (fun o => ?_) rfl rfl
    obtain ⟨o1, o2, o3, o4, o5, -⟩ := hk.calm.ordered (h4 o)
    obtain ⟨-, -, -, -, -, o6⟩ := h4 o
    exact ⟨o1, o2, o3, o4, o5, o6⟩
  · have hk := Kept.of_post (s.bare c a b) .storeInvalid 0 []
    exact hfin _ (hk.calm.classLaw h1) (hk.deckLaw h2) (hk.windlassLaw h3) (fun o => hk.calm.ordered (h4 o)) rfl rfl

/-! ## Table edits -/

theorem Kept.of_putChannel (s : State) (c : Channel) : Kept s { s with channels := tablePut (·.cfg.num) c s.channels } := by
  refine .of_tables s (fun h => ?_) rfl rfl rfl rfl
  obtain ⟨h1, h2, h⟩ := h
  exact ⟨h1, tablePut_ordered (key := _) h2, h⟩

theorem Kept.of_putScene (s : State) (x : Scene) (b : Option SceneBuild) :
    Kept s { s with scenes := tablePut (·.num) x s.scenes, build := b } := by
  refine .of_tables s (fun h => ?_) rfl rfl rfl rfl
  obtain ⟨h1, h2, h3, h⟩ := h
  exact ⟨h1, h2, tablePut_ordered (key := _) h3, h⟩

theorem Kept.of_build (s : State) (b : Option SceneBuild) : Kept s { s with build := b } := .of_views rfl rfl rfl rfl rfl

theorem Kept.of_putBinding (s : State) (b : Binding) : Kept s { s with bindings := tablePut (·.slot) b s.bindings } := by
  refine .of_tables s (fun h => ?_) rfl rfl rfl rfl
  obtain ⟨h1, h2, h3, h4, h⟩ := h
  exact ⟨h1, h2, h3, tablePut_ordered (key := _) h4, h⟩

/-- Part of each table taken away keeps the laws. -/
theorem Kept.of_fewer (s : State) {ns : List NodeRecord} {cs : List Channel} {ss : List Scene} {bs : List Binding} {ts : List Station}
    (h1 : (ns.map (·.addr)).Sublist (s.nodes.map (·.addr))) (h2 : (cs.map (·.cfg.num)).Sublist (s.channels.map (·.cfg.num)))
    (h3 : (ss.map (·.num)).Sublist (s.scenes.map (·.num))) (h4 : (bs.map (·.slot)).Sublist (s.bindings.map (·.slot)))
    (h5 : (ts.map (·.addr)).Sublist (s.stations.map (·.addr))) :
    Kept s { s with nodes := ns, channels := cs, scenes := ss, bindings := bs, stations := ts } := by
  refine .of_tables s (fun h => ?_) rfl rfl rfl rfl
  obtain ⟨g1, g2, g3, g4, g5, g6⟩ := h
  exact ⟨g1.sublist h1, g2.sublist h2, g3.sublist h3, g4.sublist h4, g5.sublist h5, g6⟩

theorem Kept.of_dropScene (s : State) (n : Nat) : Kept s (s.dropScene n) :=
  .of_fewer s (.refl _) (.refl _) (List.filter_sublist.map _) (List.filter_sublist.map _) (.refl _)

theorem Kept.of_clearedBinding (s : State) (n : Nat) : Kept s { s with bindings := tableErase (·.slot) n s.bindings } :=
  .of_fewer s (.refl _) (.refl _) (.refl _) (List.filter_sublist.map _) (.refl _)

theorem Kept.of_dropChannel (s : State) (n : Nat) (r : Removed) : Kept s (s.dropChannel n r).1 := by
  unfold State.dropChannel
  dsimp only
  refine .after (.of_fewer _ (.refl _) (List.filter_sublist.map _) (.refl _) (List.filter_sublist.map _) (.refl _)) ?_
  refine .after (.foldl _ (fun u k => .of_dropScene u k) _ _) ?_
  exact .of_fewer s (.refl _) (.refl _) (by simp [Function.comp_def]) (.refl _) (.refl _)

theorem Kept.of_removeNode (s : State) (a : Nat) : Kept s (s.removeNode a).1 := by
  have key : ∀ (ns : List Nat) (p : State × Removed), Kept p.1 (ns.foldl (fun (p : State × Removed) n => p.1.dropChannel n p.2) p).1 := by
    intro ns
    induction ns with
    | nil => exact fun _ => .refl
    | cons n ns ih => exact fun p => (Kept.of_dropChannel p.1 n p.2).trans (ih _)
  unfold State.removeNode
  dsimp only
  refine .after (.of_fewer _ (List.filter_sublist.map _) (.refl _) (.refl _) (List.filter_sublist.map _) (.refl _)) ?_
  exact (key _ (s, {})).trans (.of_dropStation _ a)

theorem Kept.of_mapForType (s : State) (a : Nat) (was : Option NodeType) (ty : NodeType) : Kept s (s.mapForType a was ty) := by
  unfold State.mapForType
  split
  · split
    · exact .refl
    · exact .of_addStation s a
  · split
    · exact .of_dropStation s a
    · exact .refl

end Sys2Proof.Machine
end

section
/-!
PROOFS. Every request: what it is served with keeps the laws, and a refused one changes nothing but the last admission and the scene build
(R174).
-/

namespace Sys2Proof.Machine

variable {s t u : State}

/-! ## What a served request comes to -/

/-- A request served by its block: the state it leaves stands in the relation given, a reply that is neither OK nor INVALID carries the
status alone, and a refusal changes nothing but the last-admission record, for NO_BUDGET, and the scene build, which it closes. -/
structure Serves (R : State → State → Prop) (s : State) (kind : Byte) (r : Served) : Prop where
  rel : R s r.state
  bare : r.status ≠ .ok → r.status ≠ .invalid → r.data = .none
  unchanged : r.status ≠ .ok →
    { r.state with alloc := { r.state.alloc with lastAdmission := s.alloc.lastAdmission }, build := s.build } = s
      ∧ (r.state.alloc.lastAdmission = s.alloc.lastAdmission ∨ r.status = .noBudget)
      ∧ (r.state.build = s.build ∨ (r.state.build = none ∧ (kind = 0x28 ∨ kind = 0x29)))

variable {kind : Byte} {R : State → State → Prop}

theorem Serves.of_refuse (st : Status) : Serves Kept s kind (s.refuse st) := ⟨.refl, fun _ _ => rfl, fun _ => ⟨rfl, .inl rfl, .inl rfl⟩⟩

theorem Serves.of_ok (h : R s t) (d : ReplyData) : Serves R s kind ⟨t, .ok, d⟩ :=
  ⟨h, fun e => absurd rfl e, fun e => absurd rfl e⟩

theorem Serves.of_accept (h : R s t) : Serves R s kind t.accept := .of_ok h _

theorem Serves.of_read (d : ReplyData) : Serves Kept s kind ⟨s, .ok, d⟩ := .of_ok .refl d

theorem Serves.mono {r : Served} {Q : State → State → Prop} (h : Serves R s kind r) (hq : ∀ t, R s t → Q s t) : Serves Q s kind r :=
  ⟨hq _ h.rel, h.bare, h.unchanged⟩

theorem Serves.configEdit {r : Served} (h : Serves Kept s kind r) : Serves Kept s kind (s.configEdit r) := by
  unfold State.configEdit
  split
  · exact .of_refuse _
  · split
    · exact .of_refuse _
    · exact h

theorem Serves.replaceConfig {r : Served} (h : Serves Kept s kind r) : Serves Kept s kind (s.replaceConfig r) := by
  unfold State.replaceConfig
  split
  · exact .of_refuse _
  · split
    · exact .of_refuse _
    · exact h

theorem Serves.deck {r : Served} (h : Serves Kept s kind r) (i : Instr) : Serves (Passed i) s kind (r.deck s) := by
  unfold Served.deck
  split
  · rename_i ho
    exact ⟨h.rel.deckPass i s, fun e => absurd ho e, fun e => absurd ho e⟩
  · exact h.mono fun _ g => g.passed i

/-- A request turned away: nothing has changed, or, for NO_BUDGET, the last-admission record alone. -/
def Turned (s t : State) (st : Status) : Prop :=
  t = s ∨ (st = .noBudget ∧ ∃ x, t = s.onAlloc fun a => { a with lastAdmission := x })

theorem Turned.serves {st : Status} (h : Turned s t st) : Serves Kept s kind (t.refuse st) := by
  rcases h with rfl | ⟨rfl, x, rfl⟩
  · exact .of_refuse _
  · exact ⟨Kept.of_onAlloc s (fun a => { a with lastAdmission := x }) rfl rfl rfl, fun _ _ => rfl, fun _ => ⟨rfl, .inr rfl, .inl rfl⟩⟩

theorem State.seekWatts_refused (s : State) (who : Requester) (r : Nat) (h : (s.seekWatts who r).2 = false) :
    ∃ x, (s.seekWatts who r).1 = s.onAlloc fun a => { a with lastAdmission := x } := by
  revert h
  unfold State.seekWatts
  dsimp only
  split
  · simp
  · split
    · simp
    · exact fun _ => ⟨_, rfl⟩

theorem State.startAdmission_refused {m : Motor} {g i w : Nat} (h : s.startAdmission m g i w = (t, false)) :
    ∃ x, t = s.onAlloc fun a => { a with lastAdmission := x } := by
  unfold State.startAdmission at h
  split at h
  · cases h; exact ⟨_, rfl⟩
  · split at h
    · rename_i v hv
      cases h
      obtain ⟨x, e⟩ := s.seekWatts_refused (startRequester m) (g + i) (by rw [hv])
      exact ⟨x, by rw [hv] at e; exact e⟩
    · cases h

theorem State.pump_turned {m : MoverId} {k : Motion} {st : Status} (h : s.pump m k = (t, some st)) : Turned s t st := by
  unfold State.pump at h
  dsimp only at h
  split at h
  · split at h
    · cases h; exact .inl rfl
    · split at h
      · rename_i e; cases h; exact .inr ⟨rfl, State.startAdmission_refused e⟩
      · cases h
  · cases h
  · cases h
  · cases h
  · cases h; exact .inl rfl

theorem State.startMotion_turned {m : MoverId} {k : MotionKind} {d : Direction} {g : Position} {st : Status}
    (h : s.startMotion m k d g = (t, some st)) : Turned s t st := by
  unfold State.startMotion at h
  dsimp only at h
  split at h
  · cases h; exact .inl rfl
  · split at h
    · cases h; exact .inl rfl
    · exact State.pump_turned h

theorem State.acceptRun_turned {r : Run} {st : Status} (h : s.acceptRun r = (t, some st)) : Turned s t st := by
  unfold State.acceptRun at h
  split at h
  · cases h; exact .inl rfl
  · unfold State.startRun at h
    split at h
    · rename_i e; cases h; exact .inr ⟨rfl, State.startAdmission_refused e⟩
    · cases h

/-! ## Motion requests -/

theorem State.ownerRefusal_none {r : Resource} (h : s.ownerRefusal r = none) : (s.ownerOf r).owner = .none := by
  unfold State.ownerRefusal at h
  split at h
  · cases h
  · cases h
  · assumption

theorem Serves.of_moveTo (m : MoverId) (goal : Position) (hrun : s.mode = .run) : Serves Kept s kind (s.moveTo m goal) := by
  unfold State.moveTo
  split
  · exact .of_refuse _
  · rename_i hn
    split
    · exact .of_refuse _
    · rename_i hf
      split
      · exact .of_accept (.of_post s _ _ _)
      · split
        · exact .of_refuse _
        · dsimp only
          rcases s.startMotion_cases m .target (s.moveDirection m goal) goal with ⟨t, st, e, -⟩ | ⟨t, e, h⟩
          · rw [e]; exact (State.startMotion_turned e).serves
          · rw [e]; exact .of_accept (h.kept hrun (State.ownerRefusal_none hn) hf _ (by simp))

theorem Serves.of_seek (dir : RodeDir) (target : Int) : Serves Kept s kind (s.seek dir target) := by
  unfold State.seek
  dsimp only
  split
  · exact .of_refuse _
  · split
    · exact .of_refuse _
    · rename_i hn
      split
      · exact .of_refuse _
      · rename_i hf
        split
        · exact .of_refuse _
        · split
          · exact .of_accept (.of_post s _ _ _)
          · split <;> rename_i e
            · exact (State.acceptRun_turned e).serves
            · exact .of_ok (State.acceptRun_kept e (State.ownerRefusal_none hn) hf _ (by simp)) _

theorem Serves.of_heaveHome : Serves Kept s kind s.heaveHome := by
  unfold State.heaveHome
  split
  · exact .of_refuse _
  · split
    · exact .of_refuse _
    · rename_i hn
      split
      · exact .of_refuse _
      · rename_i hf
        split
        · exact .of_accept ((Kept.of_setCount s 0).trans (.of_post _ _ _ _))
        · split <;> rename_i e
          · exact (State.acceptRun_turned e).serves
          · exact .of_accept (State.acceptRun_kept e (State.ownerRefusal_none hn) hf _ (by simp))

theorem Serves.of_setRode (n : Nat) : Serves Kept s kind (s.setRode n) := by
  unfold State.setRode
  split
  · exact .of_refuse _
  · split
    · exact .of_refuse _
    · exact .of_ok (.of_setCount s _) _

theorem Serves.of_clearMover (m : MoverId) : Serves Kept s kind (s.clearMover m) := by
  unfold State.clearMover
  split
  · rename_i hf
    split
    · exact .of_refuse _
    · exact .of_accept (.of_clearedMover s m hf)
  · exact .of_accept .refl

theorem Serves.of_clearHpu : Serves Kept s kind s.clearHpu := by
  unfold State.clearHpu
  split
  · rename_i hf
    split
    · exact .of_refuse _
    · exact .of_accept (.of_clearedHpu s hf)
  · exact .of_accept .refl

theorem Serves.of_clearWindlass : Serves Kept s kind s.clearWindlass := by
  unfold State.clearWindlass
  split
  · rename_i hf
    split
    · exact .of_refuse _
    · exact .of_accept (.of_clearedWindlass s hf)
  · exact .of_accept .refl

theorem Kept.of_stopResources (rs : List Resource) (c : Cause) : Kept s (rs.foldl (fun s r => s.stopResource r c) s) :=
  .foldl _ (fun u r => .of_stopResource u r c) rs s

/-! ## Scenes -/

theorem Serves.of_buildClosed {x : State} (hx : x = { s with build := none }) (st : Status) (hk : kind = 0x28 ∨ kind = 0x29) :
    Serves Kept s kind (x.refuse st) := by
  subst hx
  exact ⟨.of_build s none, fun _ _ => rfl, fun _ => ⟨rfl, .inl rfl, .inr ⟨rfl, hk⟩⟩⟩

theorem Serves.of_completeScene (b : SceneBuild) (hk : kind = 0x28 ∨ kind = 0x29) : Serves Kept s kind (s.completeScene b) := by
  unfold State.completeScene
  dsimp only
  split
  · exact .of_buildClosed rfl _ hk
  · split
    · exact .of_buildClosed rfl _ hk
    · exact .of_ok (.of_putScene s _ none) _

theorem Serves.of_defineScene (p : List Byte) : Serves Kept s 0x28 (s.defineScene p) := by
  unfold State.defineScene
  dsimp only
  split
  · exact .of_refuse _
  · split
    · exact .of_completeScene _ (.inl rfl)
    · exact .of_ok (.of_build s _) _

theorem Serves.of_scenePart (b : SceneBuild) (es : List SceneEntry) : Serves Kept s 0x29 (s.scenePart b es) := by
  unfold State.scenePart
  split
  · exact .of_buildClosed rfl _ (.inr rfl)
  · dsimp only
    split
    · exact .of_completeScene _ (.inr rfl)
    · exact .of_ok (.of_build s _) _

/-! ## The link's own requests -/

/-- A change of the notices, the counts and the supervision of the link port. -/
theorem Kept.of_onLink (f : Link → Link) (h : (f s.link).port = s.link.port) : Kept s (s.onLink f) :=
  .of_views (by simp [State.fixed, h]) rfl rfl rfl rfl

/-- A command that is a request: served and answered. -/
def ServedBy (i : Instr) (s : State) (kind tag : Byte) : Prop := ∃ r, exec i s = answered kind tag r ∧ Serves (Passed i) s kind r

theorem ServedBy.of_kept {i : Instr} {tag : Byte} {r : Served} (h : exec i s = answered kind tag r) (hs : Serves Kept s kind r) :
    ServedBy i s kind tag := ⟨r, h, hs.mono fun _ g => g.passed i⟩

variable (s) (tag : Byte)

theorem ServedBy.of_start : ServedBy (.start tag) s 0x08 tag := by
  refine ⟨_, rfl, ?_⟩
  split
  · exact (Serves.of_refuse _).mono fun _ g => g.passed _
  · rename_i hm
    push Not at hm
    split
    · exact ⟨Kept.refl.passed _, fun _ e => absurd rfl e, fun _ => ⟨rfl, .inl rfl, .inl rfl⟩⟩
    · rename_i hc
      obtain ⟨h1, h2, h3, h4⟩ := s.enterRun_kept .start hm
      have hl := (Aside.of_lampPass (s.enterRun .start) s).kept
      exact .of_accept ⟨h1.trans hl.calm, .inr (.inl ⟨hm, hl.mode.trans h2, hc, .inr ⟨tag, rfl⟩⟩), hl.deckLaw ∘ h3, hl.windlassLaw ∘ h4⟩

theorem ServedBy.of_stop : ServedBy (.stop tag) s 0x09 tag := by
  refine ⟨_, rfl, ?_⟩
  split
  · exact (Serves.of_refuse _).mono fun _ g => g.passed _
  · rename_i hm
    push Not at hm
    have hc := Calm.of_mode s .stopping .stop
    obtain ⟨hd, hw⟩ := s.changeMode_laws .stopping .stop (by decide)
    have hk := Kept.of_stopDeck (s.changeMode .stopping .stop)
    refine .of_accept ?_
    rcases (s.changeMode .stopping .stop).stopDeck.deckPass_cases s with g | ⟨g1, -, g3, -, g5, g6⟩
    · have h := hk.trans g
      exact ⟨hc.trans h.calm, .inr (.inr (.inl ⟨hm, .inl h.mode, tag, rfl⟩)), h.deckLaw ∘ hd, h.windlassLaw ∘ hw⟩
    · exact ⟨(hc.trans hk.calm).trans g1, .inr (.inr (.inl ⟨hm, .inr g3, tag, rfl⟩)), g5 ∘ hk.deckLaw ∘ hd, g6 ∘ hk.windlassLaw ∘ hw⟩

theorem Kept.of_saveSettings (a : Bool) :
    Kept s (let t := { s with autoStart := a }
            { t with store := { t.store with state := .saving, image := none, saving := some t.configuration } }) :=
  .of_store s _ a fun h => ⟨nofun, fun m hm => by
    cases hm
    exact State.configuration_ordered (s := { s with autoStart := a }) h⟩

theorem ServedBy.of_saveSettings (flag : Nat) : ServedBy (.saveSettings tag flag) s 0x0A tag := by
  refine .of_kept rfl ?_
  split
  · exact .of_refuse _
  · split
    · exact .of_refuse _
    · exact .of_accept (.of_saveSettings s _)

theorem ServedBy.of_loadSettings : ServedBy (.loadSettings tag) s 0x0B tag := by
  refine .of_kept rfl (.replaceConfig ?_)
  split
  · exact .of_refuse _
  · rename_i m hm
    exact .of_accept (.of_loadImage s m fun h => h.image (Option.filter_eq_some_iff.mp hm).1)

theorem ServedBy.of_defaults : ServedBy (.defaults tag) s 0x0C tag :=
  .of_kept rfl (.replaceConfig (.of_accept (.of_loadImage s {} fun _ => ⟨.nil, .nil, .nil, .nil, .nil⟩)))

theorem ServedBy.of_setRoomline (rate silence fb : Nat) : ServedBy (.setRoomline tag rate silence fb) s 0x10 tag := by
  refine .of_kept rfl (.configEdit ?_)
  split
  · exact .of_refuse _
  · split
    · exact .of_refuse _
    · exact .of_accept (.of_onBus s _)

theorem ServedBy.of_declareNode (a ty : Nat) (n : Serial) : ServedBy (.declareNode tag a ty n) s 0x14 tag := by
  refine .of_kept rfl (.configEdit ?_)
  split
  · exact .of_refuse _
  · split
    · exact .of_refuse _
    · split
      · exact .of_refuse _
      · split
        · split
          · exact .of_accept (.of_onNode s a _ fun _ => rfl)
          · split
            · exact .of_refuse _
            · exact .of_accept (.after (.of_mapForType _ _ _ _) (.of_onNode s a _ fun _ => rfl))
        · split
          · exact .of_refuse _
          · exact .of_accept (.after (.of_mapForType _ _ _ _) (.of_putNode s _))

theorem ServedBy.of_removeNode (a : Nat) : ServedBy (.removeNode tag a) s 0x15 tag := by
  refine .of_kept rfl (.configEdit ?_)
  split
  · exact .of_refuse _
  · split
    · exact .of_refuse _
    · split
      · exact .of_refuse _
      · exact .of_ok (.of_removeNode s a) _

theorem ServedBy.of_enrolNode (a ty : Nat) : ServedBy (.enrolNode tag a ty) s 0x16 tag := by
  refine .of_kept rfl ?_
  split
  · exact .of_refuse _
  · split
    · exact .of_refuse _
    · split
      · exact .of_refuse _
      · split
        · exact .of_refuse _
        · split
          · exact .of_refuse _
          · exact .of_accept (.after (.of_enrolAsk _) (.after (.of_setEnrolment _ _) (.of_onNode s a _ fun _ => rfl)))

theorem ServedBy.of_readNode (a : Nat) : ServedBy (.readNode tag a) s 0x17 tag := by
  refine .of_kept rfl ?_
  split
  · exact .of_refuse _
  · split
    · exact .of_read _
    · split
      · exact .of_refuse _
      · exact .of_read _

theorem ServedBy.of_defineChannel (num node index kind rated cls floor preset : Nat) :
    ServedBy (.defineChannel tag num node index kind rated cls floor preset) s 0x20 tag := by
  refine .of_kept rfl (.configEdit ?_)
  split
  · exact .of_refuse _
  · split
    · exact .of_refuse _
    · split
      · exact .of_refuse _
      · split
        · exact .of_refuse _
        · exact .of_ok (.of_putChannel s _) _

theorem ServedBy.of_removeChannel (n : Nat) : ServedBy (.removeChannel tag n) s 0x21 tag := by
  refine .of_kept rfl (.configEdit ?_)
  split
  · exact .of_refuse _
  · split
    · exact .of_refuse _
    · exact .of_ok (.of_dropChannel s n {}) _

theorem ServedBy.of_setLevel (n l f : Nat) : ServedBy (.setLevel tag n l f) s 0x22 tag := by
  refine .of_kept rfl ?_
  split
  · exact .of_refuse _
  · split
    · exact .of_refuse _
    · split
      · exact .of_refuse _
      · exact .of_ok (.of_stage s n l f) _

theorem ServedBy.of_readChannel (n first : Nat) : ServedBy (.readChannel tag n first) s 0x23 tag := by
  refine .of_kept rfl ?_
  split
  · exact .of_refuse _
  · split
    · exact .of_read _
    · split
      · exact .of_refuse _
      · exact .of_read _

theorem ServedBy.of_defineScene (p : List Byte) : ServedBy (.defineScene tag p) s 0x28 tag := by
  refine .of_kept rfl ?_
  split
  · exact .of_refuse _
  · split
    · exact .of_refuse _
    · exact .of_defineScene p

theorem ServedBy.of_scenePart (p : List Byte) : ServedBy (.scenePart tag p) s 0x29 tag := by
  refine .of_kept rfl ?_
  split
  · exact .of_refuse _
  · split
    · exact .of_refuse _
    · split
      · exact .of_refuse _
      · split
        · exact .of_scenePart _ _
        · exact .of_refuse _

theorem ServedBy.of_removeScene (n : Nat) : ServedBy (.removeScene tag n) s 0x2A tag := by
  refine .of_kept rfl ?_
  split
  · exact .of_refuse _
  · split
    · exact .of_refuse _
    · split
      · exact .of_refuse _
      · exact .of_ok (.of_dropScene s n) _

theorem ServedBy.of_readScene (n first : Nat) : ServedBy (.readScene tag n first) s 0x2B tag := by
  refine .of_kept rfl ?_
  split
  · exact .of_refuse _
  · split
    · exact .of_read _
    · split
      · exact .of_refuse _
      · exact .of_read _

theorem ServedBy.of_takeScene (n : Nat) : ServedBy (.takeScene tag n) s 0x2C tag := by
  refine .of_kept rfl ?_
  split
  · exact .of_refuse _
  · split
    · exact .of_refuse _
    · split
      · exact .of_refuse _
      · exact .of_ok (.of_take s n .host) _

theorem ServedBy.of_setBinding (slot k : Nat) (tr : List Byte) (ak : Nat) (ac : List Byte) :
    ServedBy (.setBinding tag slot k tr ak ac) s 0x2D tag := by
  refine .of_kept rfl ?_
  split
  · exact .of_refuse _
  · split
    · exact .of_refuse _
    · split
      · split
        · exact .of_refuse _
        · split
          · exact .of_refuse _
          · exact .of_ok (.of_putBinding s _) _
      · exact .of_refuse _

theorem ServedBy.of_clearBinding (slot : Nat) : ServedBy (.clearBinding tag slot) s 0x2E tag := by
  refine .of_kept rfl ?_
  split
  · exact .of_refuse _
  · split
    · exact .of_refuse _
    · split
      · exact .of_refuse _
      · exact .of_accept (.of_clearedBinding s slot)

theorem ServedBy.of_readBinding (slot first : Nat) : ServedBy (.readBinding tag slot first) s 0x2F tag := by
  refine .of_kept rfl ?_
  split
  · exact .of_refuse _
  · split
    · exact .of_read _
    · split
      · exact .of_refuse _
      · exact .of_read _

theorem ServedBy.of_setSupply (l b src : Nat) : ServedBy (.setSupply tag l b src) s 0x30 tag := by
  refine .of_kept rfl ?_
  split
  · exact .of_refuse _
  · rename_i x _
    have h : Kept s (s.onAlloc fun a => { a with limit := min l 200000, base := min b 100000, source := x }) := .of_onAlloc s _ rfl rfl rfl
    refine .of_ok ?_ _
    split
    · exact h
    · exact h.trans (.of_review _)

theorem ServedBy.of_setAllocation (m h : Nat) : ServedBy (.setAllocation tag m h) s 0x31 tag := by
  refine .of_kept rfl (.configEdit ?_)
  split
  · exact .of_refuse _
  · exact .of_accept (.of_onAlloc s _ rfl rfl rfl)

theorem ServedBy.of_setSense (i : Nat) (a b c d : Int) (h : Nat) : ServedBy (.setSense tag i a b c d h) s 0x38 tag := by
  refine .of_kept rfl (.configEdit ?_)
  split
  · exact .of_refuse _
  · exact .of_accept (.of_onInput s i _)

theorem ServedBy.of_readSense (i : Nat) : ServedBy (.readSense tag i) s 0x39 tag := by
  refine .of_kept rfl ?_
  split
  · exact .of_refuse _
  · split
    · exact .of_read _
    · exact .of_read _

theorem ServedBy.of_setHpu (f : HpuSettings) : ServedBy (.setHpu tag f) s 0x40 tag := by
  refine .of_kept rfl (.configEdit ?_)
  split
  · exact .of_accept (.of_onHpu s _ rfl rfl rfl rfl rfl)
  · exact .of_refuse _

theorem ServedBy.of_setMover (r : Nat) (a b c : Int) (n : Nat) : ServedBy (.setMover tag r a b c n) s 0x41 tag := by
  refine .of_kept rfl (.configEdit ?_)
  split
  · exact .of_refuse _
  · split
    · exact .of_refuse _
    · exact .of_accept (.of_onMover s _ _ rfl rfl rfl rfl rfl)

theorem ServedBy.of_move (r g : Nat) : ServedBy (.move tag r g) s 0x42 tag := by
  refine ⟨_, rfl, ?_⟩
  split
  · exact (Serves.of_refuse _).mono fun _ g => g.passed _
  · rename_i hm
    push Not at hm
    split
    · exact (Serves.of_refuse _).mono fun _ g => g.passed _
    · split
      · exact (Serves.of_refuse _).mono fun _ g => g.passed _
      · exact (Serves.of_moveTo _ _ hm).deck _

theorem ServedBy.of_stopMotion (r : Nat) : ServedBy (.stopMotion tag r) s 0x43 tag := by
  refine ⟨_, rfl, ?_⟩
  split
  · exact (Serves.of_refuse _).mono fun _ g => g.passed _
  · exact Serves.deck (.of_accept (.of_stopResources _ _)) _

theorem ServedBy.of_clearFault (r : Nat) : ServedBy (.clearFault tag r) s 0x44 tag := by
  refine ⟨_, rfl, ?_⟩
  split
  · exact (Serves.of_refuse _).mono fun _ g => g.passed _
  · exact (Serves.of_clearMover _).deck _
  · exact (Serves.of_clearMover _).deck _
  · exact Serves.of_clearWindlass.deck _
  · exact Serves.of_clearHpu.deck _

theorem ServedBy.of_readDeck (n : Nat) : ServedBy (.readDeck tag n) s 0x45 tag := by
  refine .of_kept rfl ?_
  split
  · exact .of_read _
  · exact .of_read _
  · exact .of_read _
  · exact .of_read _
  · exact .of_read _
  · exact .of_refuse _

theorem ServedBy.of_setWindlass (f : WindlassSettings) : ServedBy (.setWindlass tag f) s 0x48 tag := by
  refine ⟨_, rfl, ?_⟩
  unfold State.configEdit
  split
  · exact (Serves.of_refuse _).mono fun _ g => g.passed _
  · split
    · exact (Serves.of_refuse _).mono fun _ g => g.passed _
    · split
      · exact (Serves.of_refuse _).mono fun _ g => g.passed _
      · exact Serves.deck (.of_accept (.of_onWindlass s _ (Windlass.withSettings_drive _ _))) _

theorem ServedBy.of_setStationMap (a : Nat) (cs : List Nat) : ServedBy (.setStationMap tag a cs) s 0x50 tag := by
  refine .of_kept rfl (.configEdit ?_)
  split
  · exact .of_refuse _
  · split
    · exact .of_refuse _
    · split
      · exact .of_refuse _
      · split
        · exact .of_refuse _
        · exact .of_accept (.of_onStation s a _ fun _ => rfl)

theorem ServedBy.of_readStation (a : Nat) : ServedBy (.readStation tag a) s 0x51 tag := by
  refine .of_kept rfl ?_
  split
  · exact .of_refuse _
  · split
    · exact .of_refuse _
    · split
      · exact .of_read _
      · exact .of_refuse _

theorem ServedBy.of_restart : ServedBy (.restart tag) s 0x05 tag := by
  refine .of_kept rfl ?_
  split
  · exact .of_refuse _
  · exact .of_accept .refl

/-- Every request of the table is served and answered. -/
theorem served (i : Instr) (s : State) {kind tag : Byte} (h : requestKey i = some (kind, tag)) : ServedBy i s kind tag := by
  cases i <;> simp only [requestKey, Option.some.injEq, Prod.mk.injEq, reduceCtorEq] at h <;> obtain ⟨rfl, rfl⟩ := h
  case unknownKind => exact .of_kept rfl (.of_refuse _)
  case status => exact .of_kept rfl (.of_read _)
  case readNotices => exact .of_kept rfl (.of_ok (.of_onLink _ rfl) _)
  case linkStats => exact .of_kept rfl (.of_ok (.of_onLink _ rfl) _)
  case setSupervision => exact .of_kept rfl (.of_ok (.of_onLink _ rfl) _)
  case restart => exact .of_restart s _
  case start => exact .of_start s _
  case stop => exact .of_stop s _
  case saveSettings => exact .of_saveSettings s _ _
  case loadSettings => exact .of_loadSettings s _
  case defaults => exact .of_defaults s _
  case setRoomline => exact .of_setRoomline s _ _ _ _
  case readRoomline => exact .of_kept rfl (.of_read _)
  case enrolNode => exact .of_enrolNode s _ _ _
  case declareNode => exact .of_declareNode s _ _ _ _
  case removeNode => exact .of_removeNode s _ _
  case readNode => exact .of_readNode s _ _
  case defineChannel => exact .of_defineChannel s _ _ _ _ _ _ _ _ _
  case removeChannel => exact .of_removeChannel s _ _
  case setLevel => exact .of_setLevel s _ _ _ _
  case readChannel => exact .of_readChannel s _ _ _
  case defineScene => exact .of_defineScene s _ _
  case scenePart => exact .of_scenePart s _ _
  case removeScene => exact .of_removeScene s _ _
  case readScene => exact .of_readScene s _ _ _
  case takeScene => exact .of_takeScene s _ _
  case setBinding => exact .of_setBinding s _ _ _ _ _ _
  case clearBinding => exact .of_clearBinding s _ _
  case readBinding => exact .of_readBinding s _ _ _
  case setSupply => exact .of_setSupply s _ _ _ _
  case setAllocation => exact .of_setAllocation s _ _ _
  case readAllocation => exact .of_kept rfl (.of_read _)
  case setSense => exact .of_setSense s _ _ _ _ _ _ _
  case readSense => exact .of_readSense s _ _
  case setHpu => exact .of_setHpu s _ _
  case setMover => exact .of_setMover s _ _ _ _ _ _
  case move => exact .of_move s _ _ _
  case clearFault => exact .of_clearFault s _ _
  case stopMotion => exact .of_stopMotion s _ _
  case readDeck => exact .of_readDeck s _ _
  case setWindlass => exact .of_setWindlass s _ _
  case payOutTo => exact ⟨_, rfl, (Serves.of_seek _ _).deck _⟩
  case heaveTo => exact ⟨_, rfl, (Serves.of_seek _ _).deck _⟩
  case heaveHome => exact ⟨_, rfl, Serves.of_heaveHome.deck _⟩
  case setRode => exact ⟨_, rfl, (Serves.of_setRode _).deck _⟩
  case setStationMap => exact .of_setStationMap s _ _ _
  case readStation => exact .of_readStation s _ _

end Sys2Proof.Machine
end

section
/-!
PROOFS. Every command keeps the laws: the events and timers, the link port, and the seven statements about every command (O2, O3, O8 to
O11, O26), with the step and the reset state (O1, O6).
-/

namespace Sys2Proof.Machine

variable (s : State)

/-! ## The events -/

theorem Kept.of_pressureTold (s b : State) : Kept s (s.tellReaders b) := by
  have one (c : Bool) (f : State → State) (hf : ∀ u, Kept u (f u)) (u : State) : Kept u (if c then f u else u) := by
    split
    · exact hf u
    · exact .refl
  unfold State.tellReaders
  dsimp only
  exact (((one _ _ .of_pressureFaulted s).trans (one _ _ (fun u => .of_angleHasFaulted u .hatch) _)).trans
    (one _ _ (fun u => .of_angleHasFaulted u .platform) _)).trans (one _ _ .of_currentFaulted _)

theorem Kept.of_sweepAll (raw : Vector Raw 8) : Kept s (s.sweepAll raw) := by
  unfold State.sweepAll
  dsimp only
  have h1 := (Kept.of_senseSweep s raw).trans (.of_pressureTold _ s)
  have h2 := ((h1.trans (.of_reposition _ .hatch)).trans (.of_reposition _ .platform)).trans (.of_watchInterlock _)
  exact (((h2.trans (.of_moverSweep _ .hatch)).trans (.of_moverSweep _ .platform)).trans (.of_hpuSweep _)).trans (.of_windlassSweep _)

theorem Kept.of_confirmLapse (r : Resource) : Kept s (s.confirmLapse r) := by
  unfold State.confirmLapse
  split
  · exact .of_deliverStop s r _
  · exact .refl

theorem Kept.of_superviseLapse : Kept s s.superviseLapse := by
  unfold State.superviseLapse
  exact ((Kept.of_onLink (s := s) (fun l => { l with supervision := none }) rfl).trans (.of_post _ _ _ _)).trans (.of_stopOwned _ _ _)

/-- The closing of a contactor that has waited for its deadband keeps the laws. -/
theorem Kept.of_deadbandExpiry {dir : RodeDir} (hw : s.windlass.waitingDir = some dir) :
    Kept s ((if s.deadband dir = 0 then s else s.atMoment (s.windlass.freeAt dir)).closeContactor dir) := by
  unfold Windlass.waitingDir at hw
  split at hw
  · rename_i hc
    have hk : Kept s (if s.deadband dir = 0 then s else s.atMoment (s.windlass.freeAt dir))
        ∧ (if s.deadband dir = 0 then s else s.atMoment (s.windlass.freeAt dir)).windlass = s.windlass := by
      split
      · exact ⟨.refl, rfl⟩
      · exact ⟨.of_atMoment s _, by simp⟩
    exact hk.1.trans (.of_closeContactor _ dir (by rw [hk.2]; exact hc.1) (by rw [hk.2]; simpa using hc.2))
  · cases hw

/-! ## What every command leaves and keeps -/

/-- What a command leaves of the frame and keeps of the laws, with the mode as chapter 11 gives it. -/
structure Stepped (i : Instr) (s t : State) : Prop where
  pending : t.pending = s.pending
  fixed : (∀ c a b, i ≠ .hardReset c a b) → (∀ a b, i ≠ .restartReset a b) →
    t.resetCause = s.resetCause ∧ t.link.rate = s.link.rate ∧ t.bootValid = s.bootValid
  mode : ModeBy i s t
  classLaw : s.ClassLaw → t.ClassLaw
  deckLaw : s.DeckLaw → t.DeckLaw
  windlassLaw : s.WindlassLaw → t.WindlassLaw
  ordered : s.Ordered → t.Ordered

variable {s} {t : State} {i : Instr}

theorem State.DeckLaw.same (h : s.DeckLaw) (e : t.deckView = s.deckView) : t.DeckLaw := .of_view e h

theorem State.WindlassLaw.same (h : s.WindlassLaw) (e : t.windlassView' = s.windlassView') : t.WindlassLaw := .of_view e h

theorem Passed.stepped (h : Passed i s t) : Stepped i s t := by
  have hf := h.calm.fixed
  simp only [State.fixed, Link.port, Prod.mk.injEq, Link.mk.injEq] at hf
  obtain ⟨h1, h2, h3, h4, -⟩ := hf
  exact ⟨h1, fun _ _ => ⟨h2, h4, h3⟩, h.mode, h.calm.classLaw, h.deckLaw, h.windlassLaw, h.calm.ordered⟩

theorem Kept.stepped (h : Kept s t) : Stepped i s t := (h.passed i).stepped

/-- A change of the link port that leaves its rate. -/
theorem Stepped.onLink (h : Stepped i s t) (f : Link → Link) (hf : (f t.link).rate = t.link.rate) : Stepped i s (t.onLink f) :=
  ⟨h.pending, fun a b => ⟨(h.fixed a b).1, hf.trans (h.fixed a b).2.1, (h.fixed a b).2.2⟩, h.mode, h.classLaw,
    fun g => (h.deckLaw g).same rfl, fun g => (h.windlassLaw g).same rfl, h.ordered⟩

theorem Link.proceed_rate (l : Link) : l.proceed.rate = l.rate := by
  obtain ⟨q, h, f, r, x, e, -⟩ := l.proceed_frame; rw [e]

theorem Link.answer_rate (l : Link) (k t : Byte) (st : Status) (d : ReplyData) : (l.answer k t st d).rate = l.rate := by
  obtain ⟨q, h, f, r, x, e, -⟩ := l.answer_frame k t st d; rw [e]

theorem Link.takeFrame_rate (l : Link) (k t : Byte) (p : List Byte) : (l.takeFrame k t p).rate = l.rate := by
  obtain ⟨q, h, f, r, x, e⟩ := l.takeFrame_frame k t p; rw [e]

theorem Link.receive_rate (now : Uptime) (l : Link) (b : Byte) : (l.receive now b).rate = l.rate := by
  unfold Link.receive
  dsimp only
  split
  · rfl
  · rfl
  · rw [Link.takeFrame_rate]; unfold Link.supervise; split <;> rfl

theorem Link.sent_rate (l : Link) : l.sent.rate = l.rate := by
  unfold Link.sent
  split
  · rfl
  · dsimp only
    split
    · rfl
    · rw [Link.proceed_rate]

theorem Stepped.of_reset (c : ResetCause) (a b : Bool) (h : (∃ c a b, i = .hardReset c a b) ∨ ∃ a b, i = .restartReset a b) :
    Stepped i s (s.resetTo c a b) := by
  obtain ⟨h1, h2, h3, h4, h5, h6⟩ := s.resetTo_laws c a b
  refine ⟨h6, fun n1 n2 => ?_, .inr (.inr (.inr (.inr ⟨h5, h⟩))), fun _ => h1, fun _ => h2, fun _ => h3, h4⟩
  rcases h with ⟨c, a, b, e⟩ | ⟨a, b, e⟩
  · exact absurd e (n1 c a b)
  · exact absurd e (n2 a b)

theorem Kept.deckEvent (h : Kept s t) (i : Instr) : ∃ u, s.deckEvent t = .next u ∧ Stepped i s u :=
  ⟨_, rfl, (h.deckPass i s).stepped⟩

variable (s)

theorem autoStart_stepped : ∃ t, exec .autoStart s = .next t ∧ Stepped .autoStart s t := by
  refine ⟨_, rfl, ?_⟩
  split
  · exact Kept.refl.stepped
  · rename_i e _
    have hk : Kept s { s.atMoment e with bootTimer := none } :=
      (Kept.of_atMoment s e).trans (.of_views (t := { s.atMoment e with bootTimer := none }) rfl rfl rfl rfl rfl)
    have hs : State.startCheck { s.atMoment e with bootTimer := none } = s.startCheck := by
      unfold State.atMoment; split <;> rfl
    dsimp only
    split
    · rename_i hc
      split
      · exact (hk.trans (.of_post _ _ _ _)).stepped
      · rename_i hn
        obtain ⟨h1, h2, h3, h4⟩ := State.enterRun_kept { s.atMoment e with bootTimer := none } .autoStart hc.2.2
        have hl := (Aside.of_lampPass (State.enterRun { s.atMoment e with bootTimer := none } .autoStart)
          { s.atMoment e with bootTimer := none }).kept
        refine Passed.stepped ⟨(hk.calm.trans h1).trans hl.calm, .inr (.inl ⟨hk.mode.symm.trans hc.2.2, hl.mode.trans h2, ?_, .inl rfl⟩),
          hl.deckLaw ∘ h3 ∘ hk.deckLaw, hl.windlassLaw ∘ h4 ∘ hk.windlassLaw⟩
        rw [← hs]; exact hn
    · exact hk.stepped

theorem saveComplete_stepped (b : Bool) : ∃ t, exec (.saveComplete b) s = .next t ∧ Stepped (.saveComplete b) s t := by
  refine ⟨_, rfl, Kept.stepped ?_⟩
  split
  · exact .refl
  · rename_i m hm
    have ho : s.Ordered → m.Ordered := fun h => by obtain ⟨-, -, -, -, -, -, h7⟩ := h; exact h7 m hm
    split
    · exact .after (.of_post _ _ _ _) (.of_store s ⟨.valid, some m, m.crc, none⟩ s.autoStart fun h => ⟨fun x hx => by cases hx; exact ho h, nofun⟩)
    · exact .after (.of_post _ _ _ _)
        (.of_store s { s.store with state := .invalid, image := none, saving := none } s.autoStart fun _ => ⟨nofun, nofun⟩)

theorem openTransaction_stepped (a b : Bool) : ∃ t, exec (.openTransaction a b) s = .next t ∧ Stepped (.openTransaction a b) s t := by
  refine ⟨_, rfl, Kept.stepped ?_⟩
  split
  · exact .refl
  · split
    · exact .of_onBus s _
    · split
      · exact .refl
      · split
        · exact .refl
        · exact .of_onBus s _

theorem recoveryRun_stepped (a b : Bool) : ∃ t, exec (.recoveryRun a b) s = .next t ∧ Stepped (.recoveryRun a b) s t := by
  refine ⟨_, rfl, Kept.stepped ?_⟩
  split
  · exact .refl
  · dsimp only
    split
    · exact ((Kept.of_atMoment s _).trans (.of_onBus _ _)).trans (.of_post _ _ _ _)
    · exact (Kept.of_atMoment s _).trans (.of_onBus _ _)

/-- The commands that are no requests complete, and keep the laws. -/
theorem event_stepped (i : Instr) (h : requestKey i = none) : ∃ t, exec i s = .next t ∧ Stepped i s t := by
  cases i <;> simp only [requestKey, reduceCtorEq] at h <;> clear h
  case hardReset c a b => exact ⟨_, rfl, .of_reset _ a b (.inl ⟨c, a, b, rfl⟩)⟩
  case restartReset a b => exact ⟨_, rfl, .of_reset _ a b (.inr ⟨a, b, rfl⟩)⟩
  case autoStart => exact autoStart_stepped s
  case requestFrame bytes =>
    refine ⟨_, rfl, Kept.refl.stepped.onLink _ ?_⟩
    have key : ∀ (bs : List Byte) (l : Link), (bs.foldl (Link.receive s.uptime) l).rate = l.rate := by
      intro bs
      induction bs with
      | nil => exact fun _ => rfl
      | cons b bs ih => exact fun l => (ih _).trans (l.receive_rate _ _)
    exact key bytes s.link
  case gapTimeout => exact ⟨_, rfl, Kept.refl.stepped.onLink _ (by split <;> rfl)⟩
  case framingError => exact ⟨_, rfl, Kept.refl.stepped.onLink _ rfl⟩
  case replySent => exact ⟨_, rfl, Kept.refl.stepped.onLink _ (Link.sent_rate _)⟩
  case supervisionExpiry => exact ⟨_, rfl, (Passed.of_expire s _ _ _ fun e _ => .of_superviseLapse _).stepped⟩
  case saveComplete => exact saveComplete_stepped s _
  case openTransaction => exact openTransaction_stepped s _ _
  case transactionEnd => exact (Kept.of_transactionEnd s _).deckEvent _
  case byteTimeout => exact (Kept.of_byteTimeout s).deckEvent _
  case transactionTimeout => exact (Kept.of_transactionTimeout s).deckEvent _
  case arbitrationLost =>
    refine ⟨_, rfl, Kept.stepped ?_⟩
    split
    · exact .refl
    · exact .of_onBus s _
  case otherOpen =>
    refine ⟨_, rfl, Kept.stepped ?_⟩
    split
    · exact .of_onBus s _
    · exact .refl
  case otherClose =>
    refine ⟨_, rfl, Kept.stepped ?_⟩
    split
    · exact .of_onBus s _
    · exact .refl
  case keyReport => exact (Kept.of_keyReport s _).deckEvent _
  case overrunTimeout => exact (Kept.of_overrun s).deckEvent _
  case stuckLineTimeout => exact (Kept.of_stuckLine s _ _).deckEvent _
  case recoveryRun => exact recoveryRun_stepped s _ _
  case nodeRetryExpiry a =>
    refine ⟨_, rfl, Kept.stepped ?_⟩
    split
    · exact .refl
    · exact .after (Aside.of_askIdentify _ a).kept (.after (.of_onNode _ a _ fun _ => rfl) (.of_atMoment s _))
  case pollExpiry a =>
    refine ⟨_, rfl, Kept.stepped ?_⟩
    split
    · exact .refl
    · exact .after (.of_askTx _ _ _) (.after (.of_onNode _ a _ fun _ => rfl) (.of_atMoment s _))
  case enrolRetryExpiry =>
    refine ⟨_, rfl, Kept.stepped ?_⟩
    split
    · exact .refl
    · exact .after (.of_enrolAsk _) (.after (.of_onEnrolment _ _) (.of_atMoment s _))
  case enrolDeferredUpdate =>
    refine ⟨_, rfl, Kept.stepped ?_⟩
    split
    · exact .refl
    · split
      · exact .of_enrolCommit s _
      · exact .refl
  case refreshTick =>
    refine ⟨_, rfl, Kept.stepped ?_⟩
    split
    · exact .refl
    · rename_i e _
      have hr : Kept (s.atMoment e) { s.atMoment e with refresh := some (later e 20) } := .of_views rfl rfl rfl rfl rfl
      exact ((Kept.of_atMoment s e).trans hr).trans (.of_tick _)
  case reviewTimerExpiry =>
    refine ⟨_, rfl, Kept.stepped ?_⟩
    split
    · exact .refl
    · exact .after (.of_review _) (.after (.of_onAlloc _ _ rfl rfl rfl) (.of_atMoment s _))
  case inrushExpiry m =>
    refine ⟨_, rfl, Kept.stepped ?_⟩
    split
    · exact .refl
    · rename_i g hg
      split
      · exact .refl
      · rename_i e _
        refine .after (.of_review _) (.after (.of_setGrant _ m _ ?_) (.of_atMoment s e))
        cases m <;> simp_all [State.grant]
  case sweep raw =>
    refine Kept.deckEvent ?_ _
    exact .after (.of_sweepAll _ raw) (.after (.of_onSense _ _) (.of_atMoment s _))
  case deckSwitchEvent => exact (Kept.of_switchEvent s _ _).deckEvent _
  case hpuReadyTimeout => exact ⟨_, rfl, (Passed.of_expire s _ _ _ fun e _ => .of_hpuFault _ _).stepped⟩
  case runOnExpiry => exact ⟨_, rfl, (Passed.of_expire s _ _ _ fun e h => .of_runOnExpiry _ (by simpa using h)).stepped⟩
  case travelTimeout m => exact ⟨_, rfl, (Passed.of_expire s _ _ _ fun e h => .of_travelTimeout _ m (e := e) (by cases m <;> simpa [State.mover] using h)).stepped⟩
  case moverSettleExpiry m => exact ⟨_, rfl, (Passed.of_expire s _ _ _ fun e h => .of_settleEnd _ m (e := e) (by cases m <;> simpa [State.mover] using h)).stepped⟩
  case gypsyStep => exact (Kept.of_gypsyStep s _).deckEvent _
  case gypsyDecodeError => exact (Kept.of_decodeError s).deckEvent _
  case gypsyIndex => exact (Kept.of_gypsyIndex s).deckEvent _
  case homeSwitchEvent => exact (Kept.of_homeSwitch s _).deckEvent _
  case deadbandExpiry =>
    refine ⟨_, rfl, Kept.stepped ?_⟩
    split
    · exact .refl
    · exact .of_deadbandExpiry s ‹_›
  case brakeTimerExpiry => exact ⟨_, rfl, (Passed.of_expire s _ _ _ fun e h => .of_enterRunning _ (by simpa using h)).stepped⟩
  case stage2DelayExpiry => exact ⟨_, rfl, (Passed.of_expire s _ _ _ fun e h => .of_delayExpiry _ (by simpa using h)).stepped⟩
  case jamTimeout => exact ⟨_, rfl, (Passed.of_expire s _ _ _ fun e _ => .of_windlassStop _ _).stepped⟩
  case windlassSettleExpiry => exact ⟨_, rfl, (Passed.of_expire s _ _ _ fun e h => .of_windlassSettleEnd _ (by simpa using h)).stepped⟩
  case confirmExpiry r => exact ⟨_, rfl, (Passed.of_expire s _ _ _ fun e _ => .of_confirmLapse _ r).stepped⟩

/-- Every command completes, leaves the frame and keeps the laws. -/
theorem exec_stepped (i : Instr) (s : State) : ∃ t, exec i s = .next t ∧ Stepped i s t := by
  cases h : requestKey i with
  | none => exact event_stepped s i h
  | some k =>
    obtain ⟨r, e, hs⟩ := served i s (kind := k.1) (tag := k.2) h
    exact ⟨_, e, hs.rel.stepped.onLink _ (Link.answer_rate _ _ _ _ _)⟩

/-- Every step keeps a law of the state that every command keeps, and that neither the waiting commands nor the uptime enters. -/
theorem step_keeps {P : State → Prop} (hexec : ∀ i s t, Stepped i s t → P s → P t) (hp : ∀ s p, P s → P { s with pending := p })
    (hu : ∀ s n, P s → P { s with uptime := n }) {s t : State} (h : P s) (hs : step s = .next t) : P t := by
  unfold step at hs
  split at hs
  · rename_i i rest _
    obtain ⟨u, e, g⟩ := exec_stepped i { s with pending := rest }
    rw [e] at hs
    cases hs
    exact hexec _ _ _ g (hp s rest h)
  · unfold State.idle at hs
    split at hs
    · rename_i i _
      obtain ⟨u, e, g⟩ := exec_stepped i s
      rw [e] at hs
      cases hs
      exact hexec _ _ _ g h
    · cases hs
      exact hu s _ h

end Sys2Proof.Machine

namespace Sys2Proof.Proofs

open Sys2Proof.Machine

/-- Settles O8: every command keeps the law of the classes, by the laws of the allocator's operations. -/
theorem classLawKept : Obligations.ClassLawKept :=
  fun _ _ h hs => step_keeps (P := State.ClassLaw) (fun _ _ _ g => g.classLaw) (fun _ _ h => h) (fun _ _ h => h) h hs

/-- Settles O9: every command keeps the law of the deck, taken apart into the pump's part and each mover's fit. -/
theorem deckLawKept : Obligations.DeckLawKept :=
  fun _ _ h hs => step_keeps (P := State.DeckLaw) (fun _ _ _ g => g.deckLaw) (fun _ _ h => h.same rfl) (fun _ _ h => h.same rfl) h hs

/-- Settles O10: every command keeps the law of the windlass. -/
theorem windlassLawKept : Obligations.WindlassLawKept :=
  fun _ _ h hs => step_keeps (P := State.WindlassLaw) (fun _ _ _ g => g.windlassLaw) (fun _ _ h => h.same rfl)
    (fun _ _ h => h.same rfl) h hs

/-- Settles O11: every command keeps the order of the tables and of the stored images. -/
theorem tablesStayOrdered : Obligations.TablesStayOrdered :=
  fun _ _ h hs => step_keeps (P := State.Ordered) (fun _ _ _ g => g.ordered) (fun _ _ h => h) (fun _ _ h => h) h hs

/-- Settles O26: each command's change of mode is read off its operation. -/
theorem modeChangesOnlySo : Obligations.ModeChangesOnlySo := by
  intro i s t h
  obtain ⟨u, e, g⟩ := exec_stepped i s
  rw [e] at h
  cases h
  exact g.mode

/-- Settles O2: every command completes, and leaves the frame its operation leaves. -/
theorem everyCommandCompletes : Obligations.EveryCommandCompletes := by
  refine ⟨fun i s => ?_, fun i s t h => ?_⟩
  · obtain ⟨t, e, -⟩ := exec_stepped i s
    exact ⟨t, e⟩
  · obtain ⟨u, e, g⟩ := exec_stepped i s
    rw [e] at h
    cases h
    exact ⟨g.pending, g.fixed⟩

/-- Settles O3: every request is served by its block, which leaves the reply path alone, and answered once. -/
theorem requestsAnsweredOnce : Obligations.RequestsAnsweredOnce := by
  refine ⟨fun i s kind tag h => ?_, fun i s kind tag h => ?_⟩
  · obtain ⟨r, e, hs⟩ := served i s h
    have hp := hs.rel.calm.fixed
    simp only [State.fixed, Link.port, Prod.mk.injEq, Link.mk.injEq] at hp
    obtain ⟨-, -, -, -, h1, h2, h3, h4, h5, h6, -, -, -, -, -, -, -, h7⟩ := hp
    exact ⟨r.state, r.status, r.data, e, h1, h2, h3, h4, h5, h6, h7, hs.bare⟩
  · obtain ⟨r, e, hs⟩ := served i s h
    exact ⟨r.state, r.status, r.data, e, hs.unchanged⟩

/-- Settles O1: the step is the front command's meaning by definition, and with none waiting what the idle part does. -/
theorem stepRunsFrontCommand : Obligations.StepRunsFrontCommand := by
  refine ⟨fun i rest s h => ?_, fun s h => ⟨fun i hi => ?_, fun hn => ?_⟩⟩
  · simp [step, h]
  · simp [step, h, State.idle, hi]
  · simp [step, h, State.idle, hn]

/-- Settles O6: the laws of the reset state are those of a part at rest with empty tables. -/
theorem resetMeetsLaws : Obligations.ResetMeetsLaws := by
  obtain ⟨h1, h2, h3, h4, -⟩ := ({} : State).resetTo_laws .power false false
  have he : ({} : State).resetTo .power false false = State.reset := rfl
  rw [he] at h1 h2 h3 h4
  refine ⟨?_, ?_, ?_, h1, h2, h3, h4 ⟨.nil, .nil, .nil, .nil, .nil, nofun, nofun⟩⟩
  · exact ⟨by simp [State.reset], by simp [State.reset], by simp [State.reset], by simp [State.reset], by simp [State.reset],
      by simp [State.reset], by simp [State.reset]⟩
  · exact ⟨by simp [State.reset], by simp [State.reset]⟩
  · exact ⟨by simp [State.reset], by simp [State.reset], by simp [State.reset], by simp [State.reset]⟩

end Sys2Proof.Proofs
end

section
/-!
PROOFS. The link port (chapter 10): frames received whole, broken and cut off, the request queue and the reply path, and the payloads of
requests (O12 to O16).
-/

namespace Sys2Proof.Machine

/-! ## A frame of any payload (R171, R172) -/

/-- The bytes of a frame between its length byte and its CRC, received one after the other. -/
theorem Link.receive_body (now : Uptime) (bs : List Byte) (l : Link) (acc : List Byte) (hbs : bs ≠ [])
    (h : l.rx = ⟨.body bs.length, acc⟩) : bs.foldl (Link.receive now) l = { l with rx := ⟨.check, acc ++ bs⟩ } := by
  induction bs generalizing l acc with
  | nil => exact absurd rfl hbs
  | cons b bs ih =>
    rw [List.foldl_cons]
    cases bs with
    | nil => simp [Link.receive, Receiver.take, h]
    | cons c cs =>
      rw [ih _ (acc ++ [b]) (by simp) (by simp [Link.receive, Receiver.take, h])]
      simp [Link.receive, Receiver.take, h]

/-- The bytes of a frame up to its last, received from HUNT: all but the last have completed nothing. -/
theorem Link.receive_frame (now : Uptime) (l : Link) (kind tag lo hi : Byte) (payload : List Byte) (hl : payload.length ≤ 248)
    (h : l.rx = {}) :
    (0xA5 :: BitVec.ofNat 8 (payload.length + 2) :: kind :: tag :: payload ++ [lo, hi]).foldl (Link.receive now) l
      = Link.receive now { l with rx := ⟨.check, BitVec.ofNat 8 (payload.length + 2) :: kind :: tag :: payload ++ [lo]⟩ } hi := by
  have hlen : (BitVec.ofNat 8 (payload.length + 2) : Byte).toNat = (kind :: tag :: payload).length := by
    simp only [BitVec.toNat_ofNat, List.length_cons]; omega
  have h1 : Link.receive now l 0xA5 = { l with rx := ⟨.length, []⟩ } := by simp [Link.receive, Receiver.take, h]
  have h2 : Link.receive now { l with rx := ⟨.length, []⟩ } (BitVec.ofNat 8 (payload.length + 2))
      = { l with rx := ⟨.body (kind :: tag :: payload).length, [BitVec.ofNat 8 (payload.length + 2)]⟩ } := by
    have hr : 2 ≤ (kind :: tag :: payload).length ∧ (kind :: tag :: payload).length ≤ 250 := by simp; omega
    simp only [Link.receive, Receiver.take, hlen, if_pos hr]
  have h3 : Link.receive now { l with rx := ⟨.check, BitVec.ofNat 8 (payload.length + 2) :: kind :: tag :: payload⟩ } lo
      = { l with rx := ⟨.check, BitVec.ofNat 8 (payload.length + 2) :: kind :: tag :: payload ++ [lo]⟩ } := by
    simp only [Link.receive, Receiver.take, List.headD_cons, List.cons_append, hlen]
    rw [if_pos (by simp)]
  rw [show (0xA5 :: BitVec.ofNat 8 (payload.length + 2) :: kind :: tag :: payload ++ [lo, hi] : List Byte)
    = 0xA5 :: BitVec.ofNat 8 (payload.length + 2) :: ((kind :: tag :: payload) ++ [lo, hi]) by simp]
  rw [List.foldl_cons, List.foldl_cons, List.foldl_append, h1, h2,
    Link.receive_body now (kind :: tag :: payload) _ [BitVec.ofNat 8 (payload.length + 2)] (by simp) rfl, List.foldl_cons, List.foldl_cons,
    List.foldl_nil]
  exact congrArg (Link.receive now · hi) h3

/-- The check of a whole frame's bytes. -/
theorem checkFrame_bytes (len kind tag lo hi : Byte) (payload : List Byte) :
    checkFrame (len :: kind :: tag :: payload ++ [lo, hi])
      = if crc16 (len :: kind :: tag :: payload) = BitVec.ofNat 16 (leNat [lo, hi]) then .good kind tag payload else .crcError := by
  unfold checkFrame
  have h1 : (len :: kind :: tag :: payload ++ [lo, hi]).length - 2 = (len :: kind :: tag :: payload).length := by simp
  rw [h1, List.take_left, List.drop_left]

/-- The last byte of a frame completes it: its check decides. -/
theorem Link.receive_last (now : Uptime) (l : Link) (kind tag lo hi : Byte) (payload : List Byte) (hl : payload.length ≤ 248) :
    Link.receive now { l with rx := ⟨.check, BitVec.ofNat 8 (payload.length + 2) :: kind :: tag :: payload ++ [lo]⟩ } hi
      = if crc16 (BitVec.ofNat 8 (payload.length + 2) :: kind :: tag :: payload) = BitVec.ofNat 16 (leNat [lo, hi])
        then (Link.supervise { l with rx := {} } now).takeFrame kind tag payload
        else { l with rx := {}, crcErrors := bump16 l.crcErrors } := by
  have hlen : (BitVec.ofNat 8 (payload.length + 2) : Byte).toNat = payload.length + 2 := by
    simp only [BitVec.toNat_ofNat]; omega
  have hb : BitVec.ofNat 8 (payload.length + 2) :: kind :: tag :: payload ++ [lo] ++ [hi]
      = BitVec.ofNat 8 (payload.length + 2) :: kind :: tag :: payload ++ [lo, hi] := by simp
  have hn : ¬ (BitVec.ofNat 8 (payload.length + 2) :: kind :: tag :: payload ++ [lo, hi] : List Byte).length
      < ((BitVec.ofNat 8 (payload.length + 2) :: kind :: tag :: payload ++ [lo, hi] : List Byte).headD 0).toNat + 3 := by
    simp only [List.cons_append, List.length_cons, List.headD_cons, List.length_append, List.length_nil, hlen]
    omega
  simp only [Link.receive, Receiver.take, hb]
  rw [if_neg hn, checkFrame_bytes]
  by_cases hc : crc16 (BitVec.ofNat 8 (payload.length + 2) :: kind :: tag :: payload) = BitVec.ofNat 16 (leNat [lo, hi])
  · rw [if_pos hc, if_pos hc]
  · rw [if_neg hc, if_neg hc]

/-- Two bytes that spell a CRC's field are its two bytes. -/
theorem leBytes_two_of_ofNat {c : BitVec 16} {lo hi : Byte} (h : c = BitVec.ofNat 16 (leNat [lo, hi])) : leBytes 2 c.toNat = [lo, hi] := by
  have h1 := lo.isLt
  have h2 := hi.isLt
  have hc : c.toNat = lo.toNat + 256 * hi.toNat := by
    rw [h]
    simp only [leNat, BitVec.toNat_ofNat]
    omega
  rw [hc]
  simp only [leBytes, List.cons.injEq, and_true]
  constructor <;> apply BitVec.eq_of_toNat_eq <;> simp only [BitVec.toNat_ofNat] <;> omega

/-- A link port with its receiver in HUNT put to HUNT. -/
theorem Link.hunting {l : Link} (h : l.rx = {}) : { l with rx := {} } = l := by rw [← h]

/-! ## The request queue (R173) -/

theorem Link.proceed_sending {l : Link} (h : l.sending.isSome = true) : l.proceed = l := if_pos (.inl h)

theorem Link.proceed_restart {l : Link} (h : l.restartDue = true) : l.proceed = l := if_pos (.inr h)

/-- An idle reply path with a QUEUE_FULL reply waiting sends the oldest. -/
theorem Link.proceed_full {l : Link} {kind tag : Byte} {rest : List (Byte × Byte)} (h1 : l.sending = none) (h2 : l.restartDue = false)
    (h3 : l.fullReplies = (kind, tag) :: rest) : l.proceed = { l with sending := some ⟨kind ||| 0x80, tag, .queueFull, .none, false⟩ } := by
  simp [Link.proceed, h1, h2, h3]

/-- An idle reply path with no QUEUE_FULL reply waiting sends the oldest reply made. -/
theorem Link.proceed_reply {l : Link} {q : Reply} {rest : List Reply} (h1 : l.sending = none) (h2 : l.restartDue = false)
    (h3 : l.fullReplies = []) (h4 : l.replies = q :: rest) : l.proceed = { l with replies := rest, sending := some q } := by
  simp [Link.proceed, h1, h2, h3, h4]

/-- An idle reply path with nothing to send and no request handed over begins to serve. -/
theorem Link.proceed_serve {l : Link} (h1 : l.sending = none) (h2 : l.restartDue = false) (h3 : l.fullReplies = []) (h4 : l.replies = [])
    (h5 : l.handed = none) : l.proceed = l.beginService := by
  simp [Link.proceed, h1, h2, h3, h4, h5]

/-- What has been sent ends the sending, and the reply path goes on, but after the reply OK to RESTART. -/
theorem Link.sent_eq {l : Link} {r : Reply} (h : l.sending = some r) : l.sent =
    if r.kind = 0x85 ∧ r.status = .ok then
      { l with sending := none, requests := if r.queued then dropServed l.requests else l.requests
               fullReplies := if r.status = .queueFull then l.fullReplies.tail else l.fullReplies, restartDue := true }
    else Link.proceed { l with sending := none, requests := if r.queued then dropServed l.requests else l.requests
                               fullReplies := if r.status = .queueFull then l.fullReplies.tail else l.fullReplies } := by
  simp only [Link.sent, h]

/-- The answer to the request handed over: its frame is served, and the reply joins those made. -/
theorem Link.answer_handed {l : Link} {kind tag : Byte} {i : Instr} (h : l.handed = some i) (hk : requestKey i = some (kind, tag))
    (st : Status) (d : ReplyData) : l.answer kind tag st d =
      Link.proceed { l with handed := none, requests := markServed l.requests, replies := l.replies ++ [⟨kind ||| 0x80, tag, st, d, true⟩] } := by
  simp [Link.answer, h, hk]

/-! ## Payloads (R171, R174, R184) -/

theorem sized_eq_command {p : List Byte} {n : Nat} {i j : Instr} (h : sized p n i = .command j) : p.length = n ∧ i = j := by
  unfold sized at h
  split at h
  · rename_i hl; cases h; exact ⟨hl, rfl⟩
  · cases h

/-- A payload of a fixed length: another is BAD_LENGTH, and one of it is the command of its kind and tag. -/
theorem sized_key {p : List Byte} {n : Nat} {i : Instr} {k : Byte × Byte} (h : requestKey i = some k) :
    (p.length ≠ n → sized p n i = .badLength) ∧ (p.length = n → ∃ j, sized p n i = .command j ∧ requestKey j = some k) :=
  ⟨sized_misfit, fun hl => ⟨i, sized_fits hl, h⟩⟩

theorem leNat_lt (bs : List Byte) : leNat bs < 256 ^ bs.length := by
  induction bs with
  | nil => simp [leNat]
  | cons b bs ih =>
    have hb := b.isLt
    rw [leNat, List.length_cons, Nat.pow_succ']
    omega

theorem field_fits (p : List Byte) (k n : Nat) : fits n (field p k n) = true := by
  have h1 := leNat_lt ((p.drop k).take n)
  have h2 : 256 ^ ((p.drop k).take n).length ≤ 256 ^ n := Nat.pow_le_pow_right (by omega) (by simp)
  exact decide_eq_true (Nat.lt_of_lt_of_le h1 h2)

theorem leInt_range (bs : List Byte) (n : Nat) (hn : bs.length ≤ n) : -(256 ^ n : Int) ≤ 2 * leInt bs ∧ 2 * leInt bs < 256 ^ n := by
  have h1 := leNat_lt bs
  have h2 : 256 ^ bs.length ≤ 256 ^ n := Nat.pow_le_pow_right (by omega) hn
  unfold leInt
  generalize leNat bs = v at *
  generalize bs.length = m at *
  have h3 : ((256 ^ m : Nat) : Int) ≤ ((256 ^ n : Nat) : Int) := by exact_mod_cast h2
  have h4 : (v : Int) < ((256 ^ m : Nat) : Int) := by exact_mod_cast h1
  push_cast at h3 h4
  split
  · rename_i h
    have h5 : (2 * v : Int) < ((256 ^ m : Nat) : Int) := by exact_mod_cast h
    push_cast at h5
    omega
  · rename_i h
    have h5 : ((256 ^ m : Nat) : Int) ≤ (2 * v : Int) := by exact_mod_cast Nat.le_of_not_lt h
    push_cast at h5
    omega

theorem signedField_fits (p : List Byte) (k n : Nat) : fitsSigned n (signedField p k n) = true :=
  decide_eq_true (leInt_range _ n (by simp))

theorem hpuFigures_fit (p : List Byte) : hpuFits (hpuFigures p) = true := by simp only [hpuFits, hpuFigures, field_fits, Bool.and_self]

theorem windlassFigures_fit (p : List Byte) : windlassFits (windlassFigures p) = true := by
  simp only [windlassFits, windlassFigures, field_fits, Bool.and_self]

/-- Bytes taken one by one as numbers are fields of one byte. -/
theorem bytes_fit (bs : List Byte) : (bs.map fun b => b.toNat).all (fits 1) = true := by
  simp only [List.all_map, List.all_eq_true, Function.comp]
  exact fun b _ => decide_eq_true (by have := b.isLt; omega)

theorem leInt_two (a b : Byte) :
    leInt [a, b] = if b.toNat < 128 then ((leNat [a, b] : Nat) : Int) else (leNat [a, b] : Nat) - 65536 := by
  have ha := a.isLt
  have hb := b.isLt
  rw [leInt]
  by_cases h : b.toNat < 128
  · rw [if_pos h, if_pos (by simp only [leNat, List.length_cons, List.length_nil]; omega)]
  · rw [if_neg h, if_neg (by simp only [leNat, List.length_cons, List.length_nil]; omega)]
    norm_num

theorem leInt_four (a b c d : Byte) :
    leInt [a, b, c, d] = if d.toNat < 128 then ((leNat [a, b, c, d] : Nat) : Int) else (leNat [a, b, c, d] : Nat) - 4294967296 := by
  have ha := a.isLt
  have hb := b.isLt
  have hc := c.isLt
  have hd := d.isLt
  rw [leInt]
  by_cases h : d.toNat < 128
  · rw [if_pos h, if_pos (by simp only [leNat, List.length_cons, List.length_nil]; omega)]
  · rw [if_neg h, if_neg (by simp only [leNat, List.length_cons, List.length_nil]; omega)]
    norm_num

/-- A kind that is none of the table's is served by UNKNOWN_KIND. -/
theorem parseRequest_unknown (kind tag : Byte) (p : List Byte)
    (h : kind.toNat ∉ [0x01, 0x02, 0x03, 0x04, 0x05, 0x08, 0x09, 0x0A, 0x0B, 0x0C, 0x10, 0x11, 0x14, 0x15, 0x16, 0x17, 0x20, 0x21, 0x22,
        0x23, 0x28, 0x29, 0x2A, 0x2B, 0x2C, 0x2D, 0x2E, 0x2F, 0x30, 0x31, 0x32, 0x38, 0x39, 0x40, 0x41, 0x42, 0x43, 0x44, 0x45, 0x48,
        0x49, 0x4A, 0x4B, 0x4C, 0x50, 0x51]) : parseRequest kind tag p = .command (.unknownKind tag kind) := by
  unfold parseRequest
  split
  rotate_right
  · rfl
  all_goals
    rename_i hk
    rw [hk] at h
    exact absurd h (by decide)

theorem sized_wf {p : List Byte} {n : Nat} {i j : Instr} {k : Byte × Byte} (hw : p.length = n → i.wf = true) (hk : requestKey i = some k)
    (h : sized p n i = .command j) : j.wf = true ∧ requestKey j = some k := by
  obtain ⟨hl, rfl⟩ := sized_eq_command h
  exact ⟨hw hl, hk⟩

/-- A request handed to a block is well formed and carries the frame's kind and tag. -/
theorem parseRequest_wf {kind tag : Byte} {p : List Byte} {i : Instr} (hp : p.length ≤ 248) (h : parseRequest kind tag p = .command i) :
    i.wf = true ∧ requestKey i = some (kind, tag) := by
  have hkind : ∀ n : Nat, kind.toNat = n → kind = BitVec.ofNat 8 n := fun n e => by rw [← e, BitVec.ofNat_toNat, BitVec.setWidth_eq]
  unfold parseRequest at h
  split at h
  rotate_right
  · cases h; exact ⟨rfl, rfl⟩
  all_goals
    rename_i hk
    obtain rfl := hkind _ hk
    first
    | exact sized_wf (fun hl => by
        simp only [Instr.wf, field_fits, signedField_fits, hpuFigures_fit, windlassFigures_fit, bytes_fit, List.length_take, List.length_map,
          List.length_drop, hl, Nat.reduceSub, (by decide : min 3 11 = 3), decide_true, Bool.and_self]) rfl h
    | exact Parsed.command.inj h ▸ ⟨decide_eq_true hp, rfl⟩

end Sys2Proof.Machine

namespace Sys2Proof.Proofs

open Sys2Proof.Machine

/-- Settles O12: the bytes of the frame are followed through the receiver's phases to the check, which passes. -/
theorem goodFrameReceived : Obligations.GoodFrameReceived := by
  intro s kind tag payload hl hrx
  unfold exec execRequestFrame
  have hf : frameBytes kind tag payload = 0xA5 :: BitVec.ofNat 8 (payload.length + 2) :: kind :: tag :: payload
      ++ [BitVec.ofNat 8 (crc16 (BitVec.ofNat 8 (payload.length + 2) :: kind :: tag :: payload)).toNat,
        BitVec.ofNat 8 ((crc16 (BitVec.ofNat 8 (payload.length + 2) :: kind :: tag :: payload)).toNat / 256)] := rfl
  have hc : BitVec.ofNat 16 (leNat [BitVec.ofNat 8 (crc16 (BitVec.ofNat 8 (payload.length + 2) :: kind :: tag :: payload)).toNat,
      BitVec.ofNat 8 ((crc16 (BitVec.ofNat 8 (payload.length + 2) :: kind :: tag :: payload)).toNat / 256)]) = _ :=
    ofNat_leNat_leBytes_two _
  simp only [State.onLink, hf]
  rw [Link.receive_frame s.uptime s.link kind tag _ _ payload hl hrx, Link.receive_last s.uptime s.link kind tag _ _ payload hl,
    if_pos hc.symm, Link.hunting hrx]

/-- Settles O13: a wrong check, length byte or first byte, a gap and a framing error, each by the receiver's phase. -/
theorem brokenFramesCounted : Obligations.BrokenFramesCounted := by
  refine ⟨fun s hrx => ⟨fun kind tag lo hi payload hl hc => ?_, fun len hlen => ?_, fun b hb => ?_⟩, fun s => ⟨fun h => ?_, fun h => ?_, rfl⟩⟩
  · unfold exec execRequestFrame
    simp only [State.onLink]
    rw [Link.receive_frame s.uptime s.link kind tag lo hi payload hl hrx, Link.receive_last s.uptime s.link kind tag lo hi payload hl,
      if_neg (fun e => hc (leBytes_two_of_ofNat e)), ← hrx]
    rfl
  · have hr : ¬ (2 ≤ len.toNat ∧ len.toNat ≤ 250) := by omega
    simp [exec, execRequestFrame, Link.receive, Receiver.take, hrx, hr, State.onLink, bump16]
  · have ht : s.link.rx.take b = (s.link.rx, .nothing) := by rw [hrx]; exact if_neg hb
    simp only [exec, execRequestFrame, State.onLink, List.foldl_cons, List.foldl_nil, Link.receive, ht]
  · simp only [exec, execGapTimeout, State.onLink, if_neg h]; rfl
  · simp only [exec, execGapTimeout, State.onLink, if_pos h]

/-- Settles O14: by where the frame finds room, and what the reply path then does. -/
theorem goodFrameQueued : Obligations.GoodFrameQueued := by
  intro l kind tag p
  unfold Link.takeFrame
  refine ⟨fun hs hr => ?_, fun hs hr hf => ?_, fun hr hf => ?_, fun hs hd hh hf hr hq => ⟨fun i hi => ?_, fun hi => ?_⟩⟩
  · rw [if_pos hr]; exact Link.proceed_sending hs
  · rw [if_neg (by omega), if_pos hf]; exact Link.proceed_sending hs
  · rw [if_neg (by omega), if_neg (by omega)]
  all_goals
    rw [if_pos (by simp [hq])]
    refine (Link.proceed_serve (l := { l with requests := l.requests ++ [⟨kind, tag, p, false⟩] }) hs hd hf hr hh).trans ?_
    simp [Link.beginService, hq, hi, markServed]

/-- Settles O15: what has been sent leaves its place, and the reply path goes on by what waits. -/
theorem replyPathOrder : Obligations.ReplyPathOrder := by
  refine ⟨fun s => ⟨fun h => ?_, fun r h hk ho => ?_, fun r waiting h hd hn hw1 hw2 => ?_⟩, fun s kind tag st d i hh hk => ⟨fun h1 h2 h3 h4 => ?_, fun h1 => ?_⟩⟩
  · simp [exec, execReplySent, State.onLink, Link.sent, h]
  · simp only [exec, execReplySent, State.onLink]
    rw [Link.sent_eq h, if_pos ⟨hk, ho⟩, if_neg (c := r.status = .queueFull) (by simp [ho])]
  · have hw : (if r.status = .queueFull then s.link.fullReplies.tail else s.link.fullReplies) = waiting := by
      split
      · rw [hw1 ‹_›, List.drop_one]
      · rw [hw2 ‹_›]
    have hs : exec .replySent s = .next (s.onLink fun l => Link.proceed
        { l with sending := none, requests := if r.queued then dropServed l.requests else l.requests, fullReplies := waiting }) := by
      simp only [exec, execReplySent, State.onLink]
      rw [Link.sent_eq h, if_neg (fun e => hn.elim (· e.2) (· e.1)), hw]
    rw [hs]
    refine ⟨fun kind tag rest e => ?_, fun q rest e hq => ?_, fun f rest i e hq hh hreq hserved hi => ?_⟩
    · exact congrArg (fun l => Host.Outcome.next (s.onLink fun _ => l)) (Link.proceed_full (l := { s.link with sending := none, requests := if r.queued then dropServed s.link.requests else s.link.requests, fullReplies := waiting }) rfl hd e)
    · subst e
      exact congrArg (fun l => Host.Outcome.next (s.onLink fun _ => l)) (Link.proceed_reply (l := { s.link with sending := none, requests := if r.queued then dropServed s.link.requests else s.link.requests, fullReplies := [] }) rfl hd rfl hq)
    · subst e
      simp only [State.onLink, hreq]
      rw [Link.proceed_serve (l := { s.link with sending := none, requests := f :: rest, fullReplies := [] }) rfl hd rfl hq hh]
      simp [Link.beginService, hserved, hi]
  · simp only [State.replied, State.onLink]
    rw [Link.answer_handed hh hk, Link.proceed_reply (l := { s.link with
      handed := none, requests := markServed s.link.requests, replies := s.link.replies ++ [⟨kind ||| 0x80, tag, st, d, true⟩] })
      (q := ⟨kind ||| 0x80, tag, st, d, true⟩) (rest := []) h1 h2 h3 (by simp [h4]), ← h4]
  · simp only [State.replied, State.onLink]
    rw [Link.answer_handed hh hk, Link.proceed_sending (l := { s.link with
      handed := none, requests := markServed s.link.requests, replies := s.link.replies ++ [⟨kind ||| 0x80, tag, st, d, true⟩] }) h1]

/-- Settles O16: the table of kinds entry by entry, and each operand as the number its bytes spell. -/
theorem requestsParsed : Obligations.RequestsParsed := by
  refine ⟨⟨fun kind tag p h => parseRequest_unknown kind tag p h, fun _ _ _ => rfl, ?_⟩, fun tag u16 u32 i16 i32 h16 h32 hi16 hi32 => ?_,
    fun _ _ _ _ hp h => parseRequest_wf hp h⟩
  · simp only [List.forall_mem_cons, List.not_mem_nil, false_imp_iff, implies_true, and_true]
    refine ⟨?_, ?_, ?_, ?_, ?_, ?_, ?_, ?_, ?_, ?_, ?_, ?_, ?_, ?_, ?_, ?_, ?_, ?_, ?_, ?_, ?_, ?_, ?_, ?_, ?_, ?_, ?_, ?_, ?_, ?_, ?_, ?_,
      ?_, ?_, ?_, ?_, ?_, ?_, ?_, ?_, ?_, ?_, ?_, ?_⟩
    all_goals exact fun tag p => sized_key rfl
  · have e16 : ∀ a b, u16 a b = leNat [a, b] := fun a b => by rw [h16]; simp [leNat]
    have e32 : ∀ a b c d, u32 a b c d = leNat [a, b, c, d] := fun a b c d => by rw [h32]; simp only [leNat]; omega
    have ei16 : ∀ a b, i16 a b = leInt [a, b] := fun a b => by rw [hi16, leInt_two, e16]
    have ei32 : ∀ a b c d, i32 a b c d = leInt [a, b, c, d] := fun a b c d => by rw [hi32, leInt_four, e32]
    simp only [e16, e32, ei16, ei32]
    refine ⟨⟨rfl, rfl, rfl, rfl, rfl, rfl, rfl, rfl, rfl, rfl⟩, fun _ => ⟨rfl, rfl, rfl, rfl, rfl, rfl, rfl, rfl, rfl, rfl, rfl, rfl, rfl⟩,
      fun _ _ => ⟨rfl, rfl, rfl, rfl, rfl, rfl⟩, fun _ _ _ => rfl, fun _ _ _ _ => ⟨rfl, rfl, rfl, rfl⟩, fun _ _ _ _ _ _ => rfl,
      fun _ _ _ _ _ _ _ => ⟨rfl, rfl⟩, fun _ _ _ _ _ _ _ _ _ => rfl, fun _ _ _ _ _ _ _ _ _ _ _ => ⟨rfl, rfl, rfl⟩,
      fun _ _ _ _ _ _ _ _ _ _ _ _ _ => rfl, fun _ => rfl, fun _ => rfl, fun _ => ⟨rfl, rfl⟩⟩

end Sys2Proof.Proofs
end

section
/-!
PROOFS. Resets, the settings store and the refusals by mode and save (chapter 11): O4, O5, O22, O27 and O28.
-/

namespace Sys2Proof.Machine

/-! ## Resets (R190, R193) -/

/-- The reset of a part that finds no valid image. -/
theorem State.resetTo_invalid (s : State) (cause : ResetCause) (a b : Bool) (h : s.store.atReset.checked = none) :
    s.resetTo cause a b = { State.reset with
      pending := s.pending, resetCause := cause, link := { State.reset.link with rate := strapRate a b }, store := s.store.atReset } := by
  simp only [State.resetTo, h]
  rfl

/-- No valid image: a save was running, or the stored CRC is not the image's. -/
theorem Store.checked_none {st : Store} (h : st.state = .saving ∨ ∀ m, st.image = some m → crc32 (Config.imageBytes m) ≠ st.crc) :
    st.atReset.checked = none := by
  refine Option.filter_eq_none_iff.mpr fun m hm => ?_
  have he : (if st.state = .saving then none else st.image) = some m := hm
  split at he
  · cases he
  · exact fun e => h.elim ‹_› fun h => h m he (of_decide_eq_true e)

/-- The reset state's configuration is an image's default one. -/
theorem State.reset_configuration : State.reset.configuration = {} := by
  have h : State.reset.sense.inputs.map (·.settings) = .replicate 8 {} := Vector.map_replicate
  unfold State.configuration
  rw [h]
  rfl

/-- The reset of a part that finds its image valid. -/
theorem State.resetTo_valid (s : State) (cause : ResetCause) (a b : Bool) {m : Image} (h : s.store.atReset.checked = some m) :
    s.resetTo cause a b = (((State.loadImage
      { pending := s.pending, resetCause := cause, link := { rate := strapRate a b }, store := { s.store.atReset with state := .valid }
        bootValid := true } m).reposition .hatch).reposition .platform).queueRelease := by
  simp only [State.resetTo, h]
  rfl

/-! ## What the mode and a save refuse (R183) -/

/-- An edit of CONFIG is served behind the tests of the mode and the save. -/
theorem exec_configEdits {i : Instr} {kind tag : Byte} (hk : requestKey i = some (kind, tag)) (h : configEdits i = true) (s : State) :
    ∃ k, exec i s = answered kind tag (s.configEdit k) ∨ exec i s = answered kind tag (s.replaceConfig k) := by
  cases i
  case loadSettings | defaults => cases hk; exact ⟨_, .inr rfl⟩
  case setRoomline | declareNode | removeNode | defineChannel | removeChannel | setAllocation | setSense | setHpu | setMover | setWindlass
    | setStationMap => cases hk; exact ⟨_, .inl rfl⟩
  all_goals cases h

/-- A request accepted in RUN only is refused in every other mode. -/
theorem exec_runOnly {i : Instr} {kind tag : Byte} (hk : requestKey i = some (kind, tag)) (h : runOnly i = true) {s : State}
    (hm : s.mode ≠ .run) : exec i s = answered kind tag (s.refuse .wrongMode) := by
  cases i
  case stop | setLevel | takeScene | move => cases hk; exact congrArg (answered _ _) (if_pos hm)
  case payOutTo | heaveTo => cases hk; exact congrArg (fun r => answered _ _ (Served.deck r s)) (if_pos hm)
  case heaveHome => cases hk; exact congrArg (fun r => answered _ _ (Served.deck r s)) (if_pos hm)
  all_goals cases h

/-- A request that a save holds off is refused with BUSY before anything else of it is looked at. -/
theorem exec_saveWaits {i : Instr} {kind tag : Byte} (hk : requestKey i = some (kind, tag)) (h : saveWaits i = true) {s : State}
    (hs : s.saving = true) : exec i s = answered kind tag (s.refuse .busy) := by
  cases i
  case defineScene | scenePart | removeScene | setBinding | clearBinding | restart => cases hk; exact congrArg (answered _ _) (if_pos hs)
  all_goals cases h

/-- An edit of CONFIG in CONFIG, with no save running, is served. -/
theorem State.configEdit_served {s : State} (hm : s.mode = .config) (hs : s.store.state ≠ .saving) (k : Served) : s.configEdit k = k :=
  (if_neg (not_not.mpr hm)).trans (if_neg (by simpa [State.saving] using hs))

theorem State.nodeMisfits_iff {s : State} {node : Nat} {ty : NodeType} :
    ((s.node node).any fun r => decide (r.type ≠ ty)) = true ↔ ¬ ∀ r, s.node node = some r → r.type = ty := by
  cases s.node node <;> simp

theorem State.outputTaken_iff {s : State} {num node index : Nat} :
    (s.channels.any fun c => decide (c.cfg.num ≠ num ∧ c.cfg.node = node ∧ c.cfg.index = index)) = true
      ↔ ∃ c ∈ s.channels, c.cfg.num ≠ num ∧ c.cfg.node = node ∧ c.cfg.index = index := by simp

/-- DEFINE_CHANNEL in CONFIG of one of the three kinds. -/
theorem exec_defineChannel {s : State} {code : Nat} {k : ChannelKind} (hm : s.mode = .config) (hs : s.store.state ≠ .saving)
    (hk : channelKind? code = some k) (tag : Byte) (num node index rated cls floor preset : Nat) :
    exec (.defineChannel tag num node index code rated cls floor preset) s = answered 0x20 tag (
      if num < 1 ∨ 96 < num ∨ node < 1 ∨ 119 < node ∨ index < 1 ∨ k.outputs < index ∨ 3000 < rated ∨ 7 < cls then s.refuse .badValue
      else if (s.node node).any (fun r => decide (r.type ≠ k.nodeType)) then s.refuse .badValue
      else if s.channels.any (fun c => decide (c.cfg.num ≠ num ∧ c.cfg.node = node ∧ c.cfg.index = index)) then s.refuse .inUse
      else ⟨{ s with channels :=
                tablePut (·.cfg.num) (redefine (s.channel num) (channelConfig num node index k rated cls floor preset)) s.channels }, .ok,
            .channelStored (channelConfig num node index k rated cls floor preset).floor
              (channelConfig num node index k rated cls floor preset).preset⟩) := by
  show answered _ _ (s.configEdit _) = _
  rw [State.configEdit_served hm hs, hk]

/-! ## The configuration replaced (R192) -/

theorem vector_map_ofFn_settings (v : Vector SenseInput 8) (u : Vector SenseSettings 8) :
    (Vector.ofFn fun i : Fin 8 => v[i].withSettings u[i]).map (·.settings) = u := by
  ext i hi
  simp [SenseInput.withSettings]

/-- The configuration after a load is the image's. -/
theorem State.loadImage_configuration (s : State) (m : Image) : (s.loadImage m).configuration = m := by
  have hn : (s.loadImage m).nodes.map (fun r => (r.addr, r.type, r.serial)) = m.nodes := by
    simp [State.loadImage, Function.comp_def]
  have hc : (s.loadImage m).channels.map (·.cfg) = m.channels := by simp [State.loadImage, Function.comp_def]
  have hb : (s.loadImage m).bindings.map (fun b => (b.slot, b.trigger, b.action)) = m.bindings := by
    simp [State.loadImage, Function.comp_def]
  have ht : (s.loadImage m).stations.map (fun t => (t.addr, t.map)) = m.maps := by simp [State.loadImage, Function.comp_def]
  have hi : (s.loadImage m).sense.inputs.map (·.settings) = m.sense := vector_map_ofFn_settings _ _
  have hw : (s.loadImage m).windlass.settings = m.windlass := by
    simp only [State.loadImage, Windlass.withSettings]; split <;> rfl
  unfold State.configuration
  rw [hn, hc, hb, ht, hi, hw]
  rfl

theorem State.reposition_configuration (s : State) (m : MoverId) : (s.reposition m).configuration = s.configuration := by cases m <;> rfl

theorem State.queueRelease_configuration (s : State) : s.queueRelease.configuration = s.configuration := by
  unfold State.queueRelease; split <;> rfl

/-- New figures leave the windlass's working state, and the rode as the figures of its count stand or change (R140). -/
theorem Windlass.withSettings_cases (w : Windlass) (g : WindlassSettings) {f : WindlassSettings} (hf : f = (w.withSettings g).settings) :
    (f.countsPerRev = w.settings.countsPerRev → f.mmPerRev = w.settings.mmPerRev → w.withSettings g = { w with settings := f })
      ∧ (f.countsPerRev ≠ w.settings.countsPerRev ∨ f.mmPerRev ≠ w.settings.mmPerRev →
        w.withSettings g = { w with settings := f, rodeValid := false, rodeUncertain := false, fifo := [] }) := by
  have hs : (w.withSettings g).settings = g := by unfold Windlass.withSettings; split <;> rfl
  rw [hs] at hf
  subst hf
  exact ⟨fun h1 h2 => if_pos ⟨h1, h2⟩, fun h => if_neg fun e => h.elim (· e.1) (· e.2)⟩

end Sys2Proof.Machine

namespace Sys2Proof.Proofs

open Sys2Proof.Machine

/-- Settles O4: the image check finds none, so the tables stay at their defaults; RESTART tests the save alone. -/
theorem resetWithoutImage : Obligations.ResetWithoutImage := by
  refine ⟨fun s lr1 lr0 held h hheld => ?_, fun s tag => ⟨fun h => ?_, fun h => ?_, fun l h => Link.proceed_restart h⟩⟩
  · subst hheld
    have key := fun cause => s.resetTo_invalid cause lr1 lr0 (Store.checked_none h)
    exact ⟨fun c => by cases c <;> exact congrArg _ (key _), congrArg _ (key _)⟩
  · simp [exec, execRestart, State.saving, h, State.refuse, answered_eq]
  · simp [exec, execRestart, State.saving, h, State.accept, answered_eq]

/-- Settles O22: each kind of the table is served behind the test that refuses it. -/
theorem modesAndSavesRefuse : Obligations.ModesAndSavesRefuse := by
  refine ⟨fun i s kind tag hk => ⟨fun h hm => ?_, fun h hm => exec_runOnly hk h hm⟩, fun i s kind tag hk hs => ?_⟩
  · obtain h | rfl := h
    · obtain ⟨k, e | e⟩ := exec_configEdits hk h s
      · rw [e, State.configEdit, if_pos hm]; rfl
      · rw [e, State.replaceConfig, if_pos hm]; rfl
    · cases hk; exact congrArg (answered _ _) (if_pos hm)
  · have hsave : s.saving = true := decide_eq_true hs
    refine ⟨fun h hm => ?_, fun h => exec_saveWaits hk h hsave, fun h => ?_⟩
    · obtain ⟨k, e | e⟩ := exec_configEdits hk h s
      · rw [e, State.configEdit, if_neg (not_not.mpr hm), if_pos hsave]; rfl
      · rw [e, State.replaceConfig, if_neg (not_not.mpr hm), if_pos (.inl hsave)]; rfl
    · obtain rfl | rfl := h
      all_goals
        cases hk
        exact congrArg (answered _ _) ((if_neg (by decide)).trans (if_pos hsave))

/-- Settles O27: the flag is tested first, then the save; a completion acts on the content taken. -/
theorem saveTakesConfiguration : Obligations.SaveTakesConfiguration := by
  intro s tag
  refine ⟨fun flag hf hs => ?_, fun flag hf => ?_, fun m hm => ⟨?_, ?_⟩, fun h b => ?_⟩
  · exact congrArg (answered _ _) ((if_neg (by omega)).trans (if_neg (by simpa [State.saving] using hs)))
  · exact congrArg (answered _ _) (if_pos hf)
  all_goals simp only [exec, execSaveComplete, *]
  · rfl
  · rfl

/-- Settles O5: with the image found valid, the state is the reset state with its configuration loaded. -/
theorem resetLoadsValidImage : Obligations.ResetLoadsValidImage := by
  intro s m i cause lr1 lr0 hm hc hs hi
  have hck : s.store.atReset.checked = some m := by
    simp [Store.atReset, Store.checked, hs, hm, Image.crc, hc]
  have he : exec i s = .next (s.resetTo cause lr1 lr0) := by obtain ⟨rfl, rfl⟩ | ⟨rfl, rfl⟩ | ⟨rfl, rfl⟩ := hi <;> rfl
  have hw : ∀ v : State, v.windlass = {} → ∀ f, (v.windlass.withSettings f).contactorClosed = false
      ∧ (v.windlass.withSettings f).brakeRelease = false ∧ (v.windlass.withSettings f).stage2 = false
      ∧ (v.windlass.withSettings f).rodeValid = false := fun v hv f => by
    rw [hv, Windlass.withSettings]; split <;> exact ⟨rfl, rfl, rfl, rfl⟩
  refine ⟨_, he, ?_⟩
  rw [s.resetTo_valid cause lr1 lr0 hck]
  refine ⟨rfl, ?_, rfl, rfl, rfl, ?_, rfl, rfl, fun x hx => ?_, fun r hr => ?_, rfl, rfl, rfl, rfl, rfl, fun v => ?_, (hw {} rfl _).1,
    (hw {} rfl _).2.1, (hw {} rfl _).2.2.1, (hw {} rfl _).2.2.2, rfl⟩
  · rw [State.queueRelease_configuration, State.reposition_configuration, State.reposition_configuration, State.loadImage_configuration]
  · show ({ s.store.atReset with state := .valid } : Store) = _
    simp [Store.atReset, hs, hm]
  · obtain ⟨c, -, rfl⟩ := List.mem_map.mp hx
    exact ⟨rfl, rfl, rfl, rfl, rfl⟩
  · obtain ⟨c, -, rfl⟩ := List.mem_map.mp hr
    exact ⟨rfl, rfl, rfl⟩
  · cases v <;> exact ⟨rfl, rfl⟩

/-- Settles O28: both replace the tables and settings by an image's, which is then the working configuration. -/
theorem loadReplacesConfiguration : Obligations.LoadReplacesConfiguration := by
  rintro d rfl
  refine ⟨fun s i c lr1 lr0 hi h => ?_, fun s tag m hmode hs => ⟨fun he => ?_, fun he hv => ?_, fun he => ?_⟩⟩
  · have key := fun cause => s.resetTo_invalid cause lr1 lr0 (Store.checked_none h)
    have hd : ∀ (c : ResetCause) (l : Link) (st : Store), State.configuration { State.reset with
        pending := s.pending, resetCause := c, link := l, store := st } = {} := fun _ _ _ => State.reset_configuration
    obtain rfl | rfl := hi
    · exact ⟨_, rfl, by cases c <;> rw [key] <;> exact hd _ _ _⟩
    · exact ⟨_, rfl, by rw [key]; exact hd _ _ _⟩
  · have hgate : ¬ (s.saving = true ∨ s.enrolment.isSome = true) := by simp [State.saving, hs, he]
    have hserve : ∀ k, s.replaceConfig k = k := fun k => (if_neg (not_not.mpr hmode)).trans (if_neg hgate)
    refine ⟨s.loadImage m, s.loadImage {}, fun hv hm => ?_, ?_, s.loadImage_configuration m, s.loadImage_configuration {}, ?_⟩
    · show answered _ _ (s.replaceConfig _) = _
      rw [hserve, hm, Option.filter_some, hv]
      rfl
    · exact congrArg (answered _ _) (hserve _)
    · rintro x (rfl | rfl)
      all_goals
        refine ⟨rfl, rfl, rfl, rfl, rfl, rfl, rfl, rfl, fun f hf => ?_, rfl, fun i => ?_, fun c hc => ?_, fun r hr => ?_, fun b hb => ?_⟩
        · exact Windlass.withSettings_cases s.windlass _ hf
        · simp [State.loadImage, SenseInput.withSettings]
        · obtain ⟨c, -, rfl⟩ := List.mem_map.mp hc; rfl
        · obtain ⟨r, -, rfl⟩ := List.mem_map.mp hr; rfl
        · obtain ⟨b, -, rfl⟩ := List.mem_map.mp hb; rfl
  · show answered _ _ (s.replaceConfig _) = _
    rw [State.replaceConfig, if_neg (not_not.mpr hmode), if_neg (by simp [State.saving, hs, he]), Option.filter_eq_none_iff.mpr (by simp [hv])]
    rfl
  · have hb : ∀ k, s.replaceConfig k = s.refuse .busy := fun k => (if_neg (not_not.mpr hmode)).trans (if_pos (.inr he))
    exact ⟨congrArg (answered _ _) (hb _), congrArg (answered _ _) (hb _)⟩

end Sys2Proof.Proofs
end

section
/-!
PROOFS. The channel engine (chapter 3): staging and scene takes, fades, and the channel table (O29, O30 and O32).
-/

namespace Sys2Proof.Machine

/-! ## Staging (R49, R51, R74) -/

theorem conditionLevel_eq (k : ChannelKind) (l : Nat) :
    conditionLevel k l = if k = .switch then (if 500 ≤ l then 1000 else 0) else min l 1000 := by cases k <;> rfl

/-- A channel with an entry of a scene staged on it, where the entry names it. -/
def Channel.entered (fade : Nat) (c : Channel) (e : SceneEntry) : Channel :=
  if c.cfg.num = e.channel then
    { c with staged := some ⟨conditionLevel c.cfg.kind e.level, conditionFade fade⟩, untouched := false }
  else c

theorem Channel.entered_other {c : Channel} {e : SceneEntry} (f : Nat) (h : e.channel ≠ c.cfg.num) : c.entered f e = c :=
  if_neg fun he => h he.symm

/-- The entries of a scene staged one by one: each channel takes them in turn. -/
theorem State.stage_entries (fade : Nat) (es : List SceneEntry) (s : State) :
    es.foldl (fun s e => s.stage e.channel e.level fade) s
      = { s with channels := s.channels.map fun c => es.foldl (Channel.entered fade) c } := by
  induction es generalizing s with
  | nil => simp
  | cons e es ih =>
    rw [List.foldl_cons, ih]
    simp only [State.stage, State.onChannel, tableModify, List.map_map]
    rfl

theorem Channel.foldl_entered_none (fade : Nat) {c : Channel} {es : List SceneEntry} (h : ∀ e ∈ es, e.channel ≠ c.cfg.num) :
    es.foldl (Channel.entered fade) c = c := by
  induction es with
  | nil => rfl
  | cons e es ih =>
    rw [List.foldl_cons, Channel.entered_other fade (h e List.mem_cons_self)]
    exact ih fun x hx => h x (List.mem_cons_of_mem _ hx)

/-- Of entries that name a channel once, the one staging stands, whatever else is staged before and after it. -/
theorem Channel.foldl_entered_once (fade : Nat) {c t : Channel} {e : SceneEntry} {es : List SceneEntry} (ht : t.entered fade e = t)
    (hc : c.entered fade e = t) (hk : c.cfg.num = e.channel) (hk' : t.cfg.num = e.channel)
    (ho : ∀ e' ∈ es, e'.channel = e.channel → e' = e) (h : e ∈ es ∨ c = t) : es.foldl (Channel.entered fade) c = t := by
  induction es generalizing c with
  | nil => simpa using h
  | cons x xs ih =>
    have ho' : ∀ e' ∈ xs, e'.channel = e.channel → e' = e := fun y hy => ho y (List.mem_cons_of_mem _ hy)
    rw [List.foldl_cons]
    by_cases hx : x.channel = e.channel
    · obtain rfl := ho x List.mem_cons_self hx
      rw [hc]
      exact ih ht hk' ho' (.inr rfl)
    · rw [Channel.entered_other fade (by rwa [hk])]
      refine ih hc hk ho' (h.imp_left fun hm => ?_)
      obtain rfl | hm := List.mem_cons.mp hm
      · exact absurd rfl hx
      · exact hm

theorem State.take_some {s : State} {n : Nat} {sc : Scene} (h : s.scene n = some sc) (src : TakeSource) :
    s.take n src = { s with channels := s.channels.map fun c => sc.entries.foldl (Channel.entered sc.fade) c
                            lastTake := some ⟨n, src, s.uptime, sc.entries.length⟩ } := by
  unfold State.take
  rw [h]
  dsimp only
  rw [State.stage_entries]

/-! ## Fades (R53, R54) -/

/-- The rounded part of a fade's way at a step. -/
def fadeWay (d k n : Nat) : Nat := (2 * (d * k) + n) / (2 * n)

theorem fadeWay_zero (d : Nat) {n : Nat} (hn : 0 < n) : fadeWay d 0 n = 0 := by
  unfold fadeWay
  rw [Nat.mul_zero, Nat.mul_zero, Nat.zero_add]
  exact Nat.div_eq_of_lt (by omega)

theorem fadeWay_full (d : Nat) {n : Nat} (hn : 0 < n) : fadeWay d n n = d := by
  unfold fadeWay
  rw [show 2 * (d * n) + n = n + (2 * n) * d by ring, Nat.add_mul_div_left _ _ (by omega), Nat.div_eq_of_lt (by omega), Nat.zero_add]

theorem fadeWay_mono (d : Nat) {j k : Nat} (n : Nat) (h : j ≤ k) : fadeWay d j n ≤ fadeWay d k n :=
  Nat.div_le_div_right (by have := Nat.mul_le_mul_left d h; omega)

theorem fadeWay_le {d k n : Nat} (hn : 0 < n) (h : k ≤ n) : fadeWay d k n ≤ d :=
  (fadeWay_mono d n h).trans_eq (fadeWay_full d hn)

theorem roundDiv_nonneg {x : Int} (h : 0 ≤ x) (n : Nat) : roundDiv x n = (2 * x + n) / (2 * n) := by
  unfold roundDiv
  rw [if_pos h]
  push_cast
  rw [abs_of_nonneg h]

theorem roundDiv_nonpos {x : Int} (h : x ≤ 0) {n : Nat} (hn : 0 < n) : roundDiv x n = -((2 * -x + n) / (2 * n)) := by
  unfold roundDiv
  split
  · obtain rfl : x = 0 := by omega
    simp only [Int.natAbs_zero, neg_zero, mul_zero, zero_add]
    have h1 : n / (2 * n) = 0 := Nat.div_eq_of_lt (by omega)
    have h2 : (n : Int) / (2 * n) = ((n / (2 * n) : Nat) : Int) := by push_cast; rfl
    rw [h2, h1]; rfl
  · push_cast
    rw [abs_of_nonpos h]

/-- A fade that does not fall stands the rounded part of its way above its start. -/
theorem Fade.levelAt_rising {f : Fade} (h : f.start ≤ f.target) (k : Nat) :
    f.levelAt k = f.start + fadeWay (f.target - f.start) k f.total := by
  obtain ⟨d, hd⟩ := Nat.exists_eq_add_of_le h
  have hx : ((f.target : Int) - f.start) * k = ((d * k : Nat) : Int) := by rw [hd]; push_cast; ring
  unfold Fade.levelAt fadeWay
  rw [hx, roundDiv_nonneg (by omega), hd, Nat.add_sub_cancel_left]
  norm_cast

/-- A fade that does not rise stands the rounded part of its way below its start. -/
theorem Fade.levelAt_falling {f : Fade} (h : f.target ≤ f.start) (hn : 0 < f.total) (k : Nat) :
    f.levelAt k = f.start - fadeWay (f.start - f.target) k f.total := by
  obtain ⟨d, hd⟩ := Nat.exists_eq_add_of_le h
  have hx : -(((f.target : Int) - f.start) * k) = ((d * k : Nat) : Int) := by rw [hd]; push_cast; ring
  unfold Fade.levelAt fadeWay
  rw [roundDiv_nonpos (by omega) hn, hx, hd, Nat.add_sub_cancel_left]
  have hq : (2 * ((d * k : Nat) : Int) + f.total) / (2 * f.total) = (((2 * (d * k) + f.total) / (2 * f.total) : Nat) : Int) := by
    push_cast; rfl
  rw [hq]
  omega

theorem Fade.levelAt_zero (f : Fade) (hn : 0 < f.total) : f.levelAt 0 = f.start := by
  obtain h | h := Nat.le_total f.start f.target
  · rw [Fade.levelAt_rising h, fadeWay_zero _ hn, Nat.add_zero]
  · rw [Fade.levelAt_falling h hn, fadeWay_zero _ hn, Nat.sub_zero]

theorem Fade.levelAt_total (f : Fade) (hn : 0 < f.total) : f.levelAt f.total = f.target := by
  obtain h | h := Nat.le_total f.start f.target
  · rw [Fade.levelAt_rising h, fadeWay_full _ hn]; omega
  · rw [Fade.levelAt_falling h hn, fadeWay_full _ hn]; omega

/-- The number of steps of a fade time: one for each 20 ms begun, and at least one. -/
theorem fadeSteps_eq {fade n : Nat} (h0 : fade = 0 → n = 1) (h : 0 < fade → 20 * n < fade + 20 ∧ fade ≤ 20 * n) : fadeSteps fade = n := by
  unfold fadeSteps ceilDiv
  split
  · exact (h0 ‹_›).symm
  · have := h (by omega)
    omega

end Sys2Proof.Machine

namespace Sys2Proof.Proofs

open Sys2Proof.Machine

/-- Settles O29: a staging is a change of one channel, and a take stages each entry in turn. -/
theorem levelsAndScenesStaged : Obligations.LevelsAndScenesStaged := by
  refine ⟨fun s tag num level fade hm => ⟨fun c h1 h2 hc => ?_, fun h => ?_, fun h1 h2 hc => ?_⟩,
    fun s tag n hm => ⟨fun sc h1 h2 hsc => ?_, fun h => ?_, fun h1 h2 hsc => ?_⟩⟩
  · show answered _ _ _ = _
    rw [if_neg (not_not.mpr hm), if_neg (by omega), hc]
    simp only [answered_eq, conditionLevel_eq, conditionFade, State.stage, State.onChannel, tableModify, State.onChannels]
  · exact congrArg (answered _ _) ((if_neg (not_not.mpr hm)).trans (if_pos h))
  · show answered _ _ _ = _
    rw [if_neg (not_not.mpr hm), if_neg (by omega), hc]
    rfl
  · refine ⟨s.take n .host, ?_, ?_⟩
    · show answered _ _ _ = _
      rw [if_neg (not_not.mpr hm), if_neg (by omega), hsc]
      rfl
    · rw [State.take_some hsc]
      refine ⟨rfl, rfl, fun i c hi => ⟨_, by simp only [List.getElem?_map, hi]; rfl, fun ho => Channel.foldl_entered_none sc.fade ho, fun e he hk ho => ?_⟩⟩
      refine Channel.foldl_entered_once sc.fade (e := e) ?_ ?_ hk.symm hk.symm ho (.inl he)
      · simp only [Channel.entered, hk, if_true, conditionLevel_eq, conditionFade]
      · simp only [Channel.entered, hk, if_true, conditionLevel_eq, conditionFade]
  · exact congrArg (answered _ _) ((if_neg (not_not.mpr hm)).trans (if_pos h))
  · show answered _ _ _ = _
    rw [if_neg (not_not.mpr hm), if_neg (by omega), hsc]
    rfl

/-- Settles O30: the rounded part of the way is none at step 0, the whole at the last, and grows with the step. -/
theorem fadesStepToTarget : Obligations.FadesStepToTarget := by
  refine ⟨fun f hn => ⟨fun k x hk hx => ⟨fun h => ?_, fun h => ?_⟩, ?_, ?_, fun k hk h => ?_, fun k hk h => ?_⟩, ?_, ?_, ?_, ?_, ?_, ?_⟩
  · have hq : 0 ≤ (2 * x + f.total) / (2 * f.total) := Int.ediv_nonneg (by omega) (by omega)
    unfold Fade.levelAt
    rw [← hx, roundDiv_nonneg h, Int.toNat_of_nonneg (by omega)]
  · have hway : -x ≤ f.start * f.total := by
      have h1 : (0 : Int) ≤ f.target * k := by positivity
      have h2 : (f.start : Int) * k ≤ f.start * f.total := by exact_mod_cast Nat.mul_le_mul_left f.start hk
      rw [hx, Int.sub_mul]
      omega
    have hq : (2 * -x + f.total) / (2 * f.total) < f.start + 1 := by
      refine Int.ediv_lt_of_lt_mul (by omega) ?_
      rw [show ((f.start : Int) + 1) * (2 * f.total) = 2 * (f.start * f.total) + 2 * f.total by ring]
      omega
    unfold Fade.levelAt
    rw [← hx, roundDiv_nonpos h hn, Int.toNat_of_nonneg (by omega)]
    omega
  · exact f.levelAt_zero hn
  · exact f.levelAt_total hn
  · rw [Fade.levelAt_rising h, Fade.levelAt_rising h]
    have h1 := fadeWay_mono (f.target - f.start) f.total (Nat.le_add_right k 1)
    have h2 := fadeWay_le (d := f.target - f.start) (k := k + 1) hn hk
    omega
  · rw [Fade.levelAt_falling h hn, Fade.levelAt_falling h hn]
    have h1 := fadeWay_mono (f.start - f.target) f.total (Nat.le_add_right k 1)
    have h2 := fadeWay_le (d := f.start - f.target) (k := k + 1) hn hk
    omega
  · intro c t n hs hk h0 h
    simp only [Channel.takeUp, hs, hk, fadeSteps_eq h0 h]
  · intro c t hs hk
    unfold Channel.takeUp
    rw [hs]
    cases hkind : c.cfg.kind with
    | dim => exact absurd hkind hk
    | switch => rfl
    | blind => rfl
  · intro c hs; simp only [Channel.takeUp, hs]
  · intro c hf; simp only [Channel.advance, hf]
  · intro c f hf h
    simp only [Channel.advance, hf, if_neg (Nat.not_le.mpr h)]
  · intro c f hf hn h
    simp only [Channel.advance, hf, h, if_pos (Nat.le_refl _), f.levelAt_total hn]

end Sys2Proof.Proofs
end

section
/-!
PROOFS. The channel and node tables (chapters 2 and 3): their edits, and what a record that goes takes with it (O32 and O58).
-/

namespace Sys2Proof.Machine

/-! ## Channels that go, with what names them (R66) -/

/-- Whether a scene stays when channels go: it was empty already, or an entry stays. -/
def Scene.leftBy (gone : Nat → Bool) (sc : Scene) : Bool := sc.entries.isEmpty || sc.entries.any fun e => !gone e.channel

/-- A scene without its entries of channels that go. -/
def Scene.trim (gone : Nat → Bool) (sc : Scene) : Scene := { sc with entries := sc.entries.filter fun e => !gone e.channel }

/-- Whether a binding stays when channels go: it acts on none of them, and takes no scene that goes with them. -/
def Binding.outlives (gone : Nat → Bool) (scenes : List Scene) (b : Binding) : Bool :=
  match b.action with
  | .setChannel n _ _ | .toggleChannel n => !gone n
  | .takeScene n => scenes.all fun sc => sc.num ≠ n || sc.leftBy gone

/-- The state without some channels and all that names them. -/
def State.without (s : State) (gone : Nat → Bool) : State :=
  { s with channels := s.channels.filter fun c => !gone c.cfg.num
           scenes := (s.scenes.filter fun sc => sc.leftBy gone).map fun sc => sc.trim gone
           bindings := s.bindings.filter fun b => b.outlives gone s.scenes }

/-- Scenes dropped one by one. -/
theorem State.foldl_dropScene (ns : List Nat) (s : State) :
    ns.foldl State.dropScene s = { s with scenes := s.scenes.filter fun sc => !ns.contains sc.num
                                          bindings := s.bindings.filter fun b => !ns.any b.takes } := by
  induction ns generalizing s with
  | nil => simp
  | cons n ns ih =>
    rw [List.foldl_cons, ih]
    simp only [State.dropScene, tableErase, List.filter_filter, List.contains_cons, List.any_cons, Bool.not_or]
    congr 2
    · funext sc; rw [Bool.and_comm]; congr 1; simp [beq_eq_decide]
    · funext b; rw [Bool.and_comm]

/-- The scenes that a channel's going empties: they had entries, and all of it. -/
theorem Scene.leftBy_one (n : Nat) (sc : Scene) :
    (decide (sc.entries.any (fun e => e.channel = n) ∧ sc.entries.all (fun e => e.channel = n))) = !sc.leftBy (fun x => decide (x = n)) := by
  unfold Scene.leftBy
  cases sc.entries with
  | nil => rfl
  | cons e es =>
    simp only [List.any_cons, List.all_cons, List.isEmpty_cons, Bool.false_or, Bool.not_or]
    by_cases he : e.channel = n
    · rw [Bool.eq_iff_iff]; simp [he]
    · simp [he]

theorem Scene.num_inj {t : List Scene} (h : Rising (t.map (·.num))) {a b : Scene} (ha : a ∈ t) (hb : b ∈ t) (e : a.num = b.num) : a = b :=
  List.inj_on_of_nodup_map (h.imp fun h => Nat.ne_of_lt h) ha hb e

/-- A channel is dropped with its entries, the scenes it empties and the bindings that act on it or take one of them. -/
theorem State.dropChannel_eq {s : State} (h : Rising (s.scenes.map (·.num))) (n : Nat) (c : Removed) :
    (s.dropChannel n c).1 = s.without (fun x => decide (x = n)) := by
  have hmem : ∀ sc ∈ s.scenes, ((s.scenes.filter fun sc => !sc.leftBy (fun x => decide (x = n))).map (·.num)).contains sc.num = !sc.leftBy (fun x => decide (x = n)) := by
    intro sc hsc
    by_cases hl : sc.leftBy (fun x => decide (x = n)) = true
    · rw [hl, Bool.not_true, Bool.eq_false_iff, Ne, List.contains_iff_mem, List.mem_map]
      rintro ⟨x, hx, e⟩
      obtain ⟨hx, hxl⟩ := List.mem_filter.mp hx
      rw [Scene.num_inj h hx hsc e, hl] at hxl
      cases hxl
    · rw [Bool.not_eq_true] at hl
      rw [hl, Bool.not_false, List.contains_iff_mem]
      exact List.mem_map_of_mem (List.mem_filter.mpr ⟨hsc, by rw [hl]; rfl⟩)
  simp only [State.dropChannel, State.foldl_dropScene, Scene.leftBy_one, State.without, tableErase, List.filter_filter, List.filter_map]
  have hc : (s.channels.filter fun x => decide (x.cfg.num ≠ n)) = s.channels.filter fun c => !decide (c.cfg.num = n) :=
    List.filter_congr fun x _ => by simp
  have hscenes : s.scenes.filter ((fun sc : Scene =>
      !((s.scenes.filter fun sc => !sc.leftBy (fun x => decide (x = n))).map (·.num)).contains sc.num) ∘ fun sc : Scene =>
        { sc with entries := sc.entries.filter fun e => decide (e.channel ≠ n) }) = s.scenes.filter fun sc => sc.leftBy (fun x => decide (x = n)) :=
    List.filter_congr fun sc hsc => by rw [Function.comp, hmem sc hsc, Bool.not_not]
  have htrim : (fun sc : Scene => { sc with entries := sc.entries.filter fun e => decide (e.channel ≠ n) })
      = fun sc => sc.trim (fun x => decide (x = n)) := by
    funext sc
    simp [Scene.trim]
  have hb : (fun b : Binding => !b.actsOn n && !((s.scenes.filter fun sc => !sc.leftBy (fun x => decide (x = n))).map (·.num)).any b.takes)
      = fun b => b.outlives (fun x => decide (x = n)) s.scenes := by
    funext b
    unfold Binding.actsOn Binding.takes Binding.outlives
    cases b.action with
    | takeScene m =>
      rw [Bool.eq_iff_iff]
      simp [imp_iff_or_not, or_comm, eq_comm (a := m)]
    | setChannel m l f => rw [Bool.eq_iff_iff]; simp
    | toggleChannel m => rw [Bool.eq_iff_iff]; simp
  rw [hc, hscenes, htrim, hb]

/-- The entries that go and those that stay are the scene table's. -/
theorem State.poolUsed_without (s : State) (gone : Nat → Bool) :
    (s.scenes.map fun sc => (sc.entries.filter fun e => gone e.channel).length).sum + (s.without gone).poolUsed = s.poolUsed := by
  simp only [State.poolUsed, State.without, List.map_map]
  induction s.scenes with
  | nil => rfl
  | cons sc t ih =>
    have hlen := List.length_eq_length_filter_add (l := sc.entries) fun e => gone e.channel
    rw [List.filter_cons]
    split
    · simp only [List.map_cons, List.sum_cons, Function.comp, Scene.trim] at ih ⊢
      omega
    · rename_i hl
      obtain ⟨-, hall⟩ : sc.entries ≠ [] ∧ ∀ e ∈ sc.entries, gone e.channel = true := by simpa [Scene.leftBy] using hl
      have h0 : sc.entries.filter (fun e => !gone e.channel) = [] := List.filter_eq_nil_iff.mpr fun e he => by simp [hall e he]
      rw [h0] at hlen
      simp only [List.map_cons, List.sum_cons, List.length_nil] at hlen ih ⊢
      omega

/-- The counts of a channel that goes: what the tables have less of (R66). -/
theorem State.dropChannel_counts {s : State} (h : Rising (s.scenes.map (·.num))) (n : Nat) (c : Removed) :
    (s.dropChannel n c).2.entries = c.entries + (s.poolUsed - (s.without fun x => decide (x = n)).poolUsed)
      ∧ (s.dropChannel n c).2.scenes = c.scenes + (s.scenes.length - (s.without fun x => decide (x = n)).scenes.length)
      ∧ (s.dropChannel n c).2.bindings = c.bindings + (s.bindings.length - (s.without fun x => decide (x = n)).bindings.length) := by
  have hp := s.poolUsed_without fun x => decide (x = n)
  have hl := List.length_eq_length_filter_add (l := s.scenes) fun sc => sc.leftBy fun x => decide (x = n)
  refine ⟨?_, ?_, ?_⟩
  · simp only [State.dropChannel]; omega
  · simp only [State.dropChannel, Scene.leftBy_one, State.without, List.length_map]; omega
  · rw [← State.dropChannel_eq h n c]; rfl

theorem State.without_rising {s : State} (h : Rising (s.scenes.map (·.num))) (gone : Nat → Bool) :
    Rising ((s.without gone).scenes.map (·.num)) := by
  simp only [State.without, List.map_map]
  exact List.Pairwise.sublist (List.Sublist.map _ List.filter_sublist) h

theorem Scene.leftBy_iff {gone : Nat → Bool} {sc : Scene} :
    sc.leftBy gone = true ↔ sc.entries = [] ∨ ∃ e ∈ sc.entries, gone e.channel = false := by simp [Scene.leftBy]

theorem Scene.leftBy_or (g k : Nat → Bool) (sc : Scene) :
    sc.leftBy (fun n => g n || k n) = (sc.leftBy g && (sc.trim g).leftBy k) := by
  rw [Bool.eq_iff_iff, Bool.and_eq_true, Scene.leftBy_iff, Scene.leftBy_iff, Scene.leftBy_iff]
  simp only [Scene.trim, Bool.or_eq_false_iff, List.filter_eq_nil_iff, List.mem_filter, Bool.not_eq_true', Bool.not_eq_false]
  constructor
  · rintro (h | ⟨e, he, hg, hk⟩)
    · exact ⟨.inl h, .inl fun e he => absurd he (by simp [h])⟩
    · exact ⟨.inr ⟨e, he, hg⟩, .inr ⟨e, ⟨he, hg⟩, hk⟩⟩
  · rintro ⟨h | ⟨e, he, hg⟩, h' | ⟨e', ⟨he', hg'⟩, hk'⟩⟩
    · exact .inl h
    · exact .inl h
    · rw [h' e he] at hg; cases hg
    · exact .inr ⟨e', he', hg', hk'⟩

theorem Scene.trim_or (g k : Nat → Bool) (sc : Scene) : sc.trim (fun n => g n || k n) = (sc.trim g).trim k := by
  simp [Scene.trim, List.filter_filter, Bool.and_comm]

theorem Binding.outlives_or (g k : Nat → Bool) (t : List Scene) (b : Binding) :
    b.outlives (fun n => g n || k n) t
      = (b.outlives g t && b.outlives k ((t.filter fun sc => sc.leftBy g).map fun sc => sc.trim g)) := by
  unfold Binding.outlives
  cases b.action with
  | takeScene m =>
    rw [Bool.eq_iff_iff]
    simp only [Scene.leftBy_or, Bool.and_eq_true, List.all_eq_true, List.mem_map, List.mem_filter, Bool.or_eq_true, decide_eq_true_eq]
    constructor
    · intro h
      refine ⟨fun sc hsc => (h sc hsc).imp_right And.left, ?_⟩
      rintro _ ⟨sc, ⟨hsc, -⟩, rfl⟩
      exact (h sc hsc).imp_right And.right
    · rintro ⟨h1, h2⟩ sc hsc
      obtain hn | hl := h1 sc hsc
      · exact .inl hn
      · exact (h2 _ ⟨sc, ⟨hsc, hl⟩, rfl⟩).imp_right fun h => ⟨hl, h⟩
  | setChannel n l f => simp
  | toggleChannel n => simp

/-- Channels that go one after the other go together. -/
theorem State.without_without (s : State) (g k : Nat → Bool) : (s.without g).without k = s.without fun n => g n || k n := by
  have hc : (fun c : Channel => !k c.cfg.num && !g c.cfg.num) = fun c => !(g c.cfg.num || k c.cfg.num) := by
    funext c; rw [Bool.not_or, Bool.and_comm]
  have hs : (fun sc : Scene => (sc.trim g).leftBy k && sc.leftBy g) = fun sc => sc.leftBy fun n => g n || k n := by
    funext sc; rw [Scene.leftBy_or, Bool.and_comm]
  have ht : ((fun sc : Scene => sc.trim k) ∘ fun sc : Scene => sc.trim g) = fun sc : Scene => sc.trim fun n => g n || k n := by
    funext sc; exact (Scene.trim_or g k sc).symm
  have hb : (fun b : Binding => b.outlives k ((s.scenes.filter fun sc => sc.leftBy g).map fun sc => sc.trim g) && b.outlives g s.scenes)
      = fun b => b.outlives (fun n => g n || k n) s.scenes := by
    funext b; rw [Binding.outlives_or, Bool.and_comm]
  simp only [State.without, List.filter_filter, List.filter_map, List.map_map, Function.comp_def] at hc hs ht hb ⊢
  rw [hc, hs, ht, hb]

theorem State.without_none (s : State) : s.without (fun _ => false) = s := by
  have h1 : (fun sc : Scene => sc.leftBy fun _ => false) = fun _ => true := by
    funext sc; rw [Bool.eq_iff_iff, Scene.leftBy_iff]
    cases h : sc.entries <;> simp
  have h2 : (fun b : Binding => b.outlives (fun _ => false) s.scenes) = fun _ => true := by
    funext b
    unfold Binding.outlives
    cases b.action with
    | takeScene n => simp [congrFun h1]
    | setChannel n l f => rfl
    | toggleChannel n => rfl
  simp [State.without, h1, h2, Scene.trim]

/-- Channels dropped one after the other, with the counts of all that goes with them. -/
theorem State.foldl_dropChannel (ns : List Nat) {s : State} (h : Rising (s.scenes.map (·.num))) (c : Removed) :
    ∃ d : Removed, ns.foldl (fun (p : State × Removed) n => p.1.dropChannel n p.2) (s, c) = (s.without fun x => decide (x ∈ ns), d)
      ∧ d.entries + (s.without fun x => decide (x ∈ ns)).poolUsed = c.entries + s.poolUsed
      ∧ d.scenes + (s.without fun x => decide (x ∈ ns)).scenes.length = c.scenes + s.scenes.length
      ∧ d.bindings + (s.without fun x => decide (x ∈ ns)).bindings.length = c.bindings + s.bindings.length := by
  induction ns generalizing s c with
  | nil => exact ⟨c, by simp [State.without_none], by simp [State.without_none]⟩
  | cons n ns ih =>
    have h1 := State.dropChannel_eq h n c
    obtain ⟨he, hs, hb⟩ := State.dropChannel_counts h n c
    obtain ⟨d, hd, de, ds, db⟩ := ih (State.without_rising h fun x => decide (x = n)) (s.dropChannel n c).2
    have hw : ((s.without fun x => decide (x = n)).without fun x => decide (x ∈ ns)) = s.without fun x => decide (x ∈ n :: ns) := by
      rw [State.without_without]
      congr 1
      funext x
      simp
    have hp := s.poolUsed_without fun x => decide (x = n)
    have hlen : (s.without fun x => decide (x = n)).scenes.length ≤ s.scenes.length := by
      simp only [State.without, List.length_map]; exact List.length_filter_le _ _
    have hlenb : (s.without fun x => decide (x = n)).bindings.length ≤ s.bindings.length := List.length_filter_le _ _
    rw [hw] at hd de ds db
    refine ⟨d, ?_, by omega, by omega, by omega⟩
    rw [List.foldl_cons, ← hd, ← h1]

theorem Binding.outlives_iff {gone : Nat → Bool} {t : List Scene} {b : Binding} :
    b.outlives gone t = true ↔ (∀ n l f, gone n = true → b.action ≠ .setChannel n l f ∧ b.action ≠ .toggleChannel n)
      ∧ ∀ sc ∈ t, sc.leftBy gone = false → b.action ≠ .takeScene sc.num := by
  unfold Binding.outlives
  cases b.action with
  | takeScene m =>
    simp only [List.all_eq_true, Bool.or_eq_true, decide_eq_true_eq, ne_eq, reduceCtorEq, not_false_eq_true, and_self, implies_true, true_and,
      Action.takeScene.injEq]
    refine forall₂_congr fun sc _ => ?_
    cases sc.leftBy gone <;> simp [eq_comm]
  | setChannel m l f =>
    simp only [Bool.not_eq_true', ne_eq, Action.setChannel.injEq, reduceCtorEq, not_false_eq_true, and_true, implies_true]
    refine ⟨fun h n l' f' hn e => ?_, fun h => Bool.eq_false_iff.mpr fun hm => h m l f hm ⟨rfl, rfl, rfl⟩⟩
    rw [← e.1, h] at hn; cases hn
  | toggleChannel m =>
    simp only [Bool.not_eq_true', ne_eq, Action.toggleChannel.injEq, reduceCtorEq, not_false_eq_true, and_true, true_and, implies_true]
    refine ⟨fun h n _ _ hn e => ?_, fun h => Bool.eq_false_iff.mpr fun hm => h m 0 0 hm rfl⟩
    rw [← e, h] at hn; cases hn

/-! ## The channel table (R65) -/

theorem channelConfig_key (num node index : Nat) (k : ChannelKind) (rated cls floor preset : Nat) :
    (channelConfig num node index k rated cls floor preset).num = num ∧ (channelConfig num node index k rated cls floor preset).node = node
      ∧ (channelConfig num node index k rated cls floor preset).index = index
      ∧ (channelConfig num node index k rated cls floor preset).kind = k := by cases k <;> exact ⟨rfl, rfl, rfl, rfl⟩

theorem redefine_cfg (o : Option Channel) (cfg : ChannelConfig) : (redefine o cfg).cfg = cfg := by
  unfold redefine
  split
  · split <;> rfl
  · rfl

/-- The codes of the channel kinds, with their outputs and node types. -/
theorem channelKind?_eq {code outs : Nat} {k : ChannelKind} {ty : NodeType} (h : (code = 1 ∧ k = .dim ∧ outs = 4 ∧ ty = .dimmer4)
    ∨ (code = 2 ∧ k = .switch ∧ outs = 8 ∧ ty = .switch8) ∨ (code = 3 ∧ k = .blind ∧ outs = 2 ∧ ty = .blind2)) :
    channelKind? code = some k ∧ k.outputs = outs ∧ k.nodeType = ty := by
  obtain ⟨rfl, rfl, rfl, rfl⟩ | ⟨rfl, rfl, rfl, rfl⟩ | ⟨rfl, rfl, rfl, rfl⟩ := h <;> exact ⟨rfl, rfl, rfl⟩

theorem channelKind?_some {code : Nat} {k : ChannelKind} (h : channelKind? code = some k) :
    (code = 1 ∧ k = .dim) ∨ (code = 2 ∧ k = .switch) ∨ (code = 3 ∧ k = .blind) := by
  unfold channelKind? at h
  split at h <;> simp_all

theorem State.without_scene_none {s : State} (h : Rising (s.scenes.map (·.num))) {gone : Nat → Bool} {sc : Scene} (hsc : sc ∈ s.scenes)
    (hl : sc.leftBy gone = false) : (s.without gone).scene sc.num = none := by
  refine (tableGet_eq_none_iff (key := _)).mpr fun x hx he => ?_
  obtain ⟨y, hy, rfl⟩ := List.mem_map.mp hx
  obtain ⟨hy, hyl⟩ := List.mem_filter.mp hy
  obtain rfl := Scene.num_inj h hy hsc he
  rw [hl] at hyl; cases hyl

theorem State.without_scene_some {s : State} (h : Rising (s.scenes.map (·.num))) {gone : Nat → Bool} {sc : Scene} (hsc : sc ∈ s.scenes)
    (hl : sc.leftBy gone = true) : (s.without gone).scene sc.num = some (sc.trim gone) :=
  tableGet_of_mem (fun x : Scene => x.num) (State.without_rising h gone) (List.mem_map_of_mem (f := Scene.trim gone) (List.mem_filter.mpr ⟨hsc, hl⟩))

/-! ## The node table (R44, R45) -/

/-- The six functions of a station's map are those of its keys 1 to 6. -/
theorem Station.mapped_iff {t : Station} :
    (motionKeys.any fun k => decide (t.function k ≠ .none)) = true ↔ ∃ f ∈ t.map.toList, f ≠ .none := by
  have hf : ∀ (i : Nat) (hi : i < 6), t.function (i + 1) = t.map[i] := fun i hi => by
    rw [Station.function, Nat.add_sub_cancel, Vector.getElem?_eq_getElem hi, Option.getD_some]
  have hkeys : ∀ k, k ∈ motionKeys ↔ ∃ i, i < 6 ∧ i + 1 = k := fun k => by
    simp only [motionKeys, List.mem_cons, List.not_mem_nil, or_false]
    exact ⟨fun h => ⟨k - 1, by omega, by omega⟩, fun ⟨i, hi, e⟩ => by omega⟩
  simp only [List.any_eq_true, decide_eq_true_eq, Vector.mem_toList_iff, Vector.mem_iff_getElem]
  constructor
  · rintro ⟨k, hk, hne⟩
    obtain ⟨i, hi, rfl⟩ := (hkeys k).mp hk
    exact ⟨_, ⟨i, hi, (hf i hi).symm⟩, hne⟩
  · rintro ⟨f, ⟨i, hi, rfl⟩, hne⟩
    exact ⟨i + 1, (hkeys _).mpr ⟨i, hi, rfl⟩, by rwa [hf i hi]⟩

theorem Binding.keyedBy_iff {b : Binding} {a : Nat} : b.keyedBy a = true ↔ ∃ k e, b.trigger = .key a k e := by
  unfold Binding.keyedBy
  cases b.trigger <;> simp

theorem Channel.num_inj {t : List Channel} (h : Rising (t.map (·.cfg.num))) {a b : Channel} (ha : a ∈ t) (hb : b ∈ t)
    (e : a.cfg.num = b.cfg.num) : a = b := List.inj_on_of_nodup_map (h.imp fun h => Nat.ne_of_lt h) ha hb e

/-- What names a record: a channel, a mapped key, or a KEY trigger. -/
theorem State.nodeNamed_iff {s : State} {a : Nat} : s.nodeNamed a = true ↔ (∃ c ∈ s.channels, c.cfg.node = a)
    ∨ (∃ t f, s.station a = some t ∧ f ∈ t.map.toList ∧ f ≠ .none) ∨ (∃ b ∈ s.bindings, ∃ k e, b.trigger = .key a k e) := by
  have hst : ((s.station a).any fun t => motionKeys.any fun k => decide (t.function k ≠ .none)) = true
      ↔ ∃ t f, s.station a = some t ∧ f ∈ t.map.toList ∧ f ≠ .none := by
    cases s.station a with
    | none => simp
    | some t => simpa using Station.mapped_iff (t := t)
  simp only [State.nodeNamed, Bool.or_eq_true, hst, List.any_eq_true, Binding.keyedBy_iff, decide_eq_true_eq, or_assoc]

theorem State.enrolHolds_false {s : State} {a : Nat} (h : ∀ e, s.enrolment = some e → e.addr ≠ a) : s.enrolHolds a = false := by
  unfold State.enrolHolds
  cases he : s.enrolment with
  | none => rfl
  | some e => exact decide_eq_false (h e he)

theorem State.enrolHolds_true {s : State} {a : Nat} {e : Enrolment} (h : s.enrolment = some e) (ha : e.addr = a) : s.enrolHolds a = true := by
  simp [State.enrolHolds, h, ha]

theorem State.placesTaken_eq (s : State) :
    s.placesTaken = s.nodes.length + (if ∃ e, s.enrolment = some e ∧ s.node e.addr = none then 1 else 0) := by
  unfold State.placesTaken
  congr 1
  refine if_congr ?_ rfl rfl
  cases s.enrolment <;> simp

/-- The state with a DECLARED record put at an address (R44). -/
def State.withNode (s : State) (a : Nat) (ty : NodeType) (serial : Serial) : State :=
  { s with nodes := tablePut (·.addr) { addr := a, type := ty, serial := serial } s.nodes }

/-- The state with a record given another type (R44). -/
def State.retype (s : State) (a : Nat) (ty : NodeType) (serial : Serial) : State :=
  s.onNode a fun r => { r with type := ty, serial := serial, firmware := none, faultBits := none }

/-- DECLARE_NODE in CONFIG of an address 1..119 without a record, that no enrolment holds. -/
theorem exec_declareNode_new {s : State} {a code : Nat} {ty : NodeType} (hm : s.mode = .config) (hs : s.store.state ≠ .saving)
    (hty : nodeType? code = some ty) (h1 : 1 ≤ a) (h2 : a ≤ 119) (hfree : s.enrolHolds a = false) (hn : s.node a = none) (tag : Byte)
    (serial : Serial) : exec (.declareNode tag a code serial) s = answered 0x14 tag (
      if 48 ≤ s.placesTaken then s.refuse .full
      else ((s.withNode a ty serial).mapForType a none ty).accept) := by
  show answered _ _ (s.configEdit _) = _
  rw [State.configEdit_served hm hs, hty]
  dsimp only
  rw [if_neg (by omega), hfree, if_neg (by simp), hn]
  rfl

/-- DECLARE_NODE in CONFIG of an address 1..119 with a record, that no enrolment holds. -/
theorem exec_declareNode_old {s : State} {a code : Nat} {ty : NodeType} {r : NodeRecord} (hm : s.mode = .config)
    (hs : s.store.state ≠ .saving) (hty : nodeType? code = some ty) (h1 : 1 ≤ a) (h2 : a ≤ 119) (hfree : s.enrolHolds a = false)
    (hr : s.node a = some r) (tag : Byte) (serial : Serial) : exec (.declareNode tag a code serial) s = answered 0x14 tag (
      if r.type = ty then (s.onNode a fun r => { r with serial := serial }).accept
      else if s.nodeNamed a then s.refuse .inUse
      else ((s.retype a ty serial).mapForType a (some r.type) ty).accept) := by
  show answered _ _ (s.configEdit _) = _
  rw [State.configEdit_served hm hs, hty]
  dsimp only
  rw [if_neg (by omega), hfree, if_neg (by simp), hr]
  rfl

/-- The key map comes with a record that becomes a STATION. -/
theorem State.mapForType_station {was : Option NodeType} (h : was ≠ some .station) (s : State) (a : Nat) :
    s.mapForType a was .station = s.addStation a := (if_pos rfl).trans (if_neg h)

/-- The key map goes with a record that was a STATION. -/
theorem State.mapForType_left {ty : NodeType} (h : ty ≠ .station) (s : State) (a : Nat) :
    s.mapForType a (some .station) ty = s.dropStation a := (if_neg h).trans (if_pos rfl)

theorem State.mapForType_other {was : Option NodeType} {ty : NodeType} (h : ty ≠ .station) (hw : was ≠ some .station) (s : State) (a : Nat) :
    s.mapForType a was ty = s := (if_neg h).trans (if_neg hw)

/-- The key maps change with the type, and nothing else does. -/
theorem State.mapForType_frame (s : State) (a : Nat) (was : Option NodeType) (ty : NodeType) :
    ∃ ts, s.mapForType a was ty = { s with stations := ts } := by
  unfold State.mapForType
  split
  · split
    · exact ⟨s.stations, rfl⟩
    · exact ⟨_, rfl⟩
  · split
    · exact ⟨_, rfl⟩
    · exact ⟨s.stations, rfl⟩

theorem State.addStation_station (s : State) (a : Nat) :
    (s.addStation a).station a = some { addr := a } ∧ ∀ b, b ≠ a → (s.addStation a).station b = s.station b :=
  ⟨tableGet_tablePut_self (fun t : Station => t.addr) { addr := a } _, fun _ hb => tableGet_tablePut_other (fun t : Station => t.addr) hb⟩

end Sys2Proof.Machine

namespace Sys2Proof.Proofs

open Sys2Proof.Machine

/-- Settles O32: DEFINE_CHANNEL puts one record; REMOVE_CHANNEL drops it with all that names it. -/
theorem channelTableEdits : Obligations.ChannelTableEdits := by
  refine ⟨?_, ?_, ?_⟩
  · intro s tag num node index kind rated cls floor preset k outs ty hm hs hk h1 h2 h3 h4 h5 h6 h7 h8 hn hc
    obtain ⟨hkind, rfl, rfl⟩ := channelKind?_eq hk
    obtain ⟨knum, knode, kindex, kkind⟩ := channelConfig_key num node index k rated cls floor preset
    have hcfg := redefine_cfg (s.channel num) (channelConfig num node index k rated cls floor preset)
    have hkey : (redefine (s.channel num) (channelConfig num node index k rated cls floor preset)).cfg.num = num := by rw [hcfg, knum]
    refine ⟨{ s with channels := tablePut (·.cfg.num) (redefine (s.channel num) (channelConfig num node index k rated cls floor preset)) s.channels },
      redefine (s.channel num) (channelConfig num node index k rated cls floor preset), ?_, ?_, ?_, fun o ho e1 e2 e3 => ?_, fun h => ?_,
      fun n hne => ?_, rfl⟩
    · rw [exec_defineChannel hm hs hkind, if_neg (by omega), if_neg (by rwa [State.nodeMisfits_iff, not_not]),
        if_neg (by rw [State.outputTaken_iff]; rintro ⟨c, hx, h, e⟩; exact hc c hx h e), answered_eq, hcfg]
    · have := tableGet_tablePut_self (fun c : Channel => c.cfg.num) (redefine (s.channel num) (channelConfig num node index k rated cls floor preset)) s.channels
      rwa [hkey] at this
    · rw [hcfg]
      cases k <;> rfl
    · rw [hcfg, ho]
      exact if_pos ⟨e1.trans knode.symm, e2.trans kindex.symm, e3.trans kkind.symm⟩
    · rw [hcfg]
      cases ho : s.channel num with
      | none => rfl
      | some o => exact if_neg (by rw [knode, kindex, kkind]; exact h o ho)
    · exact tableGet_tablePut_other (fun c : Channel => c.cfg.num) (by rwa [hkey])
  · intro s tag num c hord hm hs h1 h2 hc
    obtain ⟨-, -, hscenes, -⟩ := hord
    have hw := State.dropChannel_eq hscenes num {}
    have hcounts := State.dropChannel_counts hscenes num {}
    obtain ⟨hde, hds, hdb⟩ := hcounts
    have hp := s.poolUsed_without fun x => decide (x = num)
    refine ⟨s.without fun x => decide (x = num), (s.dropChannel num {}).2, ?_, ?_, ?_, ?_, ?_, ?_, rfl, ?_, ?_, ?_⟩
    · show answered _ _ (s.configEdit _) = _
      rw [State.configEdit_served hm hs, if_neg (by omega), hc, if_neg (by simp), answered_eq, ← hw]
    · exact List.filter_congr fun (x : Channel) _ => by simp
    · intro sc hsc e he
      obtain ⟨sc, -, rfl⟩ := List.mem_map.mp hsc
      simpa using (List.mem_filter.mp he).2
    · rintro sc hsc ⟨e, he, -⟩ hall
      refine State.without_scene_none hscenes hsc ?_
      rw [Bool.eq_false_iff, Ne, Scene.leftBy_iff]
      rintro (h | ⟨e, he, hn⟩)
      · rw [h] at he; cases he
      · simp [hall e he] at hn
    · intro sc hsc h
      have hleft : sc.leftBy (fun x => decide (x = num)) = true := by
        rw [Scene.leftBy_iff]
        obtain h | ⟨e, he, hn⟩ := h
        · cases hes : sc.entries with
          | nil => exact .inl rfl
          | cons e es => exact .inr ⟨e, List.mem_cons_self, decide_eq_false (h e (by rw [hes]; exact List.mem_cons_self))⟩
        · exact .inr ⟨e, he, decide_eq_false hn⟩
      rw [State.without_scene_some hscenes hsc hleft]
      simp [Scene.trim]
    · intro b
      simp only [State.without, List.mem_filter, Binding.outlives_iff, decide_eq_true_eq]
      refine and_congr_right fun _ => ⟨fun ⟨h1, h2⟩ => ⟨fun l f => (h1 num l f rfl).1, (h1 num 0 0 rfl).2, fun sc hsc he ha => ?_⟩,
        fun ⟨h1, h2, h3⟩ => ⟨fun n l f hn => hn ▸ ⟨h1 l f, h2⟩, fun sc hsc hl => ?_⟩⟩
      · refine h2 sc hsc (Bool.eq_false_iff.mpr fun hl => ?_)
        obtain h | ⟨e, he', hn⟩ := Scene.leftBy_iff.mp hl
        · obtain ⟨e, he, -⟩ := he
          rw [h] at he; cases he
        · simp [ha e he'] at hn
      · have hl' := mt Scene.leftBy_iff.mpr (Bool.eq_false_iff.mp hl)
        simp only [not_or, not_exists, not_and, decide_eq_false_iff_not, not_not] at hl'
        obtain ⟨e, he⟩ := List.exists_mem_of_ne_nil _ hl'.1
        exact h3 sc hsc ⟨e, he, hl'.2 e he⟩ hl'.2
    · rw [hdb, Nat.zero_add]
    · rw [hds, Nat.zero_add]
    · rw [hde, List.filter_flatten, List.length_flatten, List.map_map, List.map_map]
      simp only [Function.comp_def]
      omega
  · intro s tag num node index kind rated cls floor preset hm hs
    refine ⟨fun h => ?_, fun r hr h => ?_, fun outs ty hk h1 h2 h3 h4 h5 h6 h7 h8 hn hc => ?_, fun h => ?_, fun h1 h2 hc => ?_⟩
    · cases hk : channelKind? kind with
      | none => 
        show answered _ _ (s.configEdit _) = _
        rw [State.configEdit_served hm hs, hk]
        rfl
      | some k =>
        rw [exec_defineChannel hm hs hk, if_pos]
        · rfl
        · obtain ⟨rfl, rfl⟩ | ⟨rfl, rfl⟩ | ⟨rfl, rfl⟩ := channelKind?_some hk <;> simp only [ChannelKind.outputs] <;> omega
    · obtain ⟨k, hk, hne⟩ : ∃ k, channelKind? kind = some k ∧ r.type ≠ k.nodeType := by
        obtain ⟨rfl, h⟩ | ⟨rfl, h⟩ | ⟨rfl, h⟩ := h <;> exact ⟨_, rfl, h⟩
      rw [exec_defineChannel hm hs hk, if_pos (State.nodeMisfits_iff.mpr fun h => hne (h r hr)), ite_self]
      rfl
    · obtain ⟨k, hk⟩ : ∃ k, channelKind? kind = some k ∧ k.outputs = outs ∧ k.nodeType = ty := by
        obtain ⟨rfl, rfl, rfl⟩ | ⟨rfl, rfl, rfl⟩ | ⟨rfl, rfl, rfl⟩ := hk <;> exact ⟨_, rfl, rfl, rfl⟩
      obtain ⟨hkind, rfl, rfl⟩ := hk
      rw [exec_defineChannel hm hs hkind, if_neg (by omega), if_neg (by rwa [State.nodeMisfits_iff, not_not]),
        if_pos (State.outputTaken_iff.mpr hc)]
      rfl
    · show answered _ _ (s.configEdit _) = _
      rw [State.configEdit_served hm hs, if_pos h]
      rfl
    · show answered _ _ (s.configEdit _) = _
      rw [State.configEdit_served hm hs, if_neg (by omega), hc]
      rfl

/-- Settles O58: DECLARE_NODE puts or changes one record; REMOVE_NODE drops the node's channels, its keys' bindings and its map. -/
theorem nodeTableEdits : Obligations.NodeTableEdits := by
  refine ⟨fun s tag a code ty serial taken hm hs h1 h2 hty ht => ⟨fun hfree => ?_, fun e he hea => ⟨?_, fun hn => ?_⟩⟩,
    fun s tag a code serial hm hs => ⟨fun h => ?_, fun h => ?_, fun h1 h2 hn => ?_⟩, ?_⟩
  · have hf := State.enrolHolds_false hfree
    have hplaces : s.placesTaken = taken := by rw [ht, State.placesTaken_eq]
    refine ⟨fun hn hlt => ?_, fun hn hge => ?_, fun r hr he => ?_, fun r hr hne hnamed => ?_, fun r hr hne h3 h4 h5 => ?_⟩
    · obtain ⟨ts, hts⟩ := (s.withNode a ty serial).mapForType_frame a none ty
      refine ⟨(s.withNode a ty serial).mapForType a none ty, ?_, ?_, fun b hb => ?_, fun he => ?_, fun hne => ?_, ?_⟩
      · rw [exec_declareNode_new hm hs hty h1 h2 hf hn, if_neg (by omega)]
        rfl
      · rw [hts]; exact tableGet_tablePut_self (fun r : NodeRecord => r.addr) { addr := a, type := ty, serial := serial } _
      · rw [hts]; exact tableGet_tablePut_other (fun r : NodeRecord => r.addr) hb
      · rw [he, State.mapForType_station (by simp)]
        exact State.addStation_station _ a
      · rw [State.mapForType_other hne (by simp)]; rfl
      · rw [hts]; rfl
    · rw [exec_declareNode_new hm hs hty h1 h2 hf hn, if_pos (by omega)]
      rfl
    · rw [exec_declareNode_old hm hs hty h1 h2 hf hr, if_pos he]
      rfl
    · rw [exec_declareNode_old hm hs hty h1 h2 hf hr, if_neg hne, if_pos (State.nodeNamed_iff.mpr hnamed)]
      rfl
    · have hun : ¬ s.nodeNamed a = true := by
        rw [State.nodeNamed_iff]
        rintro (⟨c, hc, e⟩ | ⟨t, f, ht, hf, hne⟩ | ⟨b, hb, k, e, hk⟩)
        · exact h3 c hc e
        · exact hne (h4 t f ht hf)
        · exact h5 b hb k e hk
      obtain ⟨ts, hts⟩ := (s.retype a ty serial).mapForType_frame a (some r.type) ty
      refine ⟨(s.retype a ty serial).mapForType a (some r.type) ty, ?_, ?_, fun he => ?_, fun he => ?_, fun hst hrs => ?_, ?_⟩
      · rw [exec_declareNode_old hm hs hty h1 h2 hf hr, if_neg hne, if_neg hun]
        rfl
      · rw [hts]; rfl
      · subst he
        rw [State.mapForType_station (by simpa using hne)]
        exact State.addStation_station _ a
      · rw [he, State.mapForType_left (by rw [he] at hne; exact hne.symm)]
        rfl
      · rw [State.mapForType_other hst (by simpa using hrs)]
        rfl
      · rw [hts]; rfl
  · show answered _ _ (s.configEdit _) = _
    rw [State.configEdit_served hm hs, hty]
    dsimp only
    rw [if_neg (by omega), if_pos (State.enrolHolds_true he hea)]
    rfl
  · show answered _ _ (s.configEdit _) = _
    rw [State.configEdit_served hm hs, if_neg (by omega), if_neg (by simpa [Option.ne_none_iff_isSome] using hn), if_pos (State.enrolHolds_true he hea)]
    rfl
  · show answered _ _ (s.configEdit _) = _
    rw [State.configEdit_served hm hs]
    cases hty : nodeType? code with
    | none => rfl
    | some ty =>
      dsimp only
      rw [if_pos (h.elim .inl fun h => h.elim .inr fun h => absurd (hty.symm.trans h) (by simp))]
      rfl
  · show answered _ _ (s.configEdit _) = _
    rw [State.configEdit_served hm hs, if_pos h]
    rfl
  · show answered _ _ (s.configEdit _) = _
    rw [State.configEdit_served hm hs, if_neg (by omega), hn]
    rfl
  · intro s tag a r gone left hord hm hs h1 h2 hr hfree hgone hleft
    obtain ⟨-, hchan, hscenes, -⟩ := hord
    have hl : left = fun sc => sc.leftBy gone := funext fun sc => Bool.eq_iff_iff.mpr (by rw [hleft, Scene.leftBy_iff])
    subst hl
    have hg : (fun x => decide (x ∈ (s.channels.filter fun c => decide (c.cfg.node = a)).map (·.cfg.num))) = gone := by
      funext n
      rw [Bool.eq_iff_iff, hgone, decide_eq_true_eq]
      simp [and_assoc]
    obtain ⟨d, hd, de, ds, db⟩ := State.foldl_dropChannel ((s.channels.filter fun c => decide (c.cfg.node = a)).map (·.cfg.num)) hscenes {}
    rw [hg] at hd de ds db
    have hrem : s.removeNode a = ({ s.without gone with
          stations := tableErase (·.addr) a s.stations, nodes := tableErase (·.addr) a s.nodes
          bindings := (s.without gone).bindings.filter fun b => !b.keyedBy a },
        { d with channels := ((s.channels.filter fun c => decide (c.cfg.node = a)).map (·.cfg.num)).length
                 bindings := d.bindings + ((s.without gone).bindings.filter fun b => b.keyedBy a).length }) := by
      simp only [State.removeNode, hd]
      rfl
    have hb := List.length_eq_length_filter_add (l := (s.without gone).bindings) fun b => b.keyedBy a
    refine ⟨(s.removeNode a).1, (s.removeNode a).2, ?_, ?_⟩
    · show answered _ _ (s.configEdit _) = _
      rw [State.configEdit_served hm hs, if_neg (by omega), hr, if_neg (by simp), State.enrolHolds_false hfree, if_neg (by simp)]
      rfl
    rw [hrem]
    refine ⟨rfl, rfl, ?_, ?_, fun b => ?_, ?_, ?_, ?_, ?_, ?_, rfl⟩
    · refine List.filter_congr fun c hc => ?_
      rw [Bool.eq_iff_iff, Bool.not_eq_true', Bool.eq_false_iff, Ne, hgone, decide_eq_true_eq]
      refine ⟨fun h e => h ⟨c, hc, e, rfl⟩, ?_⟩
      rintro h ⟨x, hx, e, hn⟩
      rw [Channel.num_inj hchan hx hc hn] at e
      exact h e
    · rfl
    · simp only [State.without, List.mem_filter, Binding.outlives_iff, Binding.keyedBy_iff, Bool.not_eq_true', Bool.eq_false_iff, Ne]
      simp only [not_exists]
      tauto
    · exact List.filter_sublist.trans List.filter_sublist
    · simp
    · exact Nat.eq_sub_of_add_eq (de.trans (Nat.zero_add _))
    · exact Nat.eq_sub_of_add_eq (ds.trans (Nat.zero_add _))
    · show d.bindings + _ = s.bindings.length - _
      rw [Nat.zero_add] at db
      dsimp only
      omega

end Sys2Proof.Proofs
end

section
/-!
PROOFS. The scene engine (chapter 4): scene definitions, the binding table and the events that fire it (O33 to O35).
-/

namespace Sys2Proof.Machine

/-! ## Scene entries (R69 to R71) -/

theorem sceneEntries_length (n : Nat) {p : List Byte} (h : p.length / 3 = n) : (sceneEntries p).length = n := by
  induction n generalizing p with
  | zero =>
    match p, h with
    | [], _ => rfl
    | [_], _ => rfl
    | [_, _], _ => rfl
    | _ :: _ :: _ :: _, h => simp only [List.length_cons] at h; omega
  | succ n ih =>
    match p, h with
    | [], h => simp at h
    | [_], h => simp at h
    | [_, _], h => simp at h
    | _ :: _ :: _ :: rest, h =>
      simp only [List.length_cons] at h
      rw [sceneEntries, List.length_cons, ih (by omega)]

theorem entriesInRange_iff {es : List SceneEntry} : entriesInRange es = true ↔ ∀ e ∈ es, 1 ≤ e.channel ∧ e.channel ≤ 96 := by
  simp [entriesInRange]

theorem entriesRepeat_iff {es : List SceneEntry} : entriesRepeat es = true ↔ ¬ es.Pairwise (fun a b => a.channel ≠ b.channel) := by
  induction es with
  | nil => simp [entriesRepeat]
  | cons e es ih =>
    rw [entriesRepeat, Bool.or_eq_true, ih, List.pairwise_cons, List.any_eq_true, not_and_or]
    refine or_congr_left ?_
    simp [eq_comm]

theorem tablePut_perm {α : Type} (key : α → Nat) {x : α} {t : List α} (h : ∀ y ∈ t, key y ≠ key x) : (tablePut key x t).Perm (x :: t) := by
  induction t with
  | nil => exact .refl _
  | cons y ys ih =>
    simp only [tablePut]
    split
    · exact .refl _
    · rw [if_neg (h y List.mem_cons_self).symm]
      exact ((ih fun z hz => h z (List.mem_cons_of_mem _ hz)).cons y).trans (.swap _ _ _)

/-- Entries that name no channel twice join a list, whatever their order. -/
theorem addEntries_perm {old new : List SceneEntry} (h1 : new.Pairwise fun a b => a.channel ≠ b.channel)
    (h2 : ∀ e ∈ new, ∀ f ∈ old, f.channel ≠ e.channel) : (addEntries old new).Perm (old ++ new) := by
  induction new generalizing old with
  | nil => simp [addEntries]
  | cons e es ih =>
    obtain ⟨he, hes⟩ := List.pairwise_cons.mp h1
    have hp := tablePut_perm (fun e : SceneEntry => e.channel) (h2 e List.mem_cons_self)
    refine (ih hes fun x hx f hf => ?_).trans ((hp.append_right es).trans List.perm_middle.symm)
    obtain rfl | hf := mem_tablePut (key := _) hf
    · exact he x hx
    · exact h2 x (List.mem_cons_of_mem _ hx) f hf

theorem addEntries_rising {old new : List SceneEntry} (h : Rising (old.map (·.channel))) :
    Rising ((addEntries old new).map (·.channel)) := by
  induction new generalizing old with
  | nil => exact h
  | cons e es ih => exact ih (tablePut_ordered (key := _) h)

/-- A complete definition with a channel undefined is refused, and closes the build. -/
theorem State.completeScene_undefined {s : State} {b : SceneBuild} (h : ∃ e ∈ b.entries, s.channel e.channel = none) :
    s.completeScene b = State.refuse { s with build := none } .notFound := if_pos (by simpa [State.channel] using h)

/-- The state with a build committed as its scene (R71). -/
def State.commitScene (s : State) (b : SceneBuild) : State :=
  { s with build := none, scenes := tablePut (·.num) ⟨b.scene, b.fade, b.entries⟩ s.scenes }

theorem State.commitScene_scene (s : State) (b : SceneBuild) : (s.commitScene b).scene b.scene = some ⟨b.scene, b.fade, b.entries⟩ :=
  tableGet_tablePut_self (fun sc : Scene => sc.num) ⟨b.scene, b.fade, b.entries⟩ s.scenes

theorem State.commitScene_other (s : State) (b : SceneBuild) {n : Nat} (h : n ≠ b.scene) : (s.commitScene b).scene n = s.scene n :=
  tableGet_tablePut_other (fun sc : Scene => sc.num) h

/-- A complete definition of defined channels is refused where the pool has no room for it, and is committed otherwise. -/
theorem State.completeScene_defined {s : State} {b : SceneBuild} (h : ∀ e ∈ b.entries, (s.channel e.channel).isSome = true)
    (hp : s.poolUsed ≤ 1024) : s.completeScene b =
      if 1024 + ((s.scene b.scene).map (·.entries.length)).getD 0 < b.entries.length + s.poolUsed then
        State.refuse { s with build := none } .full
      else ⟨s.commitScene b, .ok, .sceneStored b.entries.length (s.commitScene b).poolFree⟩ := by
  have hn : ¬ (b.entries.any fun e => (State.channel { s with build := none } e.channel).isNone) = true := by
    simp only [List.any_eq_true, not_exists, not_and, Option.isNone_iff_eq_none]
    exact fun e he hc => by have := h e he; rw [show s.channel e.channel = none from hc] at this; cases this
  refine (if_neg hn).trans (if_congr ?_ rfl rfl)
  simp only [State.poolFree]
  exact ⟨fun h => by change 1024 - s.poolUsed + ((s.scene b.scene).map _).getD 0 < _ at h; omega,
    fun h => by change 1024 - s.poolUsed + ((s.scene b.scene).map _).getD 0 < _; omega⟩

/-- DEFINE_SCENE of a payload of a right length, with no save running. -/
theorem exec_defineScene {s : State} {p : List Byte} (hs : s.store.state ≠ .saving) (h1 : 9 ≤ p.length) (h2 : p.length ≤ 246)
    (h3 : p.length % 3 = 0) (tag : Byte) : exec (.defineScene tag p) s = answered 0x28 tag (s.defineScene p) := by
  refine congrArg (answered _ _) ((if_neg ?_).trans (if_neg ?_))
  · simpa [State.saving] using hs
  · omega

/-- SCENE_PART of a payload of a right length, with no save running, for the open build's scene. -/
theorem exec_scenePart {s : State} {p : List Byte} {b : SceneBuild} (hs : s.store.state ≠ .saving) (h1 : 4 ≤ p.length)
    (h2 : p.length ≤ 247) (h3 : p.length % 3 = 1) (hb : s.build = some b) (hsc : b.scene = field p 0 1) (tag : Byte) :
    exec (.scenePart tag p) s = answered 0x29 tag (s.scenePart b (sceneEntries (p.drop 1))) := by
  have hsave : ¬ s.saving = true := by simpa [State.saving] using hs
  show answered _ _ (if _ then _ else if _ then _ else _) = _
  rw [if_neg hsave, if_neg (by omega), hb]
  exact congrArg (answered _ _) (if_pos hsc)

/-- DEFINE_SCENE's payload with its fields in range: a build of its entries, complete or left open. -/
theorem State.defineScene_inRange {s : State} {p : List Byte} (h1 : 1 ≤ field p 0 1) (h2 : field p 0 1 ≤ 64) (h3 : 0 < field p 5 1)
    (h4 : field p 5 1 ≤ 96) (h5 : (sceneEntries (p.drop 6)).length ≤ field p 5 1)
    (h6 : ∀ e ∈ sceneEntries (p.drop 6), 1 ≤ e.channel ∧ e.channel ≤ 96)
    (h7 : (sceneEntries (p.drop 6)).Pairwise fun a b => a.channel ≠ b.channel) :
    s.defineScene p =
      if (sceneEntries (p.drop 6)).length = field p 5 1 then
        s.completeScene ⟨field p 0 1, min (field p 1 4) 600000, field p 5 1, addEntries [] (sceneEntries (p.drop 6))⟩
      else ⟨{ s with build := some ⟨field p 0 1, min (field p 1 4) 600000, field p 5 1, addEntries [] (sceneEntries (p.drop 6))⟩ }, .ok,
        .sceneProgress (sceneEntries (p.drop 6)).length (field p 5 1)⟩ := by
  refine if_neg ?_
  rw [entriesInRange_iff, entriesRepeat_iff]
  rintro (h | h | h | h | h | h | h)
  · omega
  · omega
  · omega
  · omega
  · omega
  · exact h h6
  · exact absurd h7 h

/-- SCENE_PART's entries in range, none named twice and none in the build already, with room in it: they join the build. -/
theorem State.scenePart_joins {s : State} {b : SceneBuild} {es : List SceneEntry} (h1 : b.entries.length + es.length ≤ b.total)
    (h2 : ∀ e ∈ es, 1 ≤ e.channel ∧ e.channel ≤ 96) (h3 : es.Pairwise fun a b => a.channel ≠ b.channel)
    (h4 : ∀ e ∈ es, ∀ f ∈ b.entries, f.channel ≠ e.channel) :
    s.scenePart b es = if (addEntries b.entries es).length = b.total then s.completeScene { b with entries := addEntries b.entries es }
      else ⟨{ s with build := some { b with entries := addEntries b.entries es } }, .ok,
        .sceneProgress (addEntries b.entries es).length b.total⟩ := by
  refine if_neg ?_
  rw [entriesInRange_iff, entriesRepeat_iff]
  rintro (h | h | h | h)
  · omega
  · exact h h2
  · exact absurd h3 h
  · simp only [List.any_eq_true, decide_eq_true_eq] at h
    obtain ⟨e, he, f, hf, hc⟩ := h
    exact h4 e he f hf hc

/-- SCENE_PART with an entry too many, out of range, named twice or in the build already closes the build. -/
theorem State.scenePart_closes {s : State} {b : SceneBuild} {es : List SceneEntry} (h : b.total < b.entries.length + es.length
    ∨ (∃ e ∈ es, e.channel < 1 ∨ 96 < e.channel) ∨ ¬ es.Pairwise (fun a b => a.channel ≠ b.channel)
    ∨ ∃ e ∈ es, ∃ f ∈ b.entries, f.channel = e.channel) : s.scenePart b es = State.refuse { s with build := none } .badValue := by
  refine if_pos ?_
  rw [entriesInRange_iff, entriesRepeat_iff]
  refine h.imp id (.imp (fun ⟨e, he, ho⟩ hall => ?_) (.imp id fun h => by simpa using h))
  have := hall e he
  omega

/-! ## Events and bindings (R78, R80, R81) -/

theorem State.take_bindings (s : State) (n : Nat) (src : TakeSource) : (s.take n src).bindings = s.bindings := by
  obtain ⟨cs, lt, h, -⟩ := s.take_frame n src; rw [h]

theorem State.toggle_bindings (s : State) (n : Nat) : (s.toggle n).bindings = s.bindings := by
  obtain ⟨cs, h, -⟩ := s.toggle_frame n; rw [h]

/-- A binding with its fire count raised by 1, saturating at 65,535 (R80). -/
def Binding.bump (b : Binding) : Binding := { b with fires := min (b.fires + 1) 65535 }

theorem State.fire_bindings (s : State) (b : Binding) : (s.fire b).bindings = tableModify (·.slot) b.slot Binding.bump s.bindings := by
  unfold State.fire
  dsimp only
  split
  · exact State.take_bindings _ _ _
  · rfl
  · exact State.toggle_bindings _ _

/-- Bindings that fire one after the other, in slots of their own, each raise their own fire count. -/
theorem State.foldl_fire_bindings {fs : List Binding} (h : (fs.map (·.slot)).Nodup) (s : State) :
    (fs.foldl State.fire s).bindings = s.bindings.map fun b => if b.slot ∈ fs.map (·.slot) then b.bump else b := by
  induction fs generalizing s with
  | nil => simp
  | cons f fs ih =>
    obtain ⟨hf, hfs⟩ := List.nodup_cons.mp h
    rw [List.foldl_cons, ih hfs, State.fire_bindings, tableModify, List.map_map]
    refine List.map_congr_left fun b _ => ?_
    simp only [Function.comp, List.map_cons, List.mem_cons]
    by_cases hb : b.slot = f.slot
    · have h1 : (if b.slot = f.slot then b.bump else b) = b.bump := if_pos hb
      rw [h1, if_pos (c := b.slot = f.slot ∨ _) (.inl hb)]
      exact if_neg (show b.slot ∉ _ from hb ▸ hf)
    · have h1 : (if b.slot = f.slot then b.bump else b) = b := if_neg hb
      rw [h1]
      exact if_congr (by rw [or_iff_right hb]) rfl rfl

theorem ChannelsStaged.getElem? {cs ds : List Channel} (h : ChannelsStaged cs ds) {n : Nat} {c : Channel} (hc : cs[n]? = some c) :
    ∃ c', ds[n]? = some c' ∧ { c' with staged := c.staged, untouched := c.untouched } = c := by
  induction h generalizing n with
  | nil => cases hc
  | @cons a b as bs hab hrest ih =>
    cases n with
    | zero => cases hc; exact ⟨b, rfl, hab⟩
    | succ n => exact ih hc

/-- A toggle of a channel, which its number alone has. -/
theorem State.toggle_channels {s : State} (h : Rising (s.channels.map (·.cfg.num))) (n : Nat) :
    (s.toggle n).channels = s.channels.map fun c =>
      if c.cfg.num = n then
        { c with staged := some ⟨if 0 < c.pendingLevel then 0 else conditionLevel c.cfg.kind c.cfg.preset, 0⟩, untouched := false }
      else c := by
  unfold State.toggle
  cases hn : s.channel n with
  | none =>
    refine ((List.map_congr_left fun c hc => ?_).trans (List.map_id _)).symm
    exact if_neg ((tableGet_eq_none_iff (key := _)).mp hn c hc)
  | some x =>
    obtain ⟨hx, hxn⟩ := tableGet_eq_some_imp (key := _) hn
    refine List.map_congr_left fun c hc => ?_
    by_cases hcn : c.cfg.num = n
    · obtain rfl : c = x := Channel.num_inj h hc hx (hcn.trans hxn.symm)
      simp only [hcn, if_true]
      split
      · have h0 : conditionLevel c.cfg.kind 0 = 0 := by cases c.cfg.kind <;> rfl
        rw [h0]; rfl
      · rfl
    · simp only [hcn, if_false]

end Sys2Proof.Machine

namespace Sys2Proof.Proofs

open Sys2Proof.Machine

/-- Settles O33: the build's entries are those given, put in order; a complete one is checked and committed. -/
theorem scenesDefined : Obligations.ScenesDefined := by
  refine ⟨?_, ?_, ?_, ?_⟩
  · intro s tag p scene fade es hs h1 h2 h3 hscene hfade hes htotal h4 h5 h6 h7 h8
    subst hscene hfade hes
    have hlen := sceneEntries_length _ (p := p.drop 6) rfl
    rw [List.length_drop] at hlen
    have hperm : (addEntries [] (sceneEntries (p.drop 6))).Perm (sceneEntries (p.drop 6)) := addEntries_perm (old := []) h8 (by simp)
    rw [exec_defineScene hs h1 h2 h3, State.defineScene_inRange h4 h5 (by omega) (by omega) (by omega) h7 h8, if_pos htotal.symm]
    refine ⟨fun hd hroom hpool => ?_, fun hun => ?_, fun hd hroom hpool => ?_⟩
    · rw [State.completeScene_defined (fun e he => hd e (hperm.mem_iff.mp he)) hpool, if_neg (by rw [hperm.length_eq]; dsimp only; omega), hperm.length_eq]
      exact ⟨_, _, rfl, s.commitScene_scene _, rfl, rfl, hperm, addEntries_rising .nil, fun n hn => s.commitScene_other _ hn, rfl, rfl⟩
    · rw [State.completeScene_undefined]
      · rfl
      · obtain ⟨e, he, hn⟩ := hun
        exact ⟨e, hperm.mem_iff.mpr he, hn⟩
    · rw [State.completeScene_defined (fun e he => hd e (hperm.mem_iff.mp he)) hpool, if_pos (by rw [hperm.length_eq]; dsimp only; omega)]
      rfl
  · intro s tag p hs
    refine ⟨fun scene total es h1 h2 h3 hscene htotal hes => ⟨fun h4 h5 h6 h7 h8 h9 => ?_, fun h => ?_⟩, fun h => ?_, fun h => ?_⟩
    · subst hscene htotal hes
      have hperm : (addEntries [] (sceneEntries (p.drop 6))).Perm (sceneEntries (p.drop 6)) := addEntries_perm (old := []) h9 (by simp)
      rw [exec_defineScene hs h1 h2 h3, State.defineScene_inRange h4 h5 (by omega) h7 (by omega) h8 h9, if_neg (by omega)]
      exact ⟨_, rfl, rfl, rfl, rfl, hperm, addEntries_rising .nil⟩
    · subst hscene htotal hes
      rw [exec_defineScene hs h1 h2 h3]
      refine congrArg (answered _ _) (if_pos ?_)
      rw [entriesInRange_iff, entriesRepeat_iff]
      refine h.imp id (.imp id (.imp id (.imp id (.imp id (.imp (fun ⟨e, he, ho⟩ hall => ?_) id)))))
      have := hall e he
      omega
    · exact congrArg (answered _ _) ((if_neg (by simpa [State.saving] using hs)).trans (if_pos h))
    · exact congrArg (answered _ _) ((if_neg (by simpa [State.saving] using hs)).trans (if_pos h))
  · intro s tag p es hs h1 h2 h3 hes h4 h5
    subst hes
    refine ⟨fun b hb hsc hrise => ?_, fun h => ?_⟩
    · rw [exec_scenePart hs h1 h2 h3 hb hsc]
      refine ⟨fun hlt hnew => ?_, fun heq hnew hd hpool hroom => ?_, fun h => ?_, fun heq hnew => ⟨fun hun => ?_, fun hd hpool hroom => ?_⟩⟩
      · have hperm := addEntries_perm h5 hnew
        rw [State.scenePart_joins (by omega) h4 h5 hnew, if_neg (by rw [hperm.length_eq, List.length_append]; omega), hperm.length_eq,
          List.length_append]
        exact ⟨_, rfl, rfl, rfl, rfl, hperm, addEntries_rising hrise⟩
      · have hperm := addEntries_perm h5 hnew
        have hlen := hperm.length_eq
        rw [List.length_append] at hlen
        rw [State.scenePart_joins (by omega) h4 h5 hnew, if_pos (by omega),
          State.completeScene_defined (fun e he => hd e (hperm.mem_iff.mp he)) hpool, if_neg (by dsimp only; omega)]
        rw [hlen, heq]
        exact ⟨_, _, rfl, s.commitScene_scene _, rfl, hperm, addEntries_rising hrise, fun n hn => s.commitScene_other _ hn, rfl, rfl⟩
      · rw [State.scenePart_closes (h.imp id fun h => .inr (.inr h))]
        rfl
      · have hperm := addEntries_perm h5 hnew
        have hlen := hperm.length_eq
        rw [List.length_append] at hlen
        obtain ⟨e, he, hn⟩ := hun
        rw [State.scenePart_joins (by omega) h4 h5 hnew, if_pos (by omega),
          State.completeScene_undefined ⟨e, hperm.mem_iff.mpr he, hn⟩]
        rfl
      · have hperm := addEntries_perm h5 hnew
        have hlen := hperm.length_eq
        rw [List.length_append] at hlen
        rw [State.scenePart_joins (by omega) h4 h5 hnew, if_pos (by omega),
          State.completeScene_defined (fun e he => hd e (hperm.mem_iff.mp he)) hpool, if_pos (by dsimp only; omega)]
        rfl
    · show answered _ _ (if _ then _ else if _ then _ else _) = _
      rw [if_neg (by simpa [State.saving] using hs), if_neg (by omega)]
      cases hb : s.build with
      | none => rfl
      | some b => exact congrArg (answered _ _) (if_neg (h b hb))
  · intro s tag p es b hs h1 h2 h3 hes hb hsc h
    subst hes
    rw [exec_scenePart hs h1 h2 h3 hb hsc, State.scenePart_closes (.inr (h.imp id .inl))]
    rfl

/-- Settles O34: each edit erases or puts one record, and REMOVE_SCENE filters the bindings. -/
theorem sceneAndBindingEdits : Obligations.SceneAndBindingEdits := by
  refine ⟨fun s tag n hs h1 h2 => ⟨fun sc hsc => ?_, fun hn => ?_, fun b hb => ?_, fun hn => ?_⟩,
    fun s tag slot tk ak tb ab t a hs h1 h2 ht ha => ⟨fun hrec hkey => ?_, fun hrec => ?_, fun hrec hkey => ?_⟩⟩
  all_goals have hsave : ¬ s.saving = true := by simpa [State.saving] using hs
  · have hb : (fun b : Binding => decide (b.action = .takeScene n)) = fun b => b.takes n := rfl
    refine ⟨s.dropScene n, ?_, rfl, List.filter_congr fun b _ => by simp [Binding.takes], rfl⟩
    show answered _ _ (if _ then _ else if _ then _ else _) = _
    rw [if_neg hsave, if_neg (by omega), hsc, List.countP_eq_length_filter]
    rfl
  · show answered _ _ (if _ then _ else if _ then _ else _) = _
    rw [if_neg hsave, if_neg (by omega), hn]
    rfl
  · show answered _ _ (if _ then _ else if _ then _ else _) = _
    rw [if_neg hsave, if_neg (by omega), hb]
    rfl
  · show answered _ _ (if _ then _ else if _ then _ else _) = _
    rw [if_neg hsave, if_neg (by omega), hn]
    rfl
  all_goals
    have hexec : ∀ r : Served, (if ¬ s.bindingNamesRecords t a then s.refuse .notFound
        else if ¬ s.keyTriggerFits t then s.refuse .badValue
        else ⟨{ s with bindings := tablePut (·.slot) ⟨slot, t, a, 0⟩ s.bindings }, .ok, .bindingStored a.fade⟩) = r →
        exec (.setBinding tag slot tk tb ak ab) s = answered 0x2D tag r := fun r hr => by
      show answered _ _ (if _ then _ else if _ then _ else _) = _
      rw [if_neg hsave, if_neg (by omega), ht, ha]
      exact congrArg (answered _ _) hr
  · refine ⟨{ s with bindings := tablePut (·.slot) ⟨slot, t, a, 0⟩ s.bindings },
      hexec _ ((if_neg (not_not.mpr hrec)).trans (if_neg (not_not.mpr hkey))), ?_, fun n hn => ?_, rfl⟩
    · exact tableGet_tablePut_self (fun b : Binding => b.slot) ⟨slot, t, a, 0⟩ _
    · exact tableGet_tablePut_other (fun b : Binding => b.slot) hn
  · exact hexec _ (if_pos (by simp [hrec]))
  · exact hexec _ ((if_neg (not_not.mpr hrec)).trans (if_pos (by simp [hkey])))

/-- Settles O35: an event offered folds over the bindings it matches, each in a slot of its own. -/
theorem eventsFireBindings : Obligations.EventsFireBindings := by
  refine fun s e => ⟨fun h => s.offer_idle e h, fun hm hord => ?_⟩
  obtain ⟨-, hchan, -, hbind, -⟩ := hord
  have ho : s.offer e = (s.bindings.filter fun b => decide (b.trigger = e)).foldl State.fire s := if_pos hm
  have hinj : ∀ a ∈ s.bindings, ∀ b ∈ s.bindings, a.slot = b.slot → a = b := fun a ha b hb =>
    List.inj_on_of_nodup_map (hbind.imp fun h => Nat.ne_of_lt h) ha hb
  obtain ⟨bs, cs, lt, hfr, -, hcs⟩ := s.offer_frame e
  refine ⟨?_, by rw [hfr], fun n c hc => ?_, fun h => ?_, fun b n hb ha => ?_⟩
  · rw [ho, State.foldl_fire_bindings]
    · refine List.map_congr_left fun b hb => if_congr ?_ rfl rfl
      simp only [List.mem_map, List.mem_filter, decide_eq_true_eq]
      refine ⟨?_, fun h => ⟨b, ⟨hb, h⟩, rfl⟩⟩
      rintro ⟨x, ⟨hx, ht⟩, hs⟩
      rwa [← hinj x hx b hb hs]
    · exact List.Nodup.sublist (List.filter_sublist.map _) (hbind.imp fun h => Nat.ne_of_lt h)
  · rw [hfr]
    exact hcs.getElem? hc
  · rw [ho, List.filter_eq_nil_iff.mpr fun b hb => by simpa using h b hb]
    rfl
  · rw [ho, hb, List.foldl_cons, List.foldl_nil, State.fire, ha]
    show (State.toggle { s with bindings := tableModify (·.slot) b.slot Binding.bump s.bindings } n).channels = _
    rw [State.toggle_channels (s := { s with bindings := tableModify (·.slot) b.slot Binding.bump s.bindings }) hchan]
    refine List.map_congr_left fun c _ => ?_
    obtain ⟨cfg, current, target, fade, _ | staged, _⟩ := c <;> rfl

end Sys2Proof.Proofs
end

section
/-!
PROOFS. The refresh tick and the load allocator (chapters 3 and 5): the tick, the draw, reviews and admissions (O31, O36 to O38).
-/

namespace Sys2Proof.Machine

/-! ## Asking for a transaction (R17, R18) -/

/-- The moment of an expiry moves the uptime alone. -/
theorem State.atMoment_eq (s : State) (e : Uptime) : s.atMoment e = { s with uptime := (s.atMoment e).uptime } := by
  unfold State.atMoment; split <;> rfl

theorem Entry.isFor_iff {x : Entry} {k : TxKind} {a : Nat} : x.isFor k a = true ↔ x.kind = k ∧ x.target = a := by simp [Entry.isFor]

theorem Entry.absorb_for (x : Entry) : x.absorb.kind = x.kind ∧ x.absorb.target = x.target := by
  unfold Entry.absorb; split <;> exact ⟨rfl, rfl⟩

/-- What asking for a transaction does to the outbound queue: each entry stays in its place, absorbing at most, and one of the kind
and target joins where none absorbs it. -/
theorem State.askTx_queue (s : State) (k : TxKind) (a : Nat) :
    ∃ q, s.askTx k a = s.onBus (fun b => { b with queue := q })
      ∧ (∀ y ∈ q, y ∈ s.bus.queue ∨ (y.kind = k ∧ y.target = a))
      ∧ (∀ x ∈ s.bus.queue, ∃ y ∈ q, y.kind = x.kind ∧ y.target = x.target)
      ∧ q.length ≤ s.bus.queue.length + 1
      ∧ (k.merges = true → s.bus.state ≠ .recovery → s.mode ≠ .config → s.bus.queue.length < 16 → ∃ y ∈ q, y.kind = k ∧ y.target = a) := by
  unfold State.askTx State.queueTx
  split
  · exact ⟨_, rfl, fun y hy => .inl hy, fun x hx => ⟨x, hx, rfl, rfl⟩, Nat.le_succ _, fun _ h => absurd ‹_› h⟩
  · split
    · rename_i hm
      exact ⟨_, rfl, fun y hy => .inl hy, fun x hx => ⟨x, hx, rfl, rfl⟩, Nat.le_succ _, fun _ _ h => absurd (by simp [State.modeTakes, h]) hm⟩
    · split
      · rename_i hany
        refine ⟨_, rfl, fun y hy => ?_, fun x hx => ⟨_, List.mem_map_of_mem hx, ?_⟩, by simp, fun _ _ _ _ => ?_⟩
        · obtain ⟨x, hx, rfl⟩ := List.mem_map.mp hy
          split
          · rename_i hf
            obtain ⟨h1, h2⟩ := x.absorb_for
            obtain ⟨hk, ht⟩ := Entry.isFor_iff.mp hf
            exact .inr ⟨h1.trans hk, h2.trans ht⟩
          · exact .inl hx
        · split
          · exact x.absorb_for
          · exact ⟨rfl, rfl⟩
        · obtain ⟨x, hx, hf⟩ := List.any_eq_true.mp hany.2
          obtain ⟨h1, h2⟩ := x.absorb_for
          obtain ⟨hk, ht⟩ := Entry.isFor_iff.mp hf
          exact ⟨_, List.mem_map_of_mem hx, by rw [if_pos hf]; exact ⟨h1.trans hk, h2.trans ht⟩⟩
      · split
        · exact ⟨_, rfl, fun y hy => .inl hy, fun x hx => ⟨x, hx, rfl, rfl⟩, Nat.le_succ _, fun _ _ _ h => absurd h (by omega)⟩
        · refine ⟨_, rfl, fun y hy => ?_, fun x hx => ⟨x, List.mem_append_left _ hx, rfl, rfl⟩, by simp, fun _ _ _ _ =>
            ⟨_, List.mem_append_right _ (List.mem_singleton_self _), rfl, rfl⟩⟩
          obtain hy | hy := List.mem_append.mp hy
          · exact .inl hy
          · obtain rfl := List.mem_singleton.mp hy
            exact .inr ⟨rfl, rfl⟩

/-- LEVELS asked for a list of records, one after the other. -/
theorem State.foldl_askLevels (rs : List NodeRecord) (s : State) :
    ∃ q, rs.foldl (fun s r => s.askTx .levels r.addr) s = s.onBus (fun b => { b with queue := q })
      ∧ (∀ y ∈ q, y ∈ s.bus.queue ∨ (y.kind = .levels ∧ ∃ r ∈ rs, r.addr = y.target))
      ∧ (∀ x ∈ s.bus.queue, ∃ y ∈ q, y.kind = x.kind ∧ y.target = x.target)
      ∧ (s.bus.state ≠ .recovery → s.mode ≠ .config → s.bus.queue.length + rs.length ≤ 16 →
        ∀ r ∈ rs, ∃ y ∈ q, y.kind = .levels ∧ y.target = r.addr) := by
  induction rs generalizing s with
  | nil => exact ⟨s.bus.queue, rfl, fun y hy => .inl hy, fun x hx => ⟨x, hx, rfl, rfl⟩, fun _ _ _ r hr => by cases hr⟩
  | cons r rs ih =>
    obtain ⟨q, hq, hin, hkeep, hlen, hask⟩ := s.askTx_queue .levels r.addr
    obtain ⟨q', hq', hin', hkeep', hask'⟩ := ih (s.askTx .levels r.addr)
    rw [hq] at hq' hin' hkeep' hask'
    refine ⟨q', by rw [List.foldl_cons, hq, hq']; rfl, fun y hy => ?_, fun x hx => ?_, fun h1 h2 h3 x hx => ?_⟩
    · obtain hy | ⟨hk, x, hx, ht⟩ := hin' y hy
      · exact (hin y hy).imp_right fun ⟨hk, ht⟩ => ⟨hk, r, List.mem_cons_self, ht.symm⟩
      · exact .inr ⟨hk, x, List.mem_cons_of_mem _ hx, ht⟩
    · obtain ⟨y, hy, hk, ht⟩ := hkeep x hx
      obtain ⟨z, hz, hk', ht'⟩ := hkeep' y hy
      exact ⟨z, hz, hk'.trans hk, ht'.trans ht⟩
    · rw [List.length_cons] at h3
      obtain rfl | hx := List.mem_cons.mp hx
      · obtain ⟨y, hy, hk, ht⟩ := hask rfl h1 h2 (by omega)
        obtain ⟨z, hz, hk', ht'⟩ := hkeep' y hy
        exact ⟨z, hz, hk'.trans hk, ht'.trans ht⟩
      · exact hask' h1 h2 (by show q.length + rs.length ≤ 16; omega) x hx

/-! ## The refresh tick (R52 to R56) and the restore ramp (R91) -/

theorem State.hasUnsent_iff {s : State} {a : Nat} : s.hasUnsent a = true
    ↔ ∃ c ∈ s.channels, c.cfg.node = a ∧ c.lastSent ≠ some (min c.current c.ceiling) := by
  unfold State.hasUnsent
  rw [List.any_eq_true]
  exact exists_congr fun c => and_congr_right' (decide_eq_true_iff.trans (and_congr_right' decide_eq_true_iff))

/-- LEVELS is asked for the ACTIVE nodes with an unsent channel, and for no other. -/
theorem State.requestLevels_queue (s : State) :
    ∃ q, s.requestLevels = s.onBus (fun b => { b with queue := q })
      ∧ (∀ y ∈ q, y ∈ s.bus.queue ∨ (y.kind = .levels ∧ ∃ r ∈ s.nodes, r.addr = y.target ∧ r.state = .active ∧ s.hasUnsent r.addr = true))
      ∧ (s.bus.state ≠ .recovery → s.mode ≠ .config → s.bus.queue.length + s.nodes.length ≤ 16 →
        ∀ r ∈ s.nodes, r.state = .active → s.hasUnsent r.addr = true → ∃ y ∈ q, y.kind = .levels ∧ y.target = r.addr) := by
  obtain ⟨q, hq, hin, -, hask⟩ := State.foldl_askLevels (s.nodes.filter fun r => decide (r.state = .active ∧ s.hasUnsent r.addr = true)) s
  have hmem : ∀ r, r ∈ s.nodes.filter (fun r => decide (r.state = .active ∧ s.hasUnsent r.addr = true))
      ↔ r ∈ s.nodes ∧ r.state = .active ∧ s.hasUnsent r.addr = true := fun r => by simp
  refine ⟨q, hq, fun y hy => (hin y hy).imp_right ?_, fun h1 h2 h3 r hr ha hu => ?_⟩
  · rintro ⟨hk, r, hr, ht⟩
    obtain ⟨hr, ha, hu⟩ := (hmem r).mp hr
    exact ⟨hk, r, hr, ht, ha, hu⟩
  · have := List.length_filter_le (fun r : NodeRecord => decide (r.state = .active ∧ s.hasUnsent r.addr = true)) s.nodes
    exact hask h1 h2 (by omega) r ((hmem r).mpr ⟨hr, ha, hu⟩)

theorem State.rampClass_idle {s : State} {k : Nat} (h : s.classState k ≠ .restoring) : s.rampClass k = s := if_neg h

theorem State.foldl_rampClass_idle {s : State} {ks : List Nat} (h : ∀ j ∈ ks, s.classState j ≠ .restoring) :
    ks.foldl State.rampClass s = s := by
  induction ks with
  | nil => rfl
  | cons k ks ih =>
    rw [List.foldl_cons, State.rampClass_idle (h k List.mem_cons_self)]
    exact ih fun j hj => h j (List.mem_cons_of_mem _ hj)

theorem State.offer_classState (s : State) (e : Trigger) (k : Nat) : (s.offer e).classState k = s.classState k := by
  unfold State.classState; rw [State.offer_alloc]

theorem State.offer_link' (s : State) (e : Trigger) : (s.offer e).link = s.link := by
  obtain ⟨bs, cs, lt, h, -⟩ := s.offer_frame e; rw [h]

/-- An event offered leaves each channel's configuration, level and ceiling. -/
theorem State.offer_channel (s : State) (e : Trigger) {n : Nat} {c : Channel} (hc : s.channels[n]? = some c) :
    ∃ c', (s.offer e).channels[n]? = some c' ∧ c'.cfg = c.cfg ∧ c'.current = c.current ∧ c'.ceiling = c.ceiling := by
  obtain ⟨bs, cs, lt, h, -, hcs⟩ := s.offer_frame e
  obtain ⟨c', hc', he⟩ := hcs.getElem? hc
  exact ⟨c', by rw [h]; exact hc', by rw [← he], by rw [← he], by rw [← he]⟩

/-- The ceilings of a class raised by a step of its ramp. -/
def Channel.ramped (k : Nat) (c : Channel) : Channel := if c.cfg.cls = k then { c with ceiling := min (c.ceiling + 25) 1000 } else c

/-- A RESTORING class's step of the ramp: it ends where every ceiling stands at 1000. -/
theorem State.rampClass_restoring {s : State} {k : Nat} (h : s.classState k = .restoring) : s.rampClass k =
    if ∀ c ∈ s.channels, c.cfg.cls = k → (c.ramped k).ceiling = 1000 then
      ((((s.onChannels (Channel.ramped k)).setClass k .normal).post .restored k []).offer (.shed k .restored))
    else s.onChannels (Channel.ramped k) := by
  have hcls : ∀ c : Channel, (c.ramped k).cfg = c.cfg := fun c => by unfold Channel.ramped; split <;> rfl
  refine (if_pos h).trans (if_congr ?_ rfl rfl)
  show (((s.channels.map (Channel.ramped k)).filter fun c => decide (c.cfg.cls = k)).all fun c => decide (c.ceiling = 1000)) = true ↔ _
  simp only [List.all_eq_true, List.mem_filter, List.mem_map, decide_eq_true_eq]
  constructor
  · exact fun h c hc he => h _ ⟨⟨c, hc, rfl⟩, by rw [hcls]; exact he⟩
  · rintro h _ ⟨⟨c, hc, rfl⟩, he⟩
    exact h c hc (by rwa [hcls] at he)

/-- What a RESTORING class's step of the ramp does: ceilings, the class's own state and the notice. -/
theorem State.rampClass_effect {s : State} {k : Nat} (hk : k ≤ 7) (h : s.classState k = .restoring) :
    (∀ (n : Nat) (c : Channel), s.channels[n]? = some c → ∃ c', (s.rampClass k).channels[n]? = some c' ∧ c'.cfg = c.cfg
          ∧ c'.ceiling = if c.cfg.cls = k then min (c.ceiling + 25) 1000 else c.ceiling)
      ∧ (∀ j, j ≠ k → (s.rampClass k).classState j = s.classState j)
      ∧ (s.rampClass k).uptime = s.uptime
      ∧ ((∀ c ∈ s.channels, c.cfg.cls = k → 975 ≤ c.ceiling ∧ c.ceiling ≤ 1000) →
          (s.rampClass k).classState k = .normal ∧ (s.rampClass k).link = s.link.post ⟨.restored, k, [], s.uptime⟩)
      ∧ ((∃ c ∈ s.channels, c.cfg.cls = k ∧ c.ceiling < 975) →
          (s.rampClass k).classState k = .restoring ∧ (s.rampClass k).link = s.link) := by
  have hceil : ∀ c : Channel, (c.ramped k).ceiling = if c.cfg.cls = k then min (c.ceiling + 25) 1000 else c.ceiling := fun c => by
    unfold Channel.ramped; split <;> rfl
  have hcfg : ∀ c : Channel, (c.ramped k).cfg = c.cfg := fun c => by unfold Channel.ramped; split <;> rfl
  have hget : ∀ (n : Nat) (c : Channel), s.channels[n]? = some c → (s.channels.map (Channel.ramped k))[n]? = some (c.ramped k) :=
    fun n c hc => by simp [hc]
  rw [State.rampClass_restoring h]
  split
  · rename_i hall
    have hclass := State.classState_setIfInBounds (s := s) (c := .normal) hk
      (t := ((s.onChannels (Channel.ramped k)).setClass k .normal).post .restored k []) rfl
    refine ⟨fun n c hc => ?_, fun j hj => ?_, ?_, fun _ => ⟨?_, ?_⟩, fun ⟨c, hc, he, hlt⟩ => ?_⟩
    · obtain ⟨c', hc', e1, -, e2⟩ := State.offer_channel
        (((s.onChannels (Channel.ramped k)).setClass k .normal).post .restored k []) (.shed k .restored) (hget n c hc)
      exact ⟨c', hc', e1.trans (hcfg c), e2.trans (hceil c)⟩
    · rw [State.offer_classState, hclass, if_neg hj]
    · obtain ⟨bs, cs, lt, hf, -⟩ := State.offer_frame
        (((s.onChannels (Channel.ramped k)).setClass k .normal).post .restored k []) (.shed k .restored)
      rw [hf]; rfl
    · rw [State.offer_classState, hclass, if_pos rfl]
    · rw [State.offer_link']; rfl
    · have := hall c hc he
      rw [hceil, if_pos he] at this
      omega
  · rename_i hall
    refine ⟨fun n c hc => ⟨_, hget n c hc, hcfg c, hceil c⟩, fun j _ => rfl, rfl, fun hall' => absurd (fun c hc he => ?_) hall, fun _ => ⟨h, rfl⟩⟩
    obtain ⟨h1, h2⟩ := hall' c hc he
    rw [hceil, if_pos he]
    omega

/-- With one class RESTORING the ramp is that class's step. -/
theorem State.foldl_rampClass_one {s : State} {k : Nat} (hk7 : k ≤ 7) {ks : List Nat} (hk : k ∈ ks) (hn : ks.Nodup)
    (h : s.classState k = .restoring) (ho : ∀ j ∈ ks, j ≠ k → s.classState j ≠ .restoring) : ks.foldl State.rampClass s = s.rampClass k := by
  induction ks with
  | nil => cases hk
  | cons j ks ih =>
    obtain ⟨hj, hks⟩ := List.nodup_cons.mp hn
    rw [List.foldl_cons]
    by_cases hjk : j = k
    · subst hjk
      refine State.foldl_rampClass_idle fun i hi => ?_
      have hne : i ≠ j := fun e => hj (e ▸ hi)
      rw [(State.rampClass_effect hk7 h).2.1 i hne]
      exact ho i (List.mem_cons_of_mem _ hi) hne
    · rw [State.rampClass_idle (ho j List.mem_cons_self hjk)]
      exact ih ((List.mem_cons.mp hk).resolve_left (Ne.symm hjk)) hks fun i hi => ho i (List.mem_cons_of_mem _ hi)

/-- The state of a tick before its ramp: the moment, the timer and the channels stepped. -/
def State.ticked (s : State) (e : Uptime) : State :=
  { s with uptime := (s.atMoment e).uptime, refresh := some (e + 20), channels := s.channels.map fun c => c.takeUp.advance }

theorem exec_refreshTick {s : State} {e : Uptime} (h : s.refresh = some e) :
    exec .refreshTick s = .next ((s.ticked e).ramp).requestLevels := by
  simp only [exec, execRefreshTick, h, State.tick]
  rw [State.atMoment_eq]
  simp only [State.onChannels, List.map_map]
  rfl

theorem Channel.stepped_ceiling (c : Channel) : c.takeUp.advance.cfg = c.cfg ∧ c.takeUp.advance.ceiling = c.ceiling := by
  have h1 : c.takeUp.cfg = c.cfg ∧ c.takeUp.ceiling = c.ceiling := by
    unfold Channel.takeUp
    split
    · exact ⟨rfl, rfl⟩
    · split <;> exact ⟨rfl, rfl⟩
  have h2 : c.takeUp.advance.cfg = c.takeUp.cfg ∧ c.takeUp.advance.ceiling = c.takeUp.ceiling := by
    unfold Channel.advance
    split <;> exact ⟨rfl, rfl⟩
  exact ⟨h2.1.trans h1.1, h2.2.trans h1.2⟩

/-! ## The draw (R50, R60, R87) and reviews (R100 to R103) -/

theorem ceilDiv_bounds (n : Nat) : n ≤ 1000 * ceilDiv n 1000 ∧ 1000 * ceilDiv n 1000 < n + 1000 := by unfold ceilDiv; omega

theorem State.headroom_eq (s : State) : s.headroom = (s.alloc.limit : Int) - s.alloc.margin -
    (max (s.alloc.base
          + (s.channels.map fun c => c.estimateAt (if s.classState c.cfg.cls = .restoring then c.current else min c.current c.ceiling)).sum
          + grantDraw s.alloc.hpuGrant + grantDraw s.alloc.windlassGrant)
        (if (s.input 1).faulted = true ∨ (s.input 2).faulted = true then 0 else s.sense.window.sum / s.sense.window.length) : Nat) := by
  have h : s.share = fun c => c.estimateAt (if s.classState c.cfg.cls = .restoring then c.current else min c.current c.ceiling) := by
    funext c; unfold State.share; split <;> rfl
  unfold State.headroom State.effective State.committed State.measured State.supplyFaulted
  rw [h]
  simp only [Bool.or_eq_true]
  rfl

/-- The highest class that is not SHED, of those up to a class. -/
theorem State.topUnshed_some {s : State} {k n : Nat} (h1 : 1 ≤ k) (hk : k ≤ n) (hs : s.classState k ≠ .shed)
    (ha : ∀ j, k < j → j ≤ n → s.classState j = .shed) : s.topUnshed n = some k := by
  induction n with
  | zero => omega
  | succ n ih =>
    unfold State.topUnshed
    by_cases he : k = n + 1
    · subst he; exact if_neg hs
    · rw [if_pos (ha (n + 1) (by omega) (Nat.le_refl _))]
      exact ih (by omega) fun j h1 h2 => ha j h1 (by omega)

theorem State.topUnshed_none {s : State} {n : Nat} (h : ∀ j, 1 ≤ j → j ≤ n → s.classState j = .shed) : s.topUnshed n = none := by
  induction n with
  | zero => rfl
  | succ n ih =>
    unfold State.topUnshed
    rw [if_pos (h (n + 1) (by omega) (Nat.le_refl _))]
    exact ih fun j h1 h2 => h j h1 (by omega)

theorem mem_classes {j : Nat} : j ∈ [1, 2, 3, 4, 5, 6, 7] ↔ 1 ≤ j ∧ j ≤ 7 := by simp; omega

theorem State.anyRestoring_iff {s : State} : s.anyRestoring = true ↔ ∃ j, 1 ≤ j ∧ j ≤ 7 ∧ s.classState j = .restoring := by
  simp only [State.anyRestoring, List.any_eq_true, mem_classes, decide_eq_true_eq, and_assoc]

theorem State.lowestShed_none {s : State} (h : ∀ j, 1 ≤ j → j ≤ 7 → s.classState j ≠ .shed) : s.lowestShed = none := by
  refine List.find?_eq_none.mpr fun j hj => ?_
  obtain ⟨h1, h7⟩ := mem_classes.mp hj
  simpa using h j h1 h7

theorem State.lowestShed_some {s : State} {j : Nat} (h1 : 1 ≤ j) (h7 : j ≤ 7) (hs : s.classState j = .shed)
    (hl : ∀ i, 1 ≤ i → i < j → s.classState i ≠ .shed) : s.lowestShed = some j := by
  have hsplit : ([1, 2, 3, 4, 5, 6, 7] : List Nat) = (List.range' 1 (j - 1)) ++ j :: List.range' (j + 1) (7 - j) := by
    interval_cases j <;> rfl
  refine List.find?_eq_some_iff_append.mpr ⟨decide_eq_true hs, _, _, hsplit, fun i hi => ?_⟩
  obtain ⟨k, hk, rfl⟩ := List.mem_range'.mp hi
  simpa using hl _ (by omega) (by omega)

/-! ## Admissions (R95 to R98) -/

theorem sum_map_filter (p : Nat → Bool) (f : Nat → Nat) (l : List Nat) :
    ((l.filter p).map f).sum = (l.map fun j => if p j then f j else 0).sum := by
  induction l with
  | nil => rfl
  | cons j l ih =>
    rw [List.filter_cons]
    split <;> simp_all

/-- What the classes above one that are not SHED can give up. -/
def State.sheddableAbove (s : State) (k : Nat) : Nat :=
  (((List.range 8).filter fun j => k < j ∧ s.classState j ≠ .shed).map s.sheddable).sum

/-- One class more joins what can be given up, unless it is SHED. -/
theorem State.sheddableAbove_step (s : State) {k : Nat} (hk : k < 7) :
    s.sheddableAbove k = s.sheddableAbove (k + 1) + if s.classState (k + 1) = .shed then 0 else s.sheddable (k + 1) := by
  unfold State.sheddableAbove
  rw [sum_map_filter, sum_map_filter, show List.range 8 = [0, 1, 2, 3, 4, 5, 6, 7] from rfl]
  interval_cases k <;> simp [ite_not] <;> omega

theorem State.sheddableAbove_seven (s : State) : s.sheddableAbove 7 = 0 := by
  unfold State.sheddableAbove
  rw [sum_map_filter]
  rfl

theorem State.sheddableAbove_anti (s : State) {j k : Nat} (h : j ≤ k) (hk : k ≤ 7) : s.sheddableAbove k ≤ s.sheddableAbove j := by
  induction k with
  | zero => obtain rfl : j = 0 := by omega
            exact Nat.le_refl _
  | succ k ih =>
    obtain rfl | hlt := Nat.eq_or_lt_of_le h
    · exact Nat.le_refl _
    · have := s.sheddableAbove_step (k := k) (by omega)
      have := ih (by omega) (by omega)
      omega

/-- The walk stops at the class whose joining reaches the need. -/
theorem State.walk_some {s : State} {need low k : Nat} (h1 : 1 ≤ low) (hlow : low ≤ k) (hk : k ≤ 7) (hs : s.classState low ≠ .shed)
    (hb : s.sheddableAbove low < need) (hr : need ≤ s.sheddableAbove (low - 1)) : s.walk need k (s.sheddableAbove k) = some low := by
  induction k with
  | zero => omega
  | succ k ih =>
    have hstep := s.sheddableAbove_step (k := k) (by omega)
    unfold State.walk
    by_cases hsh : s.classState (k + 1) = .shed
    · rw [if_pos hsh] at hstep ⊢
      have hne : low ≠ k + 1 := fun e => hs (e ▸ hsh)
      rw [show s.sheddableAbove (k + 1) = s.sheddableAbove k by omega]
      exact ih (by omega) (by omega)
    · rw [if_neg hsh] at hstep ⊢
      by_cases he : low = k + 1
      · subst he
        rw [Nat.add_sub_cancel] at hr
        rw [if_pos (by omega)]
      · have := s.sheddableAbove_anti (j := low) (k := k) (by omega) (by omega)
        rw [if_neg (by omega), ← hstep]
        exact ih (by omega) (by omega)

theorem State.walk_none {s : State} {need k : Nat} (hk : k ≤ 7) (h : s.sheddableAbove 0 < need) :
    s.walk need k (s.sheddableAbove k) = none := by
  induction k with
  | zero => rfl
  | succ k ih =>
    have hstep := s.sheddableAbove_step (k := k) (by omega)
    have hanti := s.sheddableAbove_anti (j := 0) (k := k) (by omega) (by omega)
    unfold State.walk
    by_cases hsh : s.classState (k + 1) = .shed
    · rw [if_pos hsh] at hstep ⊢
      rw [show s.sheddableAbove (k + 1) = s.sheddableAbove k by omega]
      exact ih (by omega)
    · rw [if_neg hsh] at hstep ⊢
      rw [if_neg (by omega), ← hstep]
      exact ih (by omega)

/-- A class that is shed puts its channels' ceilings at their floors, and leaves every other. -/
theorem State.shedClass_channel (s : State) (k : Nat) (cause : ShedCause) (h : Int) {n : Nat} {c : Channel} (hc : s.channels[n]? = some c) :
    ∃ c', (s.shedClass k cause h).channels[n]? = some c' ∧ c'.cfg = c.cfg ∧ c'.current = c.current
      ∧ c'.ceiling = if c.cfg.cls = k then c.cfg.floor else c.ceiling := by
  obtain ⟨c', hc', e1, e2, e3⟩ := State.offer_channel
    (((s.setClass k .shed).onChannels fun c => if c.cfg.cls = k then { c with ceiling := c.cfg.floor } else c).post .shed k
      (leBytes 1 cause.code ++ leSigned 4 h)) (.shed k .shed) (n := n)
    (c := if c.cfg.cls = k then { c with ceiling := c.cfg.floor } else c) (by
      show (s.channels.map _)[n]? = _
      rw [List.getElem?_map, hc]; rfl)
  refine ⟨c', hc', ?_, ?_, ?_⟩
  · rw [e1]; split <;> rfl
  · rw [e2]; split <;> rfl
  · rw [e3]; split <;> rfl

/-- The classes shed from one down to another: their states, and their channels' ceilings. -/
theorem State.shedDown_effect (low : Nat) (cause : ShedCause) (h : Int) {k : Nat} (hk : k ≤ 7) (s : State) :
    (∀ j, (s.shedDown low cause h k).classState j = if low ≤ j ∧ 1 ≤ j ∧ j ≤ k then .shed else s.classState j)
      ∧ ∀ (n : Nat) (c : Channel), s.channels[n]? = some c → ∃ c', (s.shedDown low cause h k).channels[n]? = some c' ∧ c'.cfg = c.cfg
        ∧ c'.current = c.current
        ∧ c'.ceiling = if low ≤ c.cfg.cls ∧ 1 ≤ c.cfg.cls ∧ c.cfg.cls ≤ k ∧ s.classState c.cfg.cls ≠ .shed then c.cfg.floor else c.ceiling := by
  induction k generalizing s with
  | zero =>
    refine ⟨fun j => (if_neg (by omega)).symm, fun n c hc => ⟨c, hc, rfl, rfl, (if_neg (by omega)).symm⟩⟩
  | succ k ih =>
    unfold State.shedDown
    split
    · refine ⟨fun j => (if_neg (by omega)).symm, fun n c hc => ⟨c, hc, rfl, rfl, (if_neg (by omega)).symm⟩⟩
    · by_cases hsh : s.classState (k + 1) = .shed
      · rw [if_pos hsh]
        obtain ⟨h1, h2⟩ := ih (by omega) s
        refine ⟨fun j => ?_, fun n c hc => ?_⟩
        · rw [h1]
          by_cases hj : j = k + 1
          · subst hj
            rw [if_neg (by omega), if_pos (by omega), hsh]
          · exact if_congr (by omega) rfl rfl
        · obtain ⟨c', hc', e1, e2, e3⟩ := h2 n c hc
          refine ⟨c', hc', e1, e2, e3.trans (if_congr ⟨fun ⟨g1, g2, g3, g4⟩ => ⟨g1, g2, by omega, g4⟩, fun ⟨g1, g2, g3, g4⟩ => ⟨g1, g2, ?_, g4⟩⟩ rfl rfl)⟩
          have : c.cfg.cls ≠ k + 1 := fun e => g4 (e ▸ hsh)
          omega
      · rw [if_neg hsh]
        have hcls := State.classState_shedClass (s := s) (k + 1) cause h hk
        obtain ⟨h1, h2⟩ := ih (by omega) (s.shedClass (k + 1) cause h)
        refine ⟨fun j => ?_, fun n c hc => ?_⟩
        · rw [h1, hcls]
          by_cases hj : j = k + 1
          · subst hj
            rw [if_neg (by omega), if_pos rfl, if_pos (by omega)]
          · rw [if_neg hj]
            exact if_congr (by omega) rfl rfl
        · obtain ⟨c', hc', e1, e2, e3⟩ := s.shedClass_channel (k + 1) cause h hc
          obtain ⟨c'', hc'', g1, g2, g3⟩ := h2 n c' hc'
          refine ⟨c'', hc'', g1.trans e1, g2.trans e2, ?_⟩
          rw [g3, e1, e3, hcls]
          by_cases hj : c.cfg.cls = k + 1
          · rw [if_neg (by omega), if_pos hj, if_pos ⟨by omega, by omega, by omega, hj ▸ hsh⟩]
          · simp only [if_neg hj]
            refine if_congr ?_ rfl rfl
            exact and_congr_right fun _ => and_congr_right fun _ => and_congr_left fun _ => by omega

/-- A class walk that reaches the shortfall: the classes from the one it stops at up to 7 are SHED, and the request is granted. -/
theorem State.seekWatts_shed {s : State} {who : Requester} {r n low : Nat} (hn : (n : Int) = r - s.headroom) (h0 : 0 < n)
    (hw : s.walk n 7 0 = some low) : s.seekWatts who r =
      ((s.shedDown low who.cause s.headroom 7).recordAdmission who r s.headroom (some n) .grantedAfterShed (some low), true) := by
  have hnat : ((r : Int) - s.headroom).toNat = n := by omega
  unfold State.seekWatts
  dsimp only
  rw [if_neg (by omega), hnat, hw]

theorem State.seekWatts_short {s : State} {who : Requester} {r n : Nat} (hn : (n : Int) = r - s.headroom) (h0 : 0 < n)
    (hw : s.walk n 7 0 = none) : s.seekWatts who r = (s.recordAdmission who r s.headroom (some n) .refused none, false) := by
  have hnat : ((r : Int) - s.headroom).toNat = n := by omega
  unfold State.seekWatts
  dsimp only
  rw [if_neg (by omega), hnat, hw]

theorem State.seekWatts_enough {s : State} {who : Requester} {r : Nat} (h : (r : Int) ≤ s.headroom) :
    s.seekWatts who r = (s.recordAdmission who r s.headroom none .granted none, true) := if_pos h

/-- A start admission in RUN with no record present is the decision on its watts. -/
theorem State.startAdmission_eq {s : State} {m : Motor} (hm : s.mode = .run) (hg : s.grant m = none) (g i w : Nat) :
    s.startAdmission m g i w =
      if (s.seekWatts (startRequester m) (g + i)).2 = true then
        ((s.seekWatts (startRequester m) (g + i)).1.setGrant m
          (some ⟨g, if 0 < i ∧ 0 < w then i else 0, s.uptime, if 0 < i ∧ 0 < w then some (s.after w) else none⟩), true)
      else ((s.seekWatts (startRequester m) (g + i)).1, false) := by
  have hup : (s.seekWatts (startRequester m) (g + i)).1.uptime = s.uptime := (Allocated.of_seekWatts s _ _).rest.2.1
  unfold State.startAdmission
  rw [if_neg (by simp [hm, hg])]
  generalize s.seekWatts (startRequester m) (g + i) = x at hup
  obtain ⟨u, _ | _⟩ := x
  · rfl
  · simp only [State.after] at hup ⊢
    rw [hup]
    rfl

/-- A stage admission in RUN that raises the grant is the decision on the watts it adds. -/
theorem State.stageAdmission_eq {s : State} {x : Grant} {g : Nat} (hm : s.mode = .run) (hx : s.alloc.windlassGrant = some x)
    (hg : x.running < g) : s.stageAdmission g =
      if (s.seekWatts .windlassStage (g - x.running)).2 = true then
        ((s.seekWatts .windlassStage (g - x.running)).1.setGrant .windlass (some { x with running := g }), true)
      else ((s.seekWatts .windlassStage (g - x.running)).1, false) := by
  unfold State.stageAdmission
  rw [hx]
  dsimp only
  rw [if_neg (not_not.mpr hm), if_neg (by omega)]
  obtain ⟨u, _ | _⟩ := s.seekWatts .windlassStage (g - x.running) <;> rfl

end Sys2Proof.Machine

namespace Sys2Proof.Proofs

open Sys2Proof.Machine

/-- Settles O31: with no class RESTORING the ramp does nothing; with one it is that class's step. -/
theorem refreshTickRuns : Obligations.RefreshTickRuns := by
  refine ⟨fun s h => by simp only [exec, execRefreshTick, h], fun s e h hno => ?_, fun s e k h hlaw hk => ?_⟩
  · have hramp : (s.ticked e).ramp = s.ticked e := State.foldl_rampClass_idle fun j _ => hno j
    obtain ⟨q, hq, hin, hask⟩ := (s.ticked e).requestLevels_queue
    refine ⟨_, exec_refreshTick h, ?_⟩
    rw [hramp, hq]
    refine ⟨rfl, rfl, rfl, rfl, rfl, fun x hx => (hin x hx).imp_right ?_, fun h1 h2 h3 r hr ha hu => ?_⟩
    · rintro ⟨hk, r, hr, ht, ha, hu⟩
      exact ⟨hk, r, hr, ht, ha, State.hasUnsent_iff.mp hu⟩
    · exact hask h1 h2 h3 r hr ha (State.hasUnsent_iff.mpr hu)
  · obtain ⟨f, hf7, habove, hf, hbelow, h0⟩ := hlaw
    have hkf : k = f := by
      by_contra hne
      obtain hlt | hgt := Nat.lt_or_gt_of_ne hne
      · rw [hbelow k hlt] at hk; cases hk
      · by_cases h8 : k ≤ 7
        · rw [habove k hgt h8] at hk; cases hk
        · rw [State.classState, Vector.getElem?_eq_none (by omega)] at hk; cases hk
    subst hkf
    have hk1 : 1 ≤ k := by
      by_contra hlt
      obtain rfl : k = 0 := by omega
      rw [h0] at hk; cases hk
    have hramp : (s.ticked e).ramp = (s.ticked e).rampClass k := by
      refine State.foldl_rampClass_one hf7 (by simp; omega) (by decide) hk fun j hj hne => ?_
      show s.classState j ≠ .restoring
      obtain hlt | hgt := Nat.lt_or_gt_of_ne hne
      · rw [hbelow j hlt]; simp
      · rw [habove j hgt (by simp at hj; omega)]; simp
    obtain ⟨q, hq, -⟩ := ((s.ticked e).rampClass k).requestLevels_queue
    obtain ⟨hch, hcl, hup, hfull, hleft⟩ := State.rampClass_effect (s := s.ticked e) hf7 hk
    refine ⟨_, exec_refreshTick h, ?_⟩
    rw [hramp, hq]
    refine ⟨fun n c hc => ?_, hcl, fun hall => ?_, fun ⟨c, hc, he, hlt⟩ => hleft ⟨_, List.mem_map_of_mem hc, ?_, ?_⟩⟩
    · obtain ⟨c', hc', e1, e2⟩ := hch n c.takeUp.advance (by simp [State.ticked, hc])
      obtain ⟨g1, g2⟩ := c.stepped_ceiling
      exact ⟨c', hc', e1.trans g1, by rw [e2, g1, g2]⟩
    · obtain ⟨h1, h2⟩ := hfull fun c hc => by
        obtain ⟨x, hx, rfl⟩ := List.mem_map.mp hc
        rw [x.stepped_ceiling.1, x.stepped_ceiling.2]
        exact hall x hx
      exact ⟨h1, by rw [State.onBus_uptime, hup]; exact h2⟩
    · rw [c.stepped_ceiling.1]; exact he
    · rw [c.stepped_ceiling.2]; exact hlt

/-- Settles O36: the headroom unfolded, and a review by the classes' states. -/
theorem reviewDecides : Obligations.ReviewDecides := by
  refine ⟨⟨fun c x => ⟨fun h => ?_, fun h => ?_, fun h => ?_⟩, fun s => ?_⟩, fun s => ⟨fun k hh h1 h7 hk ha => ?_, fun hh hall => ?_, fun hh hr => ?_, fun hh hr => ⟨fun hn => ?_, fun j h1 h7 hs hl => ?_⟩⟩⟩
  · simp only [Channel.estimateAt, h]; exact ceilDiv_bounds _
  · simp only [Channel.estimateAt, h]
  · simp only [Channel.estimateAt, h]
  · rw [State.headroom_eq]
    cases s.alloc.hpuGrant <;> cases s.alloc.windlassGrant <;> rfl
  · unfold State.review
    dsimp only
    rw [if_pos hh, State.topUnshed_some h1 h7 hk ha]
    rfl
  · have hrev : s.review = s.countOverLimit s.headroom := by
      unfold State.review
      dsimp only
      rw [if_pos hh, State.topUnshed_none hall]
    rw [hrev]
    refine ⟨fun h => ?_, fun h => ?_, fun h => ?_⟩
    · refine (if_pos (by omega)).trans (if_neg ?_)
      show ¬ s.alloc.overLimit + 1 = 3
      omega
    · refine (if_pos (by omega)).trans ((if_pos ?_).trans ?_)
      · show s.alloc.overLimit + 1 = 3
        omega
      · simp only [State.onAlloc, h]; rfl
    · exact if_neg (by omega)
  all_goals
    have hrev : s.review = (s.onAlloc fun a => { a with overLimit := 0 }).tryRestore s.headroom := if_neg (not_lt.mpr hh)
    rw [hrev]
    unfold State.tryRestore
  · exact if_pos (State.anyRestoring_iff.mpr hr)
  all_goals
    rw [if_neg (fun h => by obtain ⟨j, h1, h7, h⟩ := State.anyRestoring_iff.mp h; exact hr j h1 h7 h)]
  · rw [State.lowestShed_none (s := s.onAlloc fun a => { a with overLimit := 0 }) hn]
  · rw [State.lowestShed_some (s := s.onAlloc fun a => { a with overLimit := 0 }) h1 h7 hs hl]
    show (if (s.alloc.hysteresis : Int) ≤ s.headroom - s.sheddable j then _ else _) = _
    split <;> rfl

/-- Settles O37: each runs the review on the state it leaves. -/
theorem whatRunsAReview : Obligations.WhatRunsAReview := by
  refine fun s => ⟨fun e h => ?_, fun h => ?_, fun g e hg he => ?_, fun g e hg he => ?_, fun m h => ?_,
    fun tag limit base source src hsrc => ?_, fun tag limit base source h => ?_⟩
  · simp only [exec, execReviewTimerExpiry, h]; rfl
  · simp only [exec, execReviewTimerExpiry, h]
  · simp only [exec, execInrushExpiry, State.grant, hg, he]; rfl
  · simp only [exec, execInrushExpiry, State.grant, hg, he]; rfl
  · simp only [exec, execInrushExpiry]
    cases hg : s.grant m with
    | none => rfl
    | some g => simp only [h g hg]
  · have hs : source? source = some src := by obtain ⟨rfl, rfl⟩ | ⟨rfl, rfl⟩ | ⟨rfl, rfl⟩ := hsrc <;> rfl
    refine ⟨fun hm => ?_, fun hm => ?_⟩
    · simp only [exec, execSetSupply, hs, hm, if_true]; rfl
    · simp only [exec, execSetSupply, hs, hm, if_false]; rfl
  · obtain ⟨n, rfl⟩ : ∃ n, source = n + 3 := ⟨source - 3, by omega⟩
    rfl

/-- Settles O38: the walk over the classes' sheddable sums, and the grants as the decision's outcome. -/
theorem admissionsAndGrants : Obligations.AdmissionsAndGrants := by
  refine ⟨fun s who r => ⟨fun h => State.seekWatts_enough h, fun n hn h0 => ⟨fun hsum => ?_, fun low h1 h7 hs hb hr => ?_⟩⟩, fun s m g i w => ⟨?_, ?_, ?_, ?_, ?_, ?_⟩⟩
  · refine State.seekWatts_short hn h0 ?_
    have h := State.walk_none (s := s) (need := n) (k := 7) (by omega) (by
      refine lt_of_eq_of_lt ?_ hsum
      refine congrArg (fun l => (l.map s.sheddable).sum) (List.filter_congr fun j _ => ?_)
      rw [decide_eq_decide]
      exact and_congr_left fun _ => Nat.pos_iff_ne_zero)
    rwa [s.sheddableAbove_seven] at h
  · have h := State.walk_some h1 h7 (Nat.le_refl 7) hs hb (by
      refine Nat.le_trans hr (Nat.le_of_eq ?_)
      refine congrArg (fun l => (l.map s.sheddable).sum) (List.filter_congr fun j _ => ?_)
      rw [decide_eq_decide]
      exact and_congr_left fun _ => by omega)
    rw [s.sheddableAbove_seven] at h
    rw [State.seekWatts_shed hn h0 h]
    obtain ⟨hcls, hch⟩ := State.shedDown_effect low who.cause s.headroom (Nat.le_refl 7) s
    refine ⟨rfl, ?_, fun k hk hk7 => (hcls k).trans (if_pos (by omega)), fun k hk => (hcls k).trans (if_neg (by omega)), fun i c hc => ?_⟩
    · have hup := (Allocated.of_shedDown s low who.cause s.headroom 7).rest.2.1
      rw [← hup]
      rfl
    · obtain ⟨c', hc', e1, e2, e3⟩ := hch i c hc
      exact ⟨c', hc', e1, e2, e3.trans (if_congr ⟨fun ⟨g1, _, g3, g4⟩ => ⟨g1, g3, g4⟩, fun ⟨g1, g3, g4⟩ => ⟨g1, by omega, g3, g4⟩⟩ rfl rfl)⟩
  · intro h
    rw [State.startAdmission, if_pos h]
    exact ⟨rfl, rfl⟩
  · intro hm hg hh
    rw [State.startAdmission_eq hm hg, State.seekWatts_enough hh, if_pos rfl]
    refine ⟨rfl, ?_, ?_, ?_⟩
    · rw [State.grant_setGrant]
      split <;> rfl
    · cases m <;> rfl
    · cases m <;> rfl
  · intro x hm hx hlt hh
    rw [State.stageAdmission_eq hm hx hlt, State.seekWatts_enough hh, if_pos rfl]
    exact ⟨rfl, rfl, rfl⟩
  · intro x hm hx hle
    unfold State.stageAdmission
    rw [hx]
    dsimp only
    rw [if_neg (not_not.mpr hm), if_pos hle]
  · intro u given x hm hg hseek hx
    have hreq : s.seekWatts (startRequester m) (g + i) = (u, given) := by cases m <;> exact hseek
    rw [State.startAdmission_eq hm hg, hreq]
    refine ⟨fun hgiven => ?_, fun hgiven => by rw [hgiven]; rfl⟩
    subst hgiven hx
    rw [if_pos rfl]
    split <;> cases m <;> rfl
  · intro u given x hm hx hlt hseek
    rw [State.stageAdmission_eq hm hx hlt, hseek]
    exact ⟨fun hgiven => by rw [hgiven]; rfl, fun hgiven => by rw [hgiven]; rfl⟩

end Sys2Proof.Proofs
end

section
/-!
PROOFS. What is stored, cleared, stopped and read (R25, R136, R138, R161): O40, O45, O46 and O60.
-/

namespace Sys2Proof.Machine

/-! ## What the Roomline's side of an operation leaves -/

/-- Nothing but the link port, the bus, the nodes and the enrolment has changed. -/
def Beside (s t : State) : Prop := ∃ l b n e, t = { s with link := l, bus := b, nodes := n, enrolment := e }

theorem Beside.refl {s : State} : Beside s s := ⟨_, _, _, _, rfl⟩

theorem Beside.trans {s t u : State} : Beside s t → Beside t u → Beside s u := by
  rintro ⟨_, _, _, _, rfl⟩ ⟨_, _, _, _, rfl⟩; exact ⟨_, _, _, _, rfl⟩

section
variable (s : State)

theorem Beside.of_onBus (f : Bus → Bus) : Beside s (s.onBus f) := ⟨_, _, _, _, rfl⟩

theorem Beside.of_onNode (a : Nat) (f : NodeRecord → NodeRecord) : Beside s (s.onNode a f) := ⟨_, _, _, _, rfl⟩

theorem Beside.of_onEnrolment (f : Enrolment → Enrolment) : Beside s (s.onEnrolment f) := ⟨_, _, _, _, rfl⟩

theorem Beside.of_queueTx (k : TxKind) (n : Nat) (a : Option (Nat × Serial)) (e : Bool) : Beside s (s.queueTx k n a e).1 := by
  obtain ⟨q, h⟩ := s.queueTx_frame k n a e
  exact h ▸ .of_onBus s _

theorem Beside.of_lampPass (b : State) : Beside s (s.lampPass b) := by
  obtain ⟨q, h, -⟩ := s.lampPass_frame b
  exact h ▸ .of_onBus s _

theorem Beside.of_askIdentify (a : Nat) : Beside s (s.askIdentify a) := by
  have h := Beside.of_queueTx s .identify a none false
  unfold State.askIdentify
  split <;> rename_i e <;> rw [e] at h
  · exact h
  · exact h.trans (.of_onNode _ a _)

theorem Beside.of_enterIdentify (a : Nat) : Beside s (s.enterIdentify a) :=
  Beside.trans (t := s.onNode a fun r => { r with state := .identify, retryTimer := none, pollTimer := none }) (.of_onNode s a _)
    (.of_askIdentify _ a)

theorem Beside.of_resume (r : NodeRecord) : Beside s (s.resume r) := by
  have h : Beside s (s.onNode r.addr fun n => { n with enrolHold := false }) := .of_onNode s _ _
  unfold State.resume
  dsimp only
  split
  · exact h
  · split
    · exact h.trans (.of_enterIdentify _ _)
    · exact h.trans (.of_onNode _ _ _)
    · exact h.trans (.of_onNode _ _ _)
    · exact h.trans (.of_onNode _ _ _)
    · exact h.trans (.of_onNode _ _ _)
    · exact h

theorem Beside.of_enrolFail (e : Enrolment) (w : EnrolFailure) : Beside s (s.enrolFail e w) := by
  have h : Beside s (State.post { s with enrolment := none } .enrolFailed e.addr (leBytes 1 w.code ++ leBytes 1 e.reported)) :=
    ⟨_, _, _, _, rfl⟩
  unfold State.enrolFail
  dsimp only
  split
  · exact h
  · exact h.trans (.of_resume _ _)

theorem Beside.of_queueEnrolment (e : Enrolment) : Beside s (s.queueEnrolment e).1 := by
  unfold State.queueEnrolment
  split
  · exact .of_queueTx s _ _ _ _
  · exact .of_queueTx s _ _ _ _
  · exact .of_queueTx s _ _ _ _
  · exact .refl

theorem Beside.of_enrolAsk : Beside s s.enrolAsk := by
  unfold State.enrolAsk
  split
  · exact .refl
  · rename_i e _
    have h := Beside.of_queueEnrolment s e
    split <;> rename_i g <;> rw [g] at h
    · exact h.trans (.of_onEnrolment _ _)
    · exact h.trans (.of_enrolFail _ _ _)
    · exact h.trans (.of_onEnrolment _ _)

theorem Beside.of_queueRelease : Beside s s.queueRelease := by
  unfold State.queueRelease
  split <;> exact .of_onBus s _

theorem Beside.of_busToConfig : Beside s s.busToConfig := by
  have h : Beside s (State.queueRelease (s.onBus fun b =>
      { b with queue := (b.queue.filter (·.inFlight)).map fun e => { e with followUp := false } })) :=
    (Beside.of_onBus s _).trans (.of_queueRelease _)
  unfold State.busToConfig
  dsimp only
  split
  · exact h.trans (.of_enrolAsk _)
  · exact h

end

/-! ## What follows a deck operation (R130, R168, R188) -/

/-- What follows a deck operation: the interlock watch, and on the Roomline's side alone what it leaves, or the entry to CONFIG. -/
theorem State.deckPass_beside (s b : State) :
    Beside s.watchInterlock (s.deckPass b)
      ∨ (s.watchInterlock.mode = .stopping ∧ s.watchInterlock.drained = true ∧ Beside s.watchInterlock.configured (s.deckPass b)) := by
  by_cases hd : s.watchInterlock.mode = .stopping ∧ s.watchInterlock.drained = true
  · exact .inr ⟨hd.1, hd.2, State.deckPass_drained b hd.1 hd.2 ▸ (Beside.of_busToConfig _).trans (.of_lampPass _ b)⟩
  · exact .inl (State.deckPass_undrained (s := s) b (by by_cases h : s.watchInterlock.mode = .stopping <;> simp_all) ▸ .of_lampPass _ b)

section
variable (s b : State)

@[simp] theorem State.deckPass_windlass : (s.deckPass b).windlass = s.windlass := by
  obtain ⟨_, _, hw⟩ := s.watchInterlock_frame
  rcases s.deckPass_beside b with ⟨_, _, _, _, h⟩ | ⟨-, -, _, _, _, _, h⟩ <;> rw [h]
  all_goals exact (congrArg State.windlass hw :)

@[simp] theorem State.deckPass_hpu : (s.deckPass b).hpu = s.hpu := by
  obtain ⟨_, _, hw⟩ := s.watchInterlock_frame
  rcases s.deckPass_beside b with ⟨_, _, _, _, h⟩ | ⟨-, -, _, _, _, _, h⟩ <;> rw [h]
  all_goals exact (congrArg State.hpu hw :)

/-- A mover that is not MOVING is left by the interlock watch. -/
theorem State.mover_watchInterlock {m : MoverId} (h : (s.mover m).state ≠ .moving) : s.watchInterlock.mover m = s.mover m := by
  have one : ∀ (u : State) n, u.mover m = s.mover m → (u.watchInterlockOf n).mover m = s.mover m := by
    intro u n hu
    rcases u.watchInterlockOf_cases n with ⟨hm, -, e⟩ | ⟨-, e⟩
    · rw [e]
      by_cases hn : n = m
      · exact absurd (by rw [← hu, ← hn]; exact hm) h
      · obtain rfl : m = otherMover n := by cases m <;> cases n <;> simp_all [otherMover]
        rw [State.mover_enterSettling_other, hu]
    · rw [e, hu]
  exact one _ _ (one _ _ rfl)

/-- A mover that is not MOVING is left by what follows a deck operation. -/
theorem State.mover_deckPass {m : MoverId} (h : (s.mover m).state ≠ .moving) : (s.deckPass b).mover m = s.mover m := by
  rw [← s.mover_watchInterlock h]
  rcases s.deckPass_beside b with ⟨_, _, _, _, e⟩ | ⟨-, -, _, _, _, _, e⟩ <;> rw [e] <;> cases m <;> rfl

/-- What follows a deck operation leaves an ownership record, or clears it. -/
theorem State.ownerOf_deckPass (r : Resource) : (s.deckPass b).ownerOf r = s.ownerOf r ∨ (s.deckPass b).ownerOf r = {} := by
  obtain ⟨_, _, hw⟩ := s.watchInterlock_frame
  rcases s.deckPass_beside b with ⟨_, _, _, _, h⟩ | ⟨-, -, _, _, _, _, h⟩
  · exact .inl (by rw [h, hw]; cases r <;> rfl)
  · exact .inr (by rw [h]; cases r <;> rfl)

end

/-! ## Stops (R133, R153, R163) -/

theorem otherMover_of_ne {m n : MoverId} (h : m ≠ n) : m = otherMover n := by cases m <;> cases n <;> first | rfl | exact absurd rfl h

section
variable (s : State) (m : MoverId) (c : Cause)

/-- A waiting mover that withdraws: its motion and its record are gone, and nothing else of the deck's motions has changed. -/
theorem State.withdraw_frame :
    (s.withdraw m c).mover m = { s.mover m with state := .atRest, motion := none }
      ∧ (s.withdraw m c).ownerOf (moverResource m) = {} ∧ (s.withdraw m c).mover (otherMover m) = s.mover (otherMover m)
      ∧ (∀ r, r ≠ moverResource m → (s.withdraw m c).ownerOf r = s.ownerOf r)
      ∧ (s.withdraw m c).windlass = s.windlass ∧ (s.withdraw m c).uptime = s.uptime := by
  have hd : ∀ u : State, (∀ n, u.dropIdleStart.mover n = u.mover n) ∧ (∀ r, u.dropIdleStart.ownerOf r = u.ownerOf r)
      ∧ u.dropIdleStart.windlass = u.windlass ∧ u.dropIdleStart.uptime = u.uptime := by
    intro u
    unfold State.dropIdleStart
    split
    · simp [State.hpuOff]
    · exact ⟨fun _ => rfl, fun _ => rfl, rfl, rfl⟩
  obtain ⟨h1, h2, h3, h4⟩ := hd ((s.onHpu fun h => h.withdraw m).returnToRest m c)
  refine ⟨(h1 m).trans ?_, (h2 _).trans ?_, (h1 _).trans ?_, fun r hr => (h2 r).trans ?_, h3.trans ?_, h4.trans ?_⟩
  · cases m <;> rfl
  · cases m <;> rfl
  · cases m <;> rfl
  · cases m <;> cases r <;> first | rfl | exact absurd rfl hr
  · cases m <;> rfl
  · cases m <;> rfl

theorem State.moverStop_other : (s.moverStop m c).mover (otherMover m) = s.mover (otherMover m) := by
  rcases s.moverStop_cases m c with ⟨-, e⟩ | ⟨-, e⟩ | ⟨-, -, e⟩ <;> rw [e]
  · exact s.mover_enterSettling_other m c
  · exact (s.withdraw_frame m c).2.2.1

theorem State.moverStop_ownerOf {r : Resource} (hr : r ≠ moverResource m) : (s.moverStop m c).ownerOf r = s.ownerOf r := by
  rcases s.moverStop_cases m c with ⟨-, e⟩ | ⟨-, e⟩ | ⟨-, -, e⟩ <;> rw [e]
  · exact s.ownerOf_onMover m _ r
  · exact (s.withdraw_frame m c).2.2.2.1 r hr

theorem State.moverStop_windlass : (s.moverStop m c).windlass = s.windlass := by
  rcases s.moverStop_cases m c with ⟨-, e⟩ | ⟨-, e⟩ | ⟨-, -, e⟩ <;> rw [e]
  · cases m <;> rfl
  · exact (s.withdraw_frame m c).2.2.2.2.1

theorem State.moverStop_uptime : (s.moverStop m c).uptime = s.uptime := by
  rcases s.moverStop_cases m c with ⟨-, e⟩ | ⟨-, e⟩ | ⟨-, -, e⟩ <;> rw [e]
  · cases m <;> rfl
  · exact (s.withdraw_frame m c).2.2.2.2.2

theorem State.mover_windlassStop : (s.windlassStop c).mover m = s.mover m := by
  rcases s.windlassStop_cases c with ⟨-, e⟩ | ⟨-, e⟩ <;> rw [e]
  cases m <;> rfl

theorem State.ownerOf_windlassStop (r : Resource) : (s.windlassStop c).ownerOf r = s.ownerOf r := by
  rcases s.windlassStop_cases c with ⟨-, e⟩ | ⟨-, e⟩ <;> rw [e]
  cases r <;> rfl

theorem State.windlassStop_uptime : (s.windlassStop c).uptime = s.uptime := by
  rcases s.windlassStop_cases c with ⟨-, e⟩ | ⟨-, e⟩ <;> exact (congrArg State.uptime e :)

end

/-- What a stop with a cause does to a resource's controller, and to its record where a waiting mover withdraws (R133, R153). -/
def State.Halted (s t : State) (r : Resource) (c : Cause) : Prop :=
  (∀ m, r = moverResource m →
    ((s.mover m).state = .moving → (t.mover m).StoppedAt s.uptime c ∧ t.ownerOf r = s.ownerOf r)
    ∧ ((s.mover m).state = .waitPump → t.mover m = { s.mover m with state := .atRest, motion := none } ∧ t.ownerOf r = {})
    ∧ ((s.mover m).state ≠ .moving → (s.mover m).state ≠ .waitPump → t.mover m = s.mover m ∧ t.ownerOf r = s.ownerOf r))
  ∧ (r = .windlass → t.windlassOwner = s.windlassOwner
    ∧ (s.windlass.underWay = true → t.windlass.StoppedAt s.uptime c) ∧ (s.windlass.underWay = false → t.windlass = s.windlass))

theorem State.stopResource_uptime (s : State) (r : Resource) (c : Cause) : (s.stopResource r c).uptime = s.uptime := by
  cases r
  · exact s.moverStop_uptime .hatch c
  · exact s.moverStop_uptime .platform c
  · exact s.windlassStop_uptime c

theorem State.moverStop_halted (s : State) (m : MoverId) (c : Cause) : s.Halted (s.moverStop m c) (moverResource m) c := by
  refine ⟨fun n hn => ?_, fun h => by cases m <;> cases h⟩
  obtain rfl := moverResource_inj.mp hn
  rcases s.moverStop_cases m c with ⟨h, e⟩ | ⟨h, e⟩ | ⟨h1, h2, e⟩ <;> rw [e]
  · exact ⟨fun _ => ⟨s.enterSettling_stoppedAt m c, s.ownerOf_onMover m _ _⟩, fun g => (nomatch h.symm.trans g), fun g => absurd h g⟩
  · exact ⟨fun g => (nomatch h.symm.trans g), fun _ => ⟨(s.withdraw_frame m c).1, (s.withdraw_frame m c).2.1⟩, fun _ g => absurd h g⟩
  · exact ⟨fun g => absurd g h1, fun g => absurd g h2, fun _ _ => ⟨rfl, rfl⟩⟩

theorem State.stopResource_halted (s : State) (r : Resource) (c : Cause) : s.Halted (s.stopResource r c) r c := by
  cases r
  · exact s.moverStop_halted .hatch c
  · exact s.moverStop_halted .platform c
  · refine ⟨fun m hm => (by cases m <;> cases hm), fun _ => ⟨s.ownerOf_windlassStop c .windlass, s.windlassStop_stoppedAt c, fun h => ?_⟩⟩
    rcases s.windlassStop_cases c with ⟨g, -⟩ | ⟨-, e⟩
    · rw [h] at g; cases g
    · exact congrArg State.windlass e

theorem State.moverStop_untouched (s : State) (m : MoverId) (c : Cause) {q : Resource} (h : q ≠ moverResource m) :
    s.Untouched (s.moverStop m c) q := by
  refine ⟨s.moverStop_ownerOf m c h, fun n hn => ?_, fun _ => s.moverStop_windlass m c⟩
  obtain rfl := otherMover_of_ne fun e : n = m => h (e ▸ hn)
  exact s.moverStop_other m c

/-- A stop reaches its resource alone. -/
theorem State.stopResource_untouched (s : State) {r q : Resource} (c : Cause) (h : q ≠ r) : s.Untouched (s.stopResource r c) q := by
  cases r
  · exact s.moverStop_untouched .hatch c h
  · exact s.moverStop_untouched .platform c h
  · exact ⟨s.ownerOf_windlassStop c q, fun m _ => s.mover_windlassStop m c, fun hq => absurd hq h⟩

theorem State.Untouched.refl {s : State} {r : Resource} : s.Untouched s r := ⟨rfl, fun _ _ => rfl, fun _ => rfl⟩

theorem State.Untouched.trans {s t u : State} {r : Resource} (h : s.Untouched t r) (g : t.Untouched u r) : s.Untouched u r :=
  ⟨g.1.trans h.1, fun m hm => (g.2.1 m hm).trans (h.2.1 m hm), fun hw => (g.2.2 hw).trans (h.2.2 hw)⟩

/-- A stop counts from any earlier state of the same moment that differs in other resources. -/
theorem State.Halted.after {s t u : State} {r : Resource} {c : Cause} (g : t.Halted u r c) (h : s.Untouched t r) (hu : t.uptime = s.uptime) :
    s.Halted u r c := by
  obtain ⟨ho, hm, hw⟩ := h
  refine ⟨fun m hr => ?_, fun hr => ?_⟩
  · have g := g.1 m hr
    rwa [hm m hr, ho, hu] at g
  · subst hr
    have ho : t.windlassOwner = s.windlassOwner := ho
    have g := g.2 rfl
    rwa [hw rfl, ho, hu] at g

theorem State.Halted.then {s t u : State} {r : Resource} {c : Cause} (g : s.Halted t r c) (h : t.Untouched u r) : s.Halted u r c := by
  obtain ⟨ho, hm, hw⟩ := h
  refine ⟨fun m hr => ?_, fun hr => ?_⟩
  · have g := g.1 m hr
    rwa [← hm m hr, ← ho] at g
  · subst hr
    have ho : u.windlassOwner = t.windlassOwner := ho
    have g := g.2 rfl
    rwa [← hw rfl, ← ho] at g

/-- No resource that a stop has reached is MOVING. -/
theorem State.Halted.rests {s t : State} {m : MoverId} {c : Cause} (h : s.Halted t (moverResource m) c) : (t.mover m).state ≠ .moving := by
  obtain ⟨h1, h2, h3⟩ := h.1 m rfl
  by_cases hm : (s.mover m).state = .moving
  · rw [(h1 hm).1.1]; decide
  · by_cases hw : (s.mover m).state = .waitPump
    · rw [(h2 hw).1]; exact fun h => nomatch h
    · rwa [(h3 hm hw).1]

/-- Stops of several resources reach each of them, and no other. -/
theorem State.stopAll_halted (s : State) (rs : List Resource) (hn : rs.Nodup) (c : Cause) :
    (∀ r ∈ rs, s.Halted (rs.foldl (fun s r => s.stopResource r c) s) r c)
      ∧ (∀ r, r ∉ rs → s.Untouched (rs.foldl (fun s r => s.stopResource r c) s) r)
      ∧ (rs.foldl (fun s r => s.stopResource r c) s).uptime = s.uptime := by
  induction rs generalizing s with
  | nil => exact ⟨fun _ h => (nomatch h), fun _ _ => .refl, rfl⟩
  | cons q qs ih =>
    obtain ⟨hq, hn⟩ := List.nodup_cons.mp hn
    obtain ⟨h1, h2, h3⟩ := ih (s.stopResource q c) hn
    refine ⟨fun r hr => ?_, fun r hr => ?_, h3.trans (s.stopResource_uptime q c)⟩
    · rcases List.mem_cons.mp hr with rfl | hr
      · exact (s.stopResource_halted r c).then (h2 r hq)
      · exact (h1 r hr).after (s.stopResource_untouched c fun e => hq (by rw [← e]; exact hr)) (s.stopResource_uptime q c)
    · exact (s.stopResource_untouched c fun e => hr (by rw [e]; exact List.mem_cons_self)).trans (h2 r fun h => hr (List.mem_cons_of_mem _ h))

/-- The resources STOP_MOTION's codes name (R136, R184). -/
theorem stopTargets?_some {code : Nat} (h : code ≤ 3) : ∃ rs, stopTargets? code = some rs ∧ rs.Nodup
    ∧ (∀ m, code = 0 ∨ (code = 1 ∧ m = .hatch) ∨ (code = 2 ∧ m = .platform) → moverResource m ∈ rs)
    ∧ (Resource.windlass ∈ rs ↔ code = 0 ∨ code = 3) :=
  match code, h with
  | 0, _ => ⟨_, rfl, by decide, fun m => by cases m <;> decide, by decide⟩
  | 1, _ => ⟨_, rfl, by decide, fun m => by cases m <;> decide, by decide⟩
  | 2, _ => ⟨_, rfl, by decide, fun m => by cases m <;> decide, by decide⟩
  | 3, _ => ⟨_, rfl, by decide, fun m => by cases m <;> decide, by decide⟩

/-! ## The codes of a key map (R160, R184) -/

theorem keyFunction?_isSome {c : Nat} : (keyFunction? c).isSome = true ↔ c ≤ 6 := by
  match c with
  | 0 | 1 | 2 | 3 | 4 | 5 | 6 => simp [keyFunction?]
  | n + 7 => simp [keyFunction?]

/-- Six codes of functions are a key map, code by code. -/
theorem keyMap?_some {codes : List Nat} {map : Vector KeyFunction 6} (hl : codes.length = 6)
    (h : ∀ i : Fin 6, keyFunction? (codes.getD i 7) = some map[i]) : keyMap? codes = some map := by
  match codes, hl with
  | [a, b, c, d, e, f], _ =>
    have h0 := h 0; have h1 := h 1; have h2 := h 2; have h3 := h 3; have h4 := h 4; have h5 := h 5
    simp at h0 h1 h2 h3 h4 h5
    have hm : [a, b, c, d, e, f].mapM keyFunction? = some [map[0], map[1], map[2], map[3], map[4], map[5]] := by
      simp [h0, h1, h2, h3, h4, h5]
    rw [keyMap?, hm]
    dsimp only
    rw [dif_pos (by simp)]
    refine congrArg some (Vector.ext fun i hi => ?_)
    match i, hi with
    | 0, _ | 1, _ | 2, _ | 3, _ | 4, _ | 5, _ => rfl

/-- A list maps whole only where every member does. -/
theorem mapM_isSome {α β : Type} {f : α → Option β} {l : List α} (h : (l.mapM f).isSome = true) : ∀ x ∈ l, (f x).isSome = true := by
  induction l with
  | nil => simp
  | cons x l ih =>
    simp only [List.mapM_cons] at h
    cases hx : f x with
    | none => simp [hx] at h
    | some y =>
      cases hl : l.mapM f with
      | none => simp [hx, hl] at h
      | some ys => exact List.forall_mem_cons.mpr ⟨hx ▸ rfl, ih (hl ▸ rfl)⟩

/-- A code above 6 makes no key map. -/
theorem keyMap?_none {codes : List Nat} (h : ∃ c ∈ codes, 6 < c) : keyMap? codes = none := by
  obtain ⟨c, hc, h6⟩ := h
  have hm : codes.mapM keyFunction? = none := by
    cases hv : codes.mapM keyFunction? with
    | none => rfl
    | some fs => exact absurd (keyFunction?_isSome.mp (mapM_isSome (hv ▸ rfl) c hc)) (by omega)
  rw [keyMap?, hm]

/-- Six codes up to 6 make a key map. -/
theorem keyMap?_isSome {codes : List Nat} (hl : codes.length = 6) (h : ∀ c ∈ codes, c ≤ 6) : ∃ map, keyMap? codes = some map := by
  have hc : ∀ i : Fin 6, (keyFunction? (codes.getD i 7)).isSome = true := fun i => by
    have hi : (i : Nat) < codes.length := by omega
    rw [List.getD_eq_getElem _ _ hi]
    exact keyFunction?_isSome.mpr (h _ (List.getElem_mem hi))
  exact ⟨Vector.ofFn fun i => (keyFunction? (codes.getD i 7)).get (hc i), keyMap?_some hl fun i => by simp⟩

/-! ## The fault conditions (R124, R135, R155) -/

theorem State.hpuCondition_iff (s : State) :
    s.hpuCondition = true ↔ (s.input 3).faulted = true ∨ (s.hpu.settings.overpressure : Int) < (s.input 3).scaled := by
  rw [State.hpuCondition, Bool.or_eq_true, decide_eq_true_iff, State.pressure]

theorem State.windlassCondition_iff (s : State) :
    s.windlassCondition = true ↔ (s.input 6).faulted = true ∨ (s.windlass.settings.overCurrent : Int) < (s.input 6).scaled
      ∨ ((s.input 1).faulted = false ∧ (s.input 1).scaled < (s.input 1).settings.lowLimit) := by
  simp only [State.windlassCondition, State.supplyLow, Bool.or_eq_true, Bool.and_eq_true, decide_eq_true_iff, Bool.not_eq_true', or_assoc]
  rfl

theorem beyondEnd_iff {e other angle : Int} :
    beyondEnd e other angle = true ↔ if e ≤ other then angle < e - 30 else e + 30 < angle := by
  unfold beyondEnd
  split <;> exact decide_eq_true_iff

theorem Mover.disagrees_iff {r : Mover} {angle : Int} :
    r.disagrees angle = true ↔ (r.lowSw = true ∧ 50 < (angle - r.settings.low).natAbs)
      ∨ (r.highSw = true ∧ 50 < (angle - r.settings.high).natAbs) := by
  simp [Mover.disagrees]

theorem State.moverCondition_iff (s : State) (m : MoverId) :
    s.moverCondition m = true ↔ s.angleFaulted m = true ∨ (s.mover m).disagrees (s.angle m) = true
      ∨ ((s.mover m).lowSw = false ∧ beyondEnd (s.mover m).settings.low (s.mover m).settings.high (s.angle m) = true)
      ∨ ((s.mover m).highSw = false ∧ beyondEnd (s.mover m).settings.high (s.mover m).settings.low (s.angle m) = true) := by
  simp [State.moverCondition, or_assoc, and_comm]

end Sys2Proof.Machine

namespace Sys2Proof.Proofs

open Sys2Proof.Machine

/-- Settles O40: each settings request is served as an edit of CONFIG, and its own test of the figures decides. -/
theorem settingsStored : Obligations.SettingsStored := by
  intro s tag hm hs
  refine ⟨?_, ?_, fun m y => ?_, fun n lo hi ll hl y => ?_, fun f => ?_, ?_, fun f hf => ?_, fun f hf => ?_, ?_, ?_⟩
  · intro rate silence fb f hr h1 h60 hf
    show answered _ _ (s.configEdit _) = _
    rw [State.configEdit_served hm hs]
    obtain ⟨rfl, rfl⟩ | ⟨rfl, rfl⟩ := hf
    all_goals exact congrArg (answered _ _) (if_neg (by omega))
  · intro rate silence fb h
    show answered _ _ (s.configEdit _) = _
    rw [State.configEdit_served hm hs]
    match fb, h with
    | 0, h | 1, h => exact congrArg (answered _ _) (if_pos (by omega))
    | _ + 2, _ => rfl
  · show answered _ _ (s.configEdit _) = _
    rw [State.configEdit_served hm hs]
    by_cases h : m ≤ 20000 ∧ y ≤ 10000
    · rw [if_pos h]; exact congrArg (answered _ _) (if_neg (by omega))
    · rw [if_neg h]; exact congrArg (answered _ _) (if_pos (by omega))
  · show answered _ _ (s.configEdit _) = _
    rw [State.configEdit_served hm hs]
    by_cases h : 1 ≤ n ∧ n ≤ 8 ∧ y ≤ 32767 ∧ ll ≤ hl
    · rw [if_pos h]; exact congrArg (answered _ _) (if_neg (by omega))
    · rw [if_neg h]; exact congrArg (answered _ _) (if_pos (by omega))
  · show answered _ _ (s.configEdit _) = _
    rw [State.configEdit_served hm hs]
    by_cases h : hpuInRange f = true
    · rw [if_pos h, if_pos (by simpa [hpuInRange, and_assoc] using h)]; rfl
    · rw [if_neg h, if_neg (by simpa [hpuInRange, and_assoc] using h)]; rfl
  · intro a1 a2 a3 ms h1 h2 h3
    have ha : ∀ a : Int, -32768 ≤ a ∧ a ≤ 32767 → angleInRange a = true := fun _ => decide_eq_true
    constructor
    · intro hl hh
      constructor
      all_goals
        show answered _ _ (s.configEdit _) = _
        rw [State.configEdit_served hm hs]
        exact congrArg (answered _ _) (if_neg (by simp [ha _ h1, ha _ h2, ha _ h3]; omega))
    · intro r hr
      show answered _ _ (s.configEdit _) = _
      rw [State.configEdit_served hm hs]
      match r, hr with
      | 0, _ | _ + 3, _ => rfl
      | 1, hr | 2, hr => exact congrArg (answered _ _) (if_pos (by omega))
  · refine ⟨s.onWindlass fun w => w.withSettings f, ?_, fun e1 e2 => ?_, fun e => ?_⟩
    · show answered _ _ (s.configEdit _) = _
      rw [State.configEdit_served hm hs, hf]
      rfl
    · exact congrArg (fun w => { s with windlass := w })
        (if_pos (c := f.countsPerRev = s.windlass.settings.countsPerRev ∧ f.mmPerRev = s.windlass.settings.mmPerRev) ⟨e1, e2⟩)
    · exact congrArg (fun w => { s with windlass := w })
        (if_neg (c := f.countsPerRev = s.windlass.settings.countsPerRev ∧ f.mmPerRev = s.windlass.settings.mmPerRev)
          fun h => e.elim (· h.1) (· h.2))
  · obtain ⟨n, hn⟩ := Option.ne_none_iff_exists'.mp hf
    show answered _ _ (s.configEdit _) = _
    rw [State.configEdit_served hm hs, hn]
    rfl
  · intro addr codes map r h1 h119 hr ht hl hc
    show answered _ _ (s.configEdit _) = _
    rw [State.configEdit_served hm hs, keyMap?_some hl hc]
    dsimp only
    rw [if_neg (by omega), hr]
    dsimp only
    rw [if_neg (not_not.mpr ht)]
    rfl
  · intro addr codes hl
    refine ⟨fun h => ?_, fun h1 h119 hc => ?_⟩
    · show answered _ _ (s.configEdit _) = _
      rw [State.configEdit_served hm hs]
      cases hk : keyMap? codes with
      | none => rfl
      | some map =>
        have hc : ¬ ∃ c ∈ codes, 6 < c := fun h => by rw [keyMap?_none h] at hk; cases hk
        exact congrArg (answered _ _) (if_pos (h.imp_right (·.resolve_right hc)))
    · obtain ⟨map, hk⟩ := keyMap?_isSome hl hc
      refine ⟨fun hn => ?_, fun r hr ht => ?_⟩
      all_goals
        show answered _ _ (s.configEdit _) = _
        rw [State.configEdit_served hm hs, hk]
        dsimp only
        rw [if_neg (by omega)]
      · rw [hn]; rfl
      · rw [hr]; exact congrArg (answered _ _) (if_pos ht)

/-- Settles O45: the stops of the three resources touch one resource each, and what follows an operation leaves a resource that is not
MOVING. -/
theorem stopMotionStops : Obligations.StopMotionStops := by
  intro s tag code
  refine ⟨fun h => ?_, fun h => ?_⟩
  · match code, h with
    | _ + 4, _ => rfl
  · obtain ⟨rs, hrs, hnd, hmem, hwin⟩ := stopTargets?_some h
    obtain ⟨h1, h2, -⟩ := s.stopAll_halted rs hnd .stopRequest
    refine ⟨(rs.foldl (fun s r => s.stopResource r .stopRequest) s).deckPass s, ?_, fun m hm => ?_, fun hw => ?_, fun hw => ?_⟩
    · show answered _ _ _ = _
      rw [hrs]; rfl
    · have hh := h1 _ (hmem m hm)
      obtain ⟨hmov, hwait, hstand⟩ := hh.1 m rfl
      rw [State.mover_deckPass _ _ hh.rests]
      refine ⟨fun g => ?_, fun g => ?_, fun g => (hstand (by rcases g with g | g | g <;> simp [g]) (by rcases g with g | g | g <;> simp [g])).1⟩
      · obtain ⟨a, b, c, d, e, -⟩ := (hmov g).1
        exact ⟨a, b, c, d, e⟩
      · refine ⟨by rw [(hwait g).1], ?_⟩
        rcases State.ownerOf_deckPass (rs.foldl (fun s r => s.stopResource r .stopRequest) s) s (moverResource m) with e | e
        · rw [e]; exact (hwait g).2
        · exact e
    · obtain ⟨-, hrun, hstand⟩ := (h1 _ (hwin.mpr hw)).2 rfl
      rw [State.deckPass_windlass]
      refine ⟨fun g => ?_, hstand⟩
      obtain ⟨a, b, c, d, e, f, g, -⟩ := hrun g
      exact ⟨a, b, by simp [Windlass.contactorClosed, c, d], e, f, g⟩
    · rw [State.deckPass_windlass]
      exact (h2 _ fun e => by have := hwin.mp e; omega).2.2 rfl

/-- Settles O60: each read's answer is its definition's, with no state changed before the reply. -/
theorem readsChangeNothing : Obligations.ReadsChangeNothing := by
  intro s tag
  refine ⟨?_, ?_, ?_, ?_, ?_, ?_, ?_, ?_, ?_, ?_, ?_, ?_, ?_, ?_, ?_, ?_, ?_, ?_, ?_, ?_, ?_, ?_, ?_⟩
  · intro n f c h1 h96 hc
    show answered _ _ (if _ then _ else if _ then _ else _) = _
    rw [if_neg (by omega), if_neg (by omega), hc]; rfl
  · intro f hf
    exact congrArg (answered _ _) ((if_neg (by omega)).trans (if_pos rfl))
  · intro n f h1 h96 hc
    show answered _ _ (if _ then _ else if _ then _ else _) = _
    rw [if_neg (by omega), if_neg (by omega), hc]; rfl
  · intro n f sc h1 h64 hc
    show answered _ _ (if _ then _ else if _ then _ else _) = _
    rw [if_neg (by omega), if_neg (by omega), hc]; rfl
  · intro n f h1 h64 hc
    show answered _ _ (if _ then _ else if _ then _ else _) = _
    rw [if_neg (by omega), if_neg (by omega), hc]; rfl
  · intro f; rfl
  · intro n f b h1 h64 hc
    show answered _ _ (if _ then _ else if _ then _ else _) = _
    rw [if_neg (by omega), if_neg (by omega), hc]; rfl
  · intro n f h1 h64 hc
    show answered _ _ (if _ then _ else if _ then _ else _) = _
    rw [if_neg (by omega), if_neg (by omega), hc]; rfl
  · intro f
    refine congrArg (fun f => Host.Outcome.next (s.replied 0x2F tag .ok (.bindingList s.bindings.length (List.map f _)))) (funext fun b => ?_)
    obtain ⟨slot, trigger, action, fires⟩ := b
    cases trigger <;> cases action <;> rfl
  · intro a r h1 h119 hr
    show answered _ _ (if _ then _ else if _ then _ else _) = _
    rw [if_neg (by omega), if_neg (by omega), hr]; rfl
  · intro a h1 h119 hr
    show answered _ _ (if _ then _ else if _ then _ else _) = _
    rw [if_neg (by omega), if_neg (by omega), hr]; rfl
  · rfl
  · rfl
  · rfl
  · rfl
  · rintro i x h1 h8 rfl
    exact congrArg (answered _ _) ((if_neg (by omega)).trans (if_neg (by omega)))
  · rfl
  · rfl
  · rfl
  · rfl
  · rfl
  · intro a r t h1 h119 hr ht hs
    show answered _ _ (if _ then _ else _) = _
    rw [if_neg (by omega), hr, hs]; dsimp only; rw [ht]; rfl
  · intro a h1 h119 hr
    show answered _ _ (if _ then _ else _) = _
    rw [if_neg (by omega), hr]; rfl

/-- Settles O46: CLEAR_FAULT asks for the resource's own condition, each piece of which is a comparison of the statement. -/
theorem clearFaultClears : Obligations.ClearFaultClears := by
  intro s tag
  refine ⟨?_, ?_, fun hf h => ?_, fun hf h1 h2 h3 => ?_, fun hf => ?_, fun hf h => ?_, fun hf h1 h2 => ?_, fun hf => ?_⟩
  · intro code h
    match code, h with
    | 0, _ | _ + 5, _ => rfl
  · intro code m angle r condition hm hr hc
    subst hr
    have hx : exec (.clearFault tag code) s = answered 0x44 tag ((s.clearMover m).deck s) := by
      obtain ⟨rfl, rfl, -⟩ | ⟨rfl, rfl, -⟩ := hm <;> rfl
    have ha : angle = s.input (angleInput m) := by
      obtain ⟨-, rfl, h⟩ | ⟨-, rfl, h⟩ := hm <;> exact h
    subst ha
    rw [hx]
    have hcond : s.moverCondition m = true ↔ condition := by
      rw [hc, State.moverCondition_iff, Mover.disagrees_iff, beyondEnd_iff, beyondEnd_iff, or_assoc]
      rfl
    refine ⟨fun hf h => ?_, fun hf h => ?_, fun hf => ?_⟩
    · exact congrArg (fun r => answered _ _ (Served.deck r s)) ((if_pos hf).trans (if_pos (hcond.mpr h)))
    · exact congrArg (fun r => answered _ _ (Served.deck r s)) ((if_pos hf).trans (if_neg (mt hcond.mp h)))
    · exact congrArg (fun r => answered _ _ (Served.deck r s)) (if_neg hf)
  · exact congrArg (fun r => answered _ _ (Served.deck r s)) ((if_pos hf).trans (if_pos (s.windlassCondition_iff.mpr h)))
  · have hcond : ¬ s.windlassCondition = true := by
      rw [s.windlassCondition_iff, h1]
      rintro (h | h | ⟨ha, hb⟩)
      · cases h
      · omega
      · exact h3.elim (by simp [ha]) (by omega)
    exact congrArg (fun r => answered _ _ (Served.deck r s)) ((if_pos hf).trans (if_neg hcond))
  · exact congrArg (fun r => answered _ _ (Served.deck r s)) (if_neg hf)
  · exact congrArg (fun r => answered _ _ (Served.deck r s)) ((if_pos hf).trans (if_pos (s.hpuCondition_iff.mpr h)))
  · have hcond : ¬ s.hpuCondition = true := by simp [s.hpuCondition_iff, h1, h2]
    exact congrArg (fun r => answered _ _ (Served.deck r s)) ((if_pos hf).trans (if_neg hcond))
  · exact congrArg (fun r => answered _ _ (Served.deck r s)) (if_neg hf)

end Sys2Proof.Proofs
end

section
/-!
PROOFS. Deck operations, motions and switches (R117, R125 to R131, R168, R188): O41, O42 and O43.
-/

namespace Sys2Proof.Machine

/-! ## The lamps (R168, R169) -/

/-- A LAMPS transaction is due to an address: an ACTIVE station's, whose lamps an operation has changed from those of the state before
and that differ from those last delivered. -/
def State.LampsDue (s b : State) (a : Nat) : Prop :=
  ∃ t r, s.station a = some t ∧ s.node a = some r ∧ r.state = .active ∧ t.delivered ≠ some (s.lampsOf t)
    ∧ (b.station a).map b.lampsOf ≠ some (s.lampsOf t)

/-- The lamps asked for at one address, where the operation has changed them, are due. -/
theorem State.requestLamps_due (s b : State) {a : Nat} (h : (b.station a).map b.lampsOf ≠ (s.station a).map s.lampsOf) :
    ∃ q, s.requestLamps a = s.onBus (fun b => { b with queue := q })
      ∧ ∀ x ∈ q, x ∈ s.bus.queue ∨ (x.kind = .lamps ∧ s.LampsDue b x.target) := by
  have keep : ∃ q, s = s.onBus (fun b => { b with queue := q })
      ∧ ∀ x ∈ q, x ∈ s.bus.queue ∨ (x.kind = .lamps ∧ s.LampsDue b x.target) := ⟨s.bus.queue, rfl, fun _ => .inl⟩
  unfold State.requestLamps
  cases ht : s.station a with
  | none => exact keep
  | some t =>
    dsimp only
    by_cases hc : (s.node a).any (fun r => decide (r.state = .active)) = true ∧ t.delivered ≠ some (s.lampsOf t)
    · rw [if_pos hc]
      obtain ⟨q, hq, hin, -⟩ := s.askTx_queue .lamps a
      refine ⟨q, hq, fun x hx => (hin x hx).imp_right ?_⟩
      rintro ⟨hk, rfl⟩
      obtain ⟨hact, hdel⟩ := hc
      cases hr : s.node x.target with
      | none => simp [hr] at hact
      | some r => exact ⟨hk, t, r, ht, hr, by simpa [hr] using hact, hdel, by simpa [ht] using h⟩
    · rw [if_neg hc]; exact keep

/-- The lamps recomputed after an operation: only LAMPS entries that are due join the queue. -/
theorem State.lampPass_due (s b : State) :
    ∃ q, s.lampPass b = s.onBus (fun c => { c with queue := q })
      ∧ ∀ x ∈ q, x ∈ s.bus.queue ∨ (x.kind = .lamps ∧ s.LampsDue b x.target) := by
  have key : ∀ (ts : List Station) (q : List Entry), (∀ x ∈ q, x ∈ s.bus.queue ∨ (x.kind = .lamps ∧ s.LampsDue b x.target)) →
      ∃ q', ts.foldl (fun s t =>
          if (b.station t.addr).map b.lampsOf = (s.station t.addr).map s.lampsOf then s else s.requestLamps t.addr)
          (s.onBus fun c => { c with queue := q }) = s.onBus (fun c => { c with queue := q' })
        ∧ ∀ x ∈ q', x ∈ s.bus.queue ∨ (x.kind = .lamps ∧ s.LampsDue b x.target) := by
    intro ts
    induction ts with
    | nil => exact fun q hq => ⟨q, rfl, hq⟩
    | cons t ts ih =>
      intro q hq
      rw [List.foldl_cons]
      split
      · exact ih q hq
      · rename_i h
        obtain ⟨q', e, hq'⟩ := (s.onBus fun c => { c with queue := q }).requestLamps_due b h
        rw [e]
        exact ih q' fun x hx => (hq' x hx).elim (hq x) .inr
  exact key s.stations s.bus.queue fun _ => .inl

/-! ## What follows a deck operation -/

theorem State.drained_iff (s : State) :
    s.drained = true ↔ (s.hpu.state = .off ∨ s.hpu.state = .fault) ∧ (s.hatch.state = .atRest ∨ s.hatch.state = .fault)
      ∧ (s.platform.state = .atRest ∨ s.platform.state = .fault) ∧ (s.windlass.state = .idle ∨ s.windlass.state = .fault) :=
  decide_eq_true_iff

/-- The watch of one mover sends none to rest, and takes none from it. -/
theorem State.quiet_watchInterlockOf (s : State) (m n : MoverId) :
    ((s.watchInterlockOf m).mover n).state = .atRest ∨ ((s.watchInterlockOf m).mover n).state = .fault
      ↔ (s.mover n).state = .atRest ∨ (s.mover n).state = .fault := by
  rcases s.watchInterlockOf_cases m with ⟨hm, -, e⟩ | ⟨-, e⟩ <;> rw [e]
  by_cases h : n = m
  · subst h
    rw [s.mover_enterSettling, hm]
    simp
  · rw [otherMover_of_ne h, s.mover_enterSettling_other]

/-- The interlock watch neither ends nor begins a drain. -/
theorem State.drained_watchInterlock (s : State) : s.watchInterlock.drained = true ↔ s.drained = true := by
  have hq : ∀ n, _ := fun n => (State.quiet_watchInterlockOf (s.watchInterlockOf .hatch) .platform n).trans (s.quiet_watchInterlockOf .hatch n)
  have h := hq .hatch
  have p := hq .platform
  obtain ⟨_, _, e⟩ := s.watchInterlock_frame
  have hw : s.watchInterlock.windlass = s.windlass := by rw [e]
  have hp : s.watchInterlock.hpu = s.hpu := by rw [e]
  rw [State.drained_iff, State.drained_iff, hw, hp]
  exact and_congr_right fun _ => and_congr h (and_congr_left' p)

theorem State.watchInterlock_mode (s : State) : s.watchInterlock.mode = s.mode := by
  obtain ⟨_, _, e⟩ := s.watchInterlock_frame
  rw [e]

/-- The mode after a deck operation: CONFIG where a drain ends, else as before. -/
theorem State.deckPass_mode (s b : State) :
    (s.deckPass b).mode = if s.mode = .stopping ∧ s.drained = true then .config else s.mode := by
  rcases s.deckPass_beside b with ⟨_, _, _, _, e⟩ | ⟨hm, hd, _, _, _, _, e⟩
  · by_cases h : s.mode = .stopping ∧ s.drained = true
    · rw [State.deckPass_drained b (s.watchInterlock_mode.trans h.1) (s.drained_watchInterlock.mpr h.2), if_pos h]
      obtain ⟨_, _, _, _, e⟩ := (Beside.of_busToConfig s.watchInterlock.configured).trans (.of_lampPass _ b)
      rw [← State.enterConfig_eq] at e
      rw [e]
      rfl
    · rw [e, if_neg h]
      exact s.watchInterlock_mode
  · rw [e, if_pos ⟨s.watchInterlock_mode.symm.trans hm, s.drained_watchInterlock.mp hd⟩]
    rfl

/-- A MOVING mover whose interlock fails, the other one not MOVING, has settled by the end of the interlock watch. -/
theorem State.mover_watchInterlock_failed {s : State} {m : MoverId} (hm : (s.mover m).state = .moving)
    (ho : (s.mover (otherMover m)).state ≠ .moving) (hi : s.motionInterlock m = false) :
    s.watchInterlock.mover m = (s.enterSettling m .interlock).mover m := by
  have hit : ∀ u : State, u = s → u.watchInterlockOf m = s.enterSettling m .interlock := by
    rintro u rfl
    rcases u.watchInterlockOf_cases m with ⟨-, -, e⟩ | ⟨h, -⟩
    · exact e
    · exact h.elim (absurd hm) fun h => by rw [hi] at h; cases h
  have miss : ∀ (u : State) n, (u.mover n).state ≠ .moving → u.watchInterlockOf n = u := by
    intro u n h
    rcases u.watchInterlockOf_cases n with ⟨g, -⟩ | ⟨-, e⟩
    · exact absurd g h
    · exact e
  unfold State.watchInterlock
  cases m
  · rw [hit s rfl, miss]
    exact fun h => ho ((congrArg Mover.state (s.mover_enterSettling_other .hatch .interlock)).symm.trans h)
  · rw [miss s .hatch ho, hit s rfl]

/-! ## Switches and positions (R117, R125, R131) -/

/-- What the deck switches tell of a mover: their states and the position. -/
def Mover.place (r : Mover) : Bool × Bool × Position := (r.lowSw, r.highSw, r.position)

theorem State.place_enterSettling (s : State) (m n : MoverId) (c : Cause) : ((s.enterSettling m c).mover n).place = (s.mover n).place := by
  by_cases h : n = m
  · subst h; rw [s.mover_enterSettling]; rfl
  · rw [otherMover_of_ne h, s.mover_enterSettling_other]

theorem State.place_watchInterlockOf (s : State) (m n : MoverId) : ((s.watchInterlockOf m).mover n).place = (s.mover n).place := by
  rcases s.watchInterlockOf_cases m with ⟨-, -, e⟩ | ⟨-, e⟩ <;> rw [e]
  exact s.place_enterSettling m n .interlock

/-- What follows a deck operation leaves the switches and the positions. -/
theorem State.place_deckPass (s b : State) (n : MoverId) : ((s.deckPass b).mover n).place = (s.mover n).place := by
  have hw : (s.watchInterlock.mover n).place = (s.mover n).place :=
    (State.place_watchInterlockOf _ _ n).trans (s.place_watchInterlockOf _ n)
  rw [← hw]
  rcases s.deckPass_beside b with ⟨_, _, _, _, e⟩ | ⟨-, -, _, _, _, _, e⟩ <;> rw [e] <;> cases n <;> rfl

theorem State.switchArrival_cases (s : State) (sw : DeckSwitch) (a : Bool) :
    (∃ c, s.switchArrival sw a = s.enterSettling (switchMover sw) c) ∨ s.switchArrival sw a = s := by
  unfold State.switchArrival
  dsimp only
  split
  · exact .inr rfl
  · split
    · exact .inl ⟨_, rfl⟩
    · exact .inr rfl

/-- A state with a switch changed and its mover's position evaluated again. -/
def State.switched (s : State) (sw : DeckSwitch) (active : Bool) : State :=
  (s.onMover (switchMover sw) fun r => r.setSwitch sw active).reposition (switchMover sw)

theorem State.switchEvent_eq (s : State) (sw : DeckSwitch) (active : Bool) : s.switchEvent sw active =
    ((s.switched sw active).watchInterlockOf (otherMover (switchMover sw))).switchArrival sw (active && !s.switchState sw) := rfl

theorem State.place_switchEvent (s : State) (sw : DeckSwitch) (active : Bool) (n : MoverId) :
    ((s.switchEvent sw active).mover n).place = ((s.switched sw active).mover n).place := by
  rw [State.switchEvent_eq]
  refine Eq.trans ?_ (State.place_watchInterlockOf _ (otherMover (switchMover sw)) n)
  rcases State.switchArrival_cases ((s.switched sw active).watchInterlockOf (otherMover (switchMover sw))) sw (active && !s.switchState sw)
    with ⟨c, e⟩ | e <;> rw [e]
  exact State.place_enterSettling _ _ _ _

/-- The mover of a switch, when the event has been seen: its state and motion stand. -/
theorem State.switched_mover (s : State) (sw : DeckSwitch) (active : Bool) :
    ((s.switched sw active).mover (switchMover sw)).state = (s.mover (switchMover sw)).state
      ∧ ((s.switched sw active).mover (switchMover sw)).motion = (s.mover (switchMover sw)).motion := by
  cases sw <;> exact ⟨rfl, rfl⟩

/-- A MOVING mover arrives at the end its motion goes to, when that end's switch becomes ACTIVE (R131). -/
theorem State.switchEvent_arrives {s : State} {sw : DeckSwitch} {k : Motion} (hs : s.switchState sw = false)
    (hm : (s.mover (switchMover sw)).state = .moving) (hk : (s.mover (switchMover sw)).motion = some k) (hg : k.goal = switchEnd sw) :
    ((s.switchEvent sw true).mover (switchMover sw)).StoppedAt s.uptime k.arrival := by
  have hu : ∀ u : State, ((u.watchInterlockOf (otherMover (switchMover sw))).mover (switchMover sw)) = u.mover (switchMover sw)
      ∧ (u.watchInterlockOf (otherMover (switchMover sw))).uptime = u.uptime := by
    intro u
    rcases u.watchInterlockOf_cases (otherMover (switchMover sw)) with ⟨-, -, e⟩ | ⟨-, e⟩ <;> rw [e]
    · cases sw <;> exact ⟨rfl, rfl⟩
    · exact ⟨rfl, rfl⟩
  obtain ⟨hmov, hup⟩ := hu (s.switched sw true)
  obtain ⟨h1, h2⟩ := s.switched_mover sw true
  have hup' : (s.switched sw true).uptime = s.uptime := by cases sw <;> rfl
  have h1 := (congrArg Mover.state hmov).trans (h1.trans hm)
  have h2 := (congrArg Mover.motion hmov).trans (h2.trans hk)
  rw [State.switchEvent_eq, State.switchArrival, h2]
  dsimp only
  rw [if_pos ⟨by simp [hs], h1, hg⟩, ← hup', ← hup]
  exact State.enterSettling_stoppedAt _ _ _

/-- The hatch's position, by its switches (R125). -/
theorem State.evalPosition_hatch (s : State) : s.evalPosition .hatch =
    if s.hatch.lowSw = s.hatch.highSw then .between else if s.hatch.lowSw then .closed else .opened := by
  show (match s.hatch.lowSw, s.hatch.highSw with | true, false => Position.closed | false, true => .opened | _, _ => .between) = _
  cases s.hatch.lowSw <;> cases s.hatch.highSw <;> rfl

/-- The platform's position, by its switches and, where neither is ACTIVE, its angle (R125). -/
theorem State.evalPosition_platform (s : State) : s.evalPosition .platform =
    if s.platform.lowSw ∧ s.platform.highSw then .between else if s.platform.lowSw then .submerged else if s.platform.highSw then .stowed
    else if s.angleFaulted .platform = false ∧ s.platform.settings.deck - 10 ≤ s.angle .platform
      ∧ s.angle .platform ≤ s.platform.settings.deck + 10 then .atDeck else .between := by
  have hb : s.platform.inDeckBand (s.angle .platform) = true
      ↔ s.platform.settings.deck - 10 ≤ s.angle .platform ∧ s.angle .platform ≤ s.platform.settings.deck + 10 := decide_eq_true_iff
  simp only [← hb]
  cases hl : s.platform.lowSw <;> cases hh : s.platform.highSw <;> simp [State.evalPosition, State.mover, hl, hh]
  congr

/-! ## MOVE (R128) -/

/-- MOVE in RUN of a mover to one of its ends. -/
theorem exec_move {s : State} {code target : Nat} {m : MoverId} {goal : Position} (tag : Byte) (hr : s.mode = .run)
    (hm : mover? code = some m) (hg : moveTarget? m target = some goal) :
    exec (.move tag code target) s = answered 0x42 tag ((s.moveTo m goal).deck s) := by
  show answered _ _ (if _ then _ else _) = _
  rw [if_neg (not_not.mpr hr), hm]
  dsimp only
  rw [hg]

/-- MOVE of a mover nobody owns, not in FAULT, to an end it is not at, with no angle within the deck's band in its way. -/
theorem State.moveTo_starts {s : State} {m : MoverId} {goal : Position} (ho : (s.ownerOf (moverResource m)).owner = .none)
    (hf : (s.mover m).state ≠ .fault) (hp : (s.mover m).position ≠ goal)
    (hd : ¬ (m = .platform ∧ goal = .atDeck ∧ s.platform.inDeckBand (s.angle .platform) = true)) {st : State} {a : Option Status}
    (h : s.startMotion m .target (s.moveDirection m goal) goal = (st, a)) :
    s.moveTo m goal = a.elim (st.hostOwns (moverResource m) (s.moveDirection m goal) (some (.position goal))).accept st.refuse := by
  have hn : s.ownerRefusal (moverResource m) = none := by rw [State.ownerRefusal, ho]
  rw [State.moveTo, hn]
  dsimp only
  rw [if_neg hf, if_neg (fun e => hp e.2), if_neg hd, h]
  cases a <;> rfl

/-- A motion with its inputs good and its interlock passed asks for the pump. -/
theorem State.startMotion_asks {s : State} {m : MoverId} (kind : MotionKind) (dir : Direction) (goal : Position)
    (ha : s.angleFaulted m = false) (hp : (s.input 3).faulted = false) (hi : s.interlock m (s.stowFlag m (s.mover m).position goal) = true) :
    s.startMotion m kind dir goal = s.pump m ⟨kind, dir, goal, s.stowFlag m (s.mover m).position goal, (s.mover m).position, none⟩ := by
  show (if _ then _ else if _ then _ else _) = _
  rw [if_neg (by simp [ha, hp]), if_neg (not_not.mpr hi)]

theorem State.startAdmission_uptime {s a : State} {m : Motor} {g i w : Nat} {b : Bool} (h : s.startAdmission m g i w = (a, b)) :
    a.uptime = s.uptime := by
  obtain ⟨_, _, _, _, _, _, e⟩ := (Allocated.of_startAdmission s m g i w).frame
  exact (congrArg (fun p => p.1.uptime) h).symm.trans (by rw [e])

section
variable {s : State} (m : MoverId) (k : Motion)

theorem State.pump_ready (h : s.hpu.state = .ready) : s.pump m k = ((s.onHpu fun h => { h with waiting := some m }).waitsFor m k, none) := by
  rw [State.pump, h]; rfl

theorem State.pump_startingHeld {n : MoverId} (h : s.hpu.state = .starting) (hh : s.hpu.holder = some n) :
    s.pump m k = ((s.onHpu fun h => { h with waiting := some m }).waitsFor m k, none) := by
  rw [State.pump, h]
  refine congrArg (fun p => (State.waitsFor { s with hpu := p } m k, none)) ?_
  simp [hh]

theorem State.pump_startingFree (h : s.hpu.state = .starting) (hh : s.hpu.holder = none) :
    s.pump m k = ((s.onHpu fun h => { h with holder := some m }).waitsFor m k, none) := by
  rw [State.pump, h]
  refine congrArg (fun p => (State.waitsFor { s with hpu := p } m k, none)) ?_
  simp [hh]

theorem State.pump_runOn (h : s.hpu.state = .runOn) :
    s.pump m k = ((s.onMover m fun r => { r with motion := some k }).givePump m, none) := by
  rw [State.pump, h]

theorem State.pump_off (h : s.hpu.state = .off) (hp : (s.input 3).faulted = false) {a : State}
    (ha : s.startAdmission .hpu s.hpu.settings.rated s.hpu.settings.inrush s.hpu.settings.inrushWindow = (a, true)) :
    s.pump m k = ((a.onHpu fun h => { h with state := .starting, contactor := true, holder := some m
                                             readyTimer := some (a.after h.settings.readyLimit) }).waitsFor m k, none) := by
  rw [State.pump, h]
  dsimp only
  rw [if_neg (by simp [hp]), ha]
  rfl

theorem State.pump_refused (h : s.hpu.state = .off) (hp : (s.input 3).faulted = false) {a : State}
    (ha : s.startAdmission .hpu s.hpu.settings.rated s.hpu.settings.inrush s.hpu.settings.inrushWindow = (a, false)) :
    s.pump m k = (a, some .noBudget) := by
  rw [State.pump, h]
  dsimp only
  rw [if_neg (by simp [hp]), ha]

theorem State.pump_faulted (h : s.hpu.state = .fault) : s.pump m k = (s, some .faulted) := by
  rw [State.pump, h]

end

end Sys2Proof.Machine

namespace Sys2Proof.Proofs

open Sys2Proof.Machine

/-- Settles O41: the drain and the interlock watch decide the case, and the lamps are asked for where they are due. -/
theorem deckPassEffects : Obligations.DeckPassEffects := by
  intro s b drained hd
  have hdrain : s.drained = true ↔ drained := s.drained_iff.trans hd.symm
  refine ⟨fun hi hn => ?_, ?_, fun m hm ho hf => ?_, fun hm => ?_⟩
  · rw [← hdrain] at hn
    have hw := State.watchInterlock_idle hi
    rw [State.deckPass_undrained (s := s) b (by rw [hw]; exact (not_and_or.mp hn).imp_right Bool.eq_false_iff.mpr), hw]
    obtain ⟨q, e, hq⟩ := s.lampPass_due b
    rw [e]
    exact ⟨rfl, rfl, hq⟩
  · rintro u a t r rfl hm hb ht hr ha hdel hch
    unfold State.deckPass at *
    obtain ⟨q, e, -⟩ := s.watchInterlock.drainPass.lampPass_frame b
    have lift : ∀ v : State, v.lampPass b = v.onBus (fun c => { c with queue := q }) → (v.lampPass b).mode ≠ .config →
        (v.lampPass b).bus.state ≠ .recovery → (v.lampPass b).station a = some t → (v.lampPass b).node a = some r →
        t.delivered ≠ some ((v.lampPass b).lampsOf t) → (b.station a).map b.lampsOf ≠ some ((v.lampPass b).lampsOf t) →
        (∃ x ∈ (v.lampPass b).bus.queue, x.kind = .lamps ∧ x.target = a ∧ (x.inFlight = true → x.followUp = true))
          ∨ 16 ≤ (v.lampPass b).bus.queue.length := by
      intro v e hm hb ht hr hdel hch
      rw [e] at hm hb ht hr hdel hch
      exact State.lampPass_waits b hm hb ht hr ha hdel hch
    exact lift _ e hm hb ht hr hdel hch
  · have hw := State.mover_watchInterlock_failed hm ho hf
    have hsettle := s.enterSettling_stoppedAt m .interlock
    rw [← hw] at hsettle
    obtain ⟨h1, h2, h3, h4, -⟩ := hsettle
    have hpass : (s.deckPass b).mover m = s.watchInterlock.mover m := by
      rcases s.deckPass_beside b with ⟨_, _, _, _, e⟩ | ⟨-, -, _, _, _, _, e⟩ <;> rw [e] <;> cases m <;> rfl
    rw [hpass]
    exact ⟨h1, h2, h3, h4⟩
  · rw [State.deckPass_mode, ← hdrain]
    by_cases h : s.drained = true <;> simp [hm, h]

/-- Settles O43: the switch and the position are set before the arrival, and neither the arrival nor what follows touches them. -/
theorem deckSwitchEvents : Obligations.DeckSwitchEvents := by
  intro s sw active
  have hp : ∀ n, (((s.switchEvent sw active).deckPass s).mover n).place = ((s.switched sw active).mover n).place := fun n =>
    (State.place_deckPass _ s n).trans (s.place_switchEvent sw active n)
  simp only [Mover.place, Prod.mk.injEq] at hp
  obtain ⟨hlow, hhigh, hpos⟩ := hp .hatch
  obtain ⟨plow, phigh, ppos⟩ := hp .platform
  refine ⟨_, rfl, hlow.trans ?_, hhigh.trans ?_, plow.trans ?_, phigh.trans ?_, fun h => ⟨ppos.trans ?_, hpos.trans ?_⟩,
    fun h => ⟨hpos.trans ?_, ppos.trans ?_⟩, ?_⟩
  · cases sw <;> rfl
  · cases sw <;> rfl
  · cases sw <;> rfl
  · cases sw <;> rfl
  · obtain rfl | rfl := h <;> rfl
  · have hl : ((s.switchEvent sw active).deckPass s).hatch.lowSw = _ := hlow
    have hh : ((s.switchEvent sw active).deckPass s).hatch.highSw = _ := hhigh
    rw [hl, hh]
    obtain rfl | rfl := h <;> exact State.evalPosition_hatch _
  · obtain rfl | rfl := h <;> rfl
  · have hl : ((s.switchEvent sw active).deckPass s).platform.lowSw = _ := plow
    have hh : ((s.switchEvent sw active).deckPass s).platform.highSw = _ := phigh
    rw [hl, hh]
    obtain rfl | rfl := h <;> exact State.evalPosition_platform _
  · rintro m k rfl rfl hs hm hk hg
    have hstop := State.switchEvent_arrives hs hm hk hg
    rw [State.mover_deckPass _ _ (by rw [hstop.1]; decide)]
    obtain ⟨h1, h2, h3, h4, h5, -⟩ := hstop
    exact ⟨h1, h3, h4, h2, h5⟩

/-- Settles O42: MOVE's answers are those of its checks in their order, the last of which is the pump's by its state. -/
theorem moveAcceptedOrRefused : Obligations.MoveAcceptedOrRefused := by
  refine ⟨fun s tag code target m goal hr hcode ho hrest => ?_, fun s tag code target m goal hr => ?_, fun s => ?_⟩
  · obtain ⟨hm, hg⟩ : mover? code = some m ∧ moveTarget? m target = some goal := by
      obtain ⟨rfl, rfl, ⟨rfl, rfl⟩ | ⟨rfl, rfl⟩⟩ | ⟨rfl, rfl, ⟨rfl, rfl⟩ | ⟨rfl, rfl⟩ | ⟨rfl, rfl⟩⟩ := hcode <;> exact ⟨rfl, rfl⟩
    rw [exec_move tag hr hm hg]
    refine ⟨fun hp => ?_, fun hp hband hangle hpress stow dir hstow hi hdir => ?_⟩
    · have hn : s.ownerRefusal (moverResource m) = none := by rw [State.ownerRefusal, ho]
      have hmove : s.moveTo m goal = (s.postDone m).accept := by
        rw [State.moveTo, hn]
        dsimp only
        rw [if_neg (by rw [hrest]; decide), if_pos ⟨hrest, hp⟩]
      have hdone : s.postDone m = { s with link := s.link.post ⟨.motionDone, code, BitVec.ofNat 8 target :: leSigned 2 (s.angle m), s.uptime⟩ } := by
        unfold State.postDone
        rw [hp]
        obtain ⟨rfl, rfl, ⟨rfl, rfl⟩ | ⟨rfl, rfl⟩⟩ | ⟨rfl, rfl, ⟨rfl, rfl⟩ | ⟨rfl, rfl⟩ | ⟨rfl, rfl⟩⟩ := hcode <;> rfl
      rw [hmove, hdone]
      rfl
    · have hd : dir = s.moveDirection m goal := by
        rw [hdir]
        obtain ⟨rfl, rfl, ⟨rfl, rfl⟩ | ⟨rfl, rfl⟩⟩ | ⟨rfl, rfl, ⟨rfl, rfl⟩ | ⟨rfl, rfl⟩ | ⟨rfl, rfl⟩⟩ := hcode <;> rfl
      subst hstow hd
      have haccept : ∀ {st u : State}, s.pump m ⟨.target, s.moveDirection m goal, goal, s.stowFlag m (s.mover m).position goal, (s.mover m).position,
          none⟩ = (st, none) → st.hostOwns (moverResource m) (s.moveDirection m goal) (some (.position goal)) = u →
          answered 0x42 tag ((s.moveTo m goal).deck s) = .next ((u.deckPass s).replied 0x42 tag .ok) := by
        rintro st u h rfl
        rw [State.moveTo_starts ho (by rw [hrest]; decide) hp (fun e => hband e.2)
          ((State.startMotion_asks .target _ goal hangle hpress hi).trans h)]
        rfl
      refine ⟨fun h => ?_, fun n h hh => ?_, fun h hh => ?_, fun h => ?_, fun a h ha => ?_⟩
      · exact haccept (State.pump_ready m _ h) (by cases m <;> rfl)
      · exact haccept (State.pump_startingHeld m _ h hh) (by cases m <;> rfl)
      · exact haccept (State.pump_startingFree m _ h hh) (by cases m <;> rfl)
      · exact haccept (State.pump_runOn m _ h) (by cases m <;> rfl)
      · refine haccept (State.pump_off m _ h hpress ha) ?_
        rw [← State.startAdmission_uptime ha]
        cases m <;> rfl
  · refine ⟨fun h1 h2 => ?_, fun hm hg => ?_⟩
    · show answered _ _ (if _ then _ else _) = _
      rw [if_neg (not_not.mpr hr)]
      cases hm : mover? code with
      | none => rfl
      | some n =>
        obtain rfl := Option.some.inj (h2.resolve_right (by simp [hm]) ▸ hm)
        dsimp only
        rw [h1.resolve_right (by simp [hm])]
        rfl
    · rw [exec_move tag hr hm hg]
      have hserve : ∀ {t : State} {x : Status}, x ≠ .ok → s.moveTo m goal = t.refuse x →
          answered 0x42 tag ((s.moveTo m goal).deck s) = .next (t.replied 0x42 tag x) := by
        intro t x hx h
        rw [h, Served.deck, if_neg (show ¬ (t.refuse x).status = .ok from hx)]; rfl
      refine ⟨fun a ho => hserve (by decide) ?_, fun ho => hserve (by decide) ?_, fun ho => ⟨fun hf => hserve (by decide) ?_, fun hrest hp => ?_⟩⟩
      · rw [State.moveTo, State.ownerRefusal, ho]
      · rw [State.moveTo, State.ownerRefusal, ho]
      · rw [State.moveTo, State.ownerRefusal, ho]; exact if_pos hf
      · have hf : (s.mover m).state ≠ .fault := by rw [hrest]; decide
        have hdeck : goal = .atDeck → m = .platform := by
          rintro rfl
          cases m
          · unfold moveTarget? at hg
            split at hg <;> simp_all
          · rfl
        refine ⟨fun h => hserve (by decide) ?_, fun ha hpr hband => ⟨fun hi => hserve (by decide) ?_, fun hi =>
          ⟨fun h => hserve (by decide) ?_, fun a h had => hserve (by decide) ?_⟩⟩⟩
        · by_cases hd : m = .platform ∧ goal = .atDeck ∧ s.platform.inDeckBand (s.angle .platform) = true
          · rw [State.moveTo, State.ownerRefusal, ho]
            dsimp only
            rw [if_neg hf, if_neg (fun e => hp e.2), if_pos hd]
          · refine State.moveTo_starts ho hf hp hd (a := some .notReady) ?_
            exact if_pos (h.elim .inl fun h => h.elim .inr fun h => absurd ⟨hdeck h.1, h⟩ hd)
        · refine State.moveTo_starts ho hf hp (fun e => hband e.2) (a := some .interlock) ?_
          exact (if_neg (by simp [ha, hpr])).trans (if_pos (by simp [hi]))
        · exact State.moveTo_starts ho hf hp (fun e => hband e.2) (a := some .faulted)
            ((State.startMotion_asks .target _ goal ha hpr hi).trans (State.pump_faulted m _ h))
        · exact State.moveTo_starts ho hf hp (fun e => hband e.2) (a := some .noBudget)
            ((State.startMotion_asks .target _ goal ha hpr hi).trans (State.pump_refused m _ h hpr had))
  · refine ⟨fun stow => decide_eq_true_iff, decide_eq_true_iff, decide_eq_true_iff, fun start goal => decide_eq_true_iff, fun m k hk => ?_,
      fun angle => decide_eq_true_iff⟩
    rw [State.motionInterlock, hk]; rfl

end Sys2Proof.Proofs
end

section
/-!
PROOFS. The gypsy, the requests of the windlass and its settle (R141 to R155): O47, O48 and O51.
-/

namespace Sys2Proof.Machine

/-! ## The conversions (R143) -/

/-- A rounded quotient of a number from 0 on: its multiple lies within half the divisor, and above the number less half of it. -/
theorem roundDiv_mul {x : Int} (h : 0 ≤ x) {d : Nat} (hd : 0 < d) :
    2 * (roundDiv x d * d) ≤ 2 * x + d ∧ 2 * x < 2 * (roundDiv x d * d) + d := by
  have hd : (0 : Int) < 2 * d := by omega
  have h1 := Int.ediv_mul_le (2 * x + d) hd.ne'
  have h2 := Int.lt_ediv_add_one_mul_self (2 * x + d) hd
  rw [← roundDiv_nonneg h] at h1 h2
  constructor <;> linarith

theorem roundDiv_neg (x : Int) {d : Nat} (hd : 0 < d) : roundDiv (-x) d = -roundDiv x d := by
  rcases le_total 0 x with h | h
  · rw [roundDiv_nonpos (by omega) hd, roundDiv_nonneg h, neg_neg]
  · rw [roundDiv_nonneg (by omega), roundDiv_nonpos h hd, neg_neg]

/-- A rounded quotient is the nearest whole number. -/
theorem roundDiv_nearest (x : Int) {d : Nat} (hd : 0 < d) : 2 * (roundDiv x d * d - x).natAbs ≤ d := by
  rcases le_total 0 x with h | h
  · obtain ⟨h1, h2⟩ := roundDiv_mul h hd
    omega
  · obtain ⟨h1, h2⟩ := roundDiv_mul (show 0 ≤ -x by omega) hd
    rw [roundDiv_neg x hd, neg_mul] at h1 h2
    omega

/-- A truncated quotient times the divisor is not further from 0, and misses by less than the divisor. -/
theorem truncDiv_mul (x : Int) {d : Nat} (hd : 0 < d) :
    (truncDiv x d * d).natAbs ≤ x.natAbs ∧ (x - truncDiv x d * d).natAbs < d := by
  constructor
  · rw [truncDiv, Int.natAbs_mul, Int.natAbs_tdiv, Int.natAbs_natCast]
    exact Nat.div_mul_le_self _ _
  · have h : x - truncDiv x d * d = x.tmod d := by rw [Int.tmod_def, truncDiv, mul_comm]
    rw [h, Int.natAbs_tmod, Int.natAbs_natCast]
    exact Nat.mod_lt _ hd

theorem State.deckEvent_eq {s u v : State} (h : u = v) : s.deckEvent u = .next (v.deckPass s) := by rw [h]; rfl

/-! ## The gypsy with no run under way (R141, R142) -/

theorem State.testEnds_idle {s : State} (h : s.windlass.run = none ∨ s.windlass.underWay = false) (b : Bool) : s.testEnds b = s := by
  unfold State.testEnds
  dsimp only
  rcases h with h | h
  · rw [h]
  · cases s.windlass.run with
    | none => rfl
    | some r => exact if_pos (by simp [h])

theorem State.testSlowZone_idle {s : State} (h : s.windlass.state ≠ .running) : s.testSlowZone = s := by
  unfold State.testSlowZone
  split
  · rfl
  · exact if_neg fun e => h e.1

theorem State.loseTrust_idle {s : State} (h : s.windlass.underWay = false) : s.loseTrust = s := by
  unfold State.loseTrust
  cases s.windlass.run with
  | none => rfl
  | some r => exact if_pos (by simp [h])

theorem Windlass.not_running {w : Windlass} (h : w.underWay = false) : w.state ≠ .running := fun e => by
  simp [Windlass.underWay, e] at h

/-- A count step, with the FIFO emptied where the direction changes (R141). -/
theorem Windlass.stepCount_eq (w : Windlass) (dir : RodeDir) : w.stepCount dir =
    { w with count := (match dir with | .payOut => w.count + 1 | .heave => w.count - 1), lastStep := some dir
             fifo := if w.lastStep = none ∨ w.lastStep = some dir then w.fifo else [] } := by
  have hf : (if w.lastStep.any (fun d => decide (d ≠ dir)) = true then [] else w.fifo)
      = if w.lastStep = none ∨ w.lastStep = some dir then w.fifo else [] := by
    cases w.lastStep with
    | none => rfl
    | some d => by_cases h : d = dir <;> simp [h]
  cases dir
  · exact congrArg (fun f => { w with count := w.count + 1, lastStep := some .payOut, fifo := f }) hf
  · exact congrArg (fun f => { w with count := w.count - 1, lastStep := some .heave, fifo := f }) hf

/-- The state with a count step counted, and the jam timer started again in RUNNING (R141, R154). -/
def State.counted (s : State) (dir : RodeDir) : State := s.onWindlass fun w =>
  { w with count := (match dir with | .payOut => w.count + 1 | .heave => w.count - 1), lastStep := some dir
           fifo := if w.lastStep = none ∨ w.lastStep = some dir then w.fifo else []
           jamTimer := if w.state = .running then some (s.uptime + BitVec.ofNat 32 w.settings.jamTime) else w.jamTimer }

theorem State.gypsyStep_eq (s : State) (dir : RodeDir) : s.gypsyStep dir = ((s.counted dir).testEnds false).testSlowZone := by
  refine congrArg (fun w => State.testSlowZone (State.testEnds { s with windlass := w } false)) ?_
  show (if (s.windlass.stepCount dir).state = .running then
    { s.windlass.stepCount dir with jamTimer := some (s.after (s.windlass.stepCount dir).settings.jamTime) }
    else s.windlass.stepCount dir) = _
  rw [s.windlass.stepCount_eq dir]
  by_cases h : s.windlass.state = .running
  · cases dir <;> simp only [if_pos h, State.after, later]
  · cases dir <;> simp only [if_neg h]

/-- A count step with no run under way counts, and does nothing else. -/
theorem State.gypsyStep_idle {s : State} (h : s.windlass.underWay = false) (dir : RodeDir) : s.gypsyStep dir = s.counted dir := by
  rw [s.gypsyStep_eq, State.testEnds_idle (s := s.counted dir) (.inr h), State.testSlowZone_idle (s := s.counted dir) (Windlass.not_running h)]

/-- What a decode error leaves before the run is told (R141). -/
def State.misread (s : State) : State :=
  { s with windlass := { s.windlass with decodeErrors := min (s.windlass.decodeErrors + 1) 255, rodeUncertain := true }
           link := if s.windlass.rodeUncertain then s.link
                   else s.link.post ⟨.slip, 3, [2, 0, 0] ++ leSigned 3 s.windlass.rode, s.uptime⟩ }

theorem State.decodeError_eq (s : State) : s.decodeError = if s.windlass.trusted then s.misread.loseTrust else s.misread := by
  have h : (if s.windlass.rodeUncertain then
        s.onWindlass fun w => { w with decodeErrors := min (w.decodeErrors + 1) 255, rodeUncertain := true }
      else State.postSlip (s.onWindlass fun w => { w with decodeErrors := min (w.decodeErrors + 1) 255, rodeUncertain := true }) 2 0)
      = s.misread := by
    unfold State.misread
    cases s.windlass.rodeUncertain <;> rfl
  show (if s.windlass.trusted then State.loseTrust (if _ then _ else _) else if _ then _ else _) = _
  rw [h]

/-- What an index pair out of tolerance leaves before the run is told (R142). -/
def State.slipped (s : State) (diff : Int) : State :=
  { s with windlass := { s.windlass with fifo := [], rodeUncertain := true }
           link := s.link.post ⟨.slip, 3, 1 :: leSigned 2 (max (-32767) (min diff 32767)) ++ leSigned 3 s.windlass.rode, s.uptime⟩ }

theorem Windlass.indexPasses_iff {w : Windlass} {d : Int} : w.indexPasses d = true
    ↔ (w.settings.countsPerRev : Int) - w.settings.slipTol ≤ d.natAbs ∧ (d.natAbs : Int) ≤ w.settings.countsPerRev + w.settings.slipTol :=
  decide_eq_true_iff

theorem pushCount_two {pre : List Count} (older c : Count) (h : pre.length ≤ 1) : pushCount (pre ++ [older]) c = [older, c] := by
  match pre, h with
  | [], _ => rfl
  | [_], _ => rfl

/-- An index push that leaves two counts (R142). -/
theorem State.gypsyIndex_pair {s : State} {pre : List Count} {older : Count} (hf : s.windlass.fifo = pre ++ [older]) (hp : pre.length ≤ 1) :
    s.gypsyIndex = if s.windlass.indexPasses (s.windlass.count.toInt - older.toInt) then s.onWindlass fun w => { w with fifo := [older, w.count] }
      else if s.windlass.trusted then (s.slipped (s.windlass.count.toInt - older.toInt)).loseTrust
      else s.slipped (s.windlass.count.toInt - older.toInt) := by
  unfold State.gypsyIndex
  dsimp only [State.onWindlass]
  rw [hf, pushCount_two older _ hp]
  rfl

/-! ## The settle (R153, R155) -/

theorem Windlass.settled_fault {w : Windlass} {f : FaultRecord} (h : winningFault w.stopCause w.stopLater w.pendingFault = some f) :
    w.settled = { w with state := .fault, fault := some f, settleTimer := none
                         rodeUncertain := w.rodeUncertain || decide (f.cause = .homeNotFound) } := by
  unfold Windlass.settled; rw [h]

theorem Windlass.settled_idle {w : Windlass} (h : winningFault w.stopCause w.stopLater w.pendingFault = none) :
    w.settled = { w with state := .idle, settleTimer := none } := by
  unfold Windlass.settled; rw [h]

/-- What a settle leaves of the windlass. -/
theorem Windlass.settled_rest (w : Windlass) : w.settled.count = w.count ∧ w.settled.rodeValid = w.rodeValid
    ∧ w.settled.rode = w.rode := by
  unfold Windlass.settled
  split <;> exact ⟨rfl, rfl, rfl⟩

theorem winningFault_cause {c : Cause} (h : c.isFault = true) (n : Nat) (p : Option FaultRecord) : winningFault (some c) n p = some ⟨c, n⟩ :=
  if_pos h

theorem winningFault_pending {c : Cause} (h : c.isFault = false) (n : Nat) (p : Option FaultRecord) : winningFault (some c) n p = p :=
  if_neg (by simp [h])

section
variable {s : State}

theorem State.windlassNotice_fault {f : FaultRecord} (h : s.windlass.state = .fault) (hf : s.windlass.fault = some f) :
    s.windlassNotice = State.offer { s with link := s.link.post ⟨.deckFault, 3,
      BitVec.ofNat 8 f.cause.code :: BitVec.ofNat 8 f.later :: leSigned 4 s.windlass.rode, s.uptime⟩ } (.deck (.fault .windlass)) := by
  unfold State.windlassNotice State.postRode
  dsimp only
  rw [h, hf]
  simp only [List.append_nil]
  rfl

theorem State.windlassNotice_home (h : s.windlass.state = .idle) (hh : s.windlass.homeFlag = true) :
    s.windlassNotice = State.offer { s with link := s.link.post ⟨.anchorHome, 3, leSigned 4 s.windlass.rode, s.uptime⟩ } (.deck .anchorHome) := by
  unfold State.windlassNotice State.postRode
  dsimp only
  rw [h]
  dsimp only
  rw [if_pos hh]
  simp only [List.append_nil]
  rfl

theorem State.windlassNotice_target {r : Run} (h : s.windlass.state = .idle) (hh : s.windlass.homeFlag = false)
    (hc : s.windlass.stopCause = some .target) (hr : s.windlass.run = some r) (hk : r.kind = .seek) :
    s.windlassNotice = State.offer { s with link := s.link.post ⟨.anchorAtTarget, 3,
      leSigned 4 s.windlass.rode ++ leSigned 2 (s.windlass.count.toInt - r.target), s.uptime⟩ } (.deck .anchorAtTarget) := by
  unfold State.windlassNotice
  dsimp only
  rw [h]
  dsimp only
  rw [if_neg (by simp [hh]), hc, hr, Option.filter_some, if_pos (by simp [hk])]
  rfl

theorem State.windlassNotice_ended (h : s.windlass.state = .idle) (hh : s.windlass.homeFlag = false)
    (hc : s.windlass.stopCause = some .ended) :
    s.windlassNotice = { s with link := s.link.post ⟨.motionDone, 3, leSigned 4 s.windlass.rode, s.uptime⟩ } := by
  unfold State.windlassNotice State.postRode
  dsimp only
  rw [h]
  dsimp only
  rw [if_neg (by simp [hh]), hc]
  simp only [List.append_nil]
  rfl

theorem State.windlassNotice_stopped {c : Cause} (h : s.windlass.state = .idle) (hh : s.windlass.homeFlag = false)
    (hc : s.windlass.stopCause = some c) (h1 : c ≠ .target) (h2 : c ≠ .ended) :
    s.windlassNotice = { s with link := s.link.post ⟨.motionStopped, 3, BitVec.ofNat 8 c.code :: leSigned 4 s.windlass.rode, s.uptime⟩ } := by
  unfold State.windlassNotice State.postRode
  dsimp only
  rw [h]
  dsimp only
  rw [if_neg (by simp [hh]), hc]
  simp only [List.append_nil]
  cases c <;> first | rfl | exact absurd rfl h1 | exact absurd rfl h2

end

/-- A grant that is gone stays gone in what follows a deck operation. -/
theorem State.deckPass_windlassGrant {s : State} (b : State) (h : s.alloc.windlassGrant = none) : (s.deckPass b).alloc.windlassGrant = none := by
  obtain ⟨_, _, hw⟩ := s.watchInterlock_frame
  have hw : s.watchInterlock.alloc = s.alloc := by rw [hw]
  rcases s.deckPass_beside b with ⟨_, _, _, _, e⟩ | ⟨-, -, _, _, _, _, e⟩ <;> rw [e]
  · exact hw ▸ h
  · rfl

/-- The windlass when its settle has ended, the notice still to come. -/
def State.settledWindlass (s : State) (e : Uptime) : State := ((s.atMoment e).onWindlass Windlass.settled).releaseGrant .windlass

theorem State.settledWindlass_windlass (s : State) (e : Uptime) : (s.settledWindlass e).windlass = s.windlass.settled := by
  rw [State.settledWindlass, State.releaseGrant_windlass, s.atMoment_eq e]
  rfl

/-! ## The requests of the windlass (R144, R147, R148, R150) -/

/-- The state when a run's start admission has left `a`: STARTING, with the direction contactor closed where its deadband has passed. -/
def State.begun (s a : State) (r : Run) : State :=
  { a with windlass := { a.windlass with
      state := .starting, run := some r
      payOut := if s.deadband r.dir = 0 then decide (r.dir = .payOut) else s.windlass.payOut
      heave := if s.deadband r.dir = 0 then decide (r.dir = .heave) else s.windlass.heave
      brakeTimer := if s.deadband r.dir = 0 then some (s.uptime + 100) else s.windlass.brakeTimer } }

/-- What a start admission leaves: the uptime and the windlass. -/
theorem State.startAdmission_windlass {s a : State} {m : Motor} {g i w : Nat} {b : Bool} (h : s.startAdmission m g i w = (a, b)) :
    a.windlass = s.windlass := by
  obtain ⟨_, _, _, _, _, _, e⟩ := (Allocated.of_startAdmission s m g i w).frame
  exact (congrArg (fun p => p.1.windlass) h).symm.trans (by rw [e])

theorem State.deadband_of {s a : State} (hw : a.windlass = s.windlass) (hu : a.uptime = s.uptime) (d : RodeDir) : a.deadband d = s.deadband d := by
  cases d <;> simp only [State.deadband, hw, hu]

/-- A run with WINDLASS_I good and its admission granted. -/
theorem State.acceptRun_granted {s a : State} (r : Run) (h6 : (s.input 6).faulted = false)
    (ha : s.startAdmission .windlass s.windlass.settings.g1 s.windlass.settings.inrush s.windlass.settings.inrushWindow = (a, true)) :
    s.acceptRun r = (s.begun a r, none) := by
  have hw := State.startAdmission_windlass ha
  have hu := State.startAdmission_uptime ha
  have hd : (a.onWindlass fun w => { w with state := .starting, run := some r }).deadband r.dir = s.deadband r.dir := by
    rw [← State.deadband_of hw hu]; cases r.dir <;> rfl
  rw [State.acceptRun, if_neg (by simp [h6]), State.startRun, ha]
  dsimp only
  rw [hd]
  unfold State.begun
  by_cases h : s.deadband r.dir = 0
  · simp only [if_pos h, State.closeContactor, State.onWindlass, State.after, hu]
    rfl
  · simp only [if_neg h, State.onWindlass, ← hw]

theorem State.acceptRun_faulted {s : State} (r : Run) (h6 : (s.input 6).faulted = true) : s.acceptRun r = (s, some .notReady) := if_pos h6

theorem State.acceptRun_refused {s a : State} (r : Run) (h6 : (s.input 6).faulted = false)
    (ha : s.startAdmission .windlass s.windlass.settings.g1 s.windlass.settings.inrush s.windlass.settings.inrushWindow = (a, false)) :
    s.acceptRun r = (a, some .noBudget) := by
  rw [State.acceptRun, if_neg (by simp [h6]), State.startRun, ha]

theorem Windlass.trusted_iff {w : Windlass} : w.trusted = true ↔ w.rodeValid = true ∧ w.rodeUncertain = false := by
  simp [Windlass.trusted]

/-- A request of the windlass that its checks turn away. -/
theorem answered_turned {t s : State} {kind tag : Byte} {x : Status} {r : Served} (hx : x ≠ .ok) (h : r = t.refuse x) :
    answered kind tag (r.deck s) = .next (t.replied kind tag x) := by
  rw [h, Served.deck, if_neg (show ¬ (t.refuse x).status = .ok from hx)]; rfl

theorem State.ownerRefusal_free {s : State} (ho : s.windlassOwner.owner = .none) : s.ownerRefusal .windlass = none := by
  rw [State.ownerRefusal, show s.ownerOf .windlass = s.windlassOwner from rfl, ho]

section
variable {s : State} {dir : RodeDir} {target : Int} (hm : s.mode = .run)
include hm

theorem State.seek_refused {x : Status} (h : s.ownerRefusal .windlass = some x) : s.seek dir target = s.refuse x ∧ s.heaveHome = s.refuse x := by
  rw [State.seek, State.heaveHome, h]
  exact ⟨if_neg (not_not.mpr hm), if_neg (not_not.mpr hm)⟩

variable (ho : s.windlassOwner.owner = .none)
include ho

theorem State.seek_faulted (hf : s.windlass.state = .fault) : s.seek dir target = s.refuse .faulted ∧ s.heaveHome = s.refuse .faulted := by
  rw [State.seek, State.heaveHome, State.ownerRefusal_free ho]
  exact ⟨(if_neg (not_not.mpr hm)).trans (if_pos hf), (if_neg (not_not.mpr hm)).trans (if_pos hf)⟩

variable (hf : s.windlass.state ≠ .fault)
include hf

theorem State.seek_untrusted (ht : ¬ s.windlass.trusted = true) : s.seek dir target = s.refuse .notReady := by
  rw [State.seek, State.ownerRefusal_free ho]
  exact (if_neg (not_not.mpr hm)).trans ((if_neg hf).trans (if_pos ht))

variable (ht : s.windlass.trusted = true)

include ht in
theorem State.seek_near {counts : Int} (hc : counts = s.windlass.toCounts (max 0 (min target s.windlass.settings.maxRode)))
    (hn : s.windlass.distanceTo dir counts ≤ s.windlass.bandCounts) : s.seek dir target = (s.postAtTarget counts).accept := by
  subst hc
  rw [State.seek, State.ownerRefusal_free ho]
  exact (if_neg (not_not.mpr hm)).trans ((if_neg hf).trans ((if_neg (not_not.mpr ht)).trans (if_pos hn)))

include ht in
/-- A seek further off than the stop band is decided by the start of its run. -/
theorem State.seek_far {mm counts : Int} (hmm : mm = max 0 (min target s.windlass.settings.maxRode)) (hc : counts = s.windlass.toCounts mm)
    (hn : s.windlass.bandCounts < s.windlass.distanceTo dir counts) {t : State} {x : Option Status}
    (h : s.acceptRun { kind := .seek, dir := dir, target := counts, targetMm := mm } = (t, x)) :
    s.seek dir target = x.elim ⟨t.hostOwns .windlass (rodeDirection dir) (some (.rode mm)), .ok, .seek mm counts⟩ t.refuse := by
  subst hmm hc
  rw [State.seek, State.ownerRefusal_free ho]
  refine (if_neg (not_not.mpr hm)).trans ((if_neg hf).trans ((if_neg (not_not.mpr ht)).trans ((if_neg (by omega)).trans ?_)))
  rw [h]
  cases x <;> rfl

theorem State.heaveHome_there (hs : s.windlass.homeSw = true) :
    s.heaveHome = ((s.onWindlass fun w => w.setCount 0).postRode .anchorHome [] []).accept := by
  rw [State.heaveHome, State.ownerRefusal_free ho]
  exact (if_neg (not_not.mpr hm)).trans ((if_neg hf).trans (if_pos hs))

theorem State.heaveHome_away (hs : s.windlass.homeSw = false) {t : State} {x : Option Status}
    (h : s.acceptRun { kind := .home, dir := .heave } = (t, x)) :
    s.heaveHome = x.elim (t.hostOwns .windlass .inward none).accept t.refuse := by
  rw [State.heaveHome, State.ownerRefusal_free ho]
  refine (if_neg (not_not.mpr hm)).trans ((if_neg hf).trans ((if_neg (by simp [hs])).trans ?_))
  rw [h]
  cases x <;> rfl

end

end Sys2Proof.Machine

namespace Sys2Proof.Proofs

open Sys2Proof.Machine

/-- Settles O48: the conversions are those of a rounded and a truncated quotient, and with no run under way an event of the gypsy or of the
home switch does its own part alone. -/
theorem gypsyCounts : Obligations.GypsyCounts := by
  refine ⟨fun w hc hm => ⟨fun mm => ⟨roundDiv_nearest _ hm, ?_, fun h => ?_⟩, truncDiv_mul _ hc⟩, fun s => ⟨fun dir h => ?_, fun h => ?_,
    fun h => ?_, fun pre older d hf hp hd => ⟨fun h => ?_, fun h hu => ?_⟩⟩, fun s active h => ?_⟩
  · unfold Windlass.toCounts
    rw [neg_mul, roundDiv_neg _ hm]
  · have := (roundDiv_mul (mul_nonneg h (Int.natCast_nonneg w.settings.countsPerRev)) hm).2
    unfold Windlass.toCounts
    linarith
  · exact State.deckEvent_eq ((State.gypsyStep_idle h dir).trans (by
      cases dir <;> simp only [State.counted, State.onWindlass, if_neg (Windlass.not_running h)]))
  · refine State.deckEvent_eq (s.decodeError_eq.trans ?_)
    rw [State.loseTrust_idle (s := s.misread) h, ite_self]
    rfl
  · refine State.deckEvent_eq ?_
    unfold State.gypsyIndex
    dsimp only [State.onWindlass]
    rw [h]
    rfl
  · subst hd
    exact State.deckEvent_eq ((State.gypsyIndex_pair hf hp).trans (if_pos (Windlass.indexPasses_iff.mpr h)))
  · subst hd
    refine State.deckEvent_eq ((State.gypsyIndex_pair hf hp).trans
      ((if_neg (mt Windlass.indexPasses_iff.mp h)).trans ?_))
    rw [State.loseTrust_idle (s := s.slipped _) hu, ite_self]
    rfl
  · exact State.deckEvent_eq (State.testEnds_idle (s := s.onWindlass fun w => { w with homeSw := active }) h _)

/-- Settles O51: the settle's outcome is the winning fault's or IDLE, and the notice is that of the state it leaves. -/
theorem windlassSettles : Obligations.WindlassSettles := by
  intro s
  refine ⟨fun h => ?_, fun e he => ?_⟩
  · show Host.Outcome.next (s.expire s.windlass.settleTimer _) = _
    rw [h]; rfl
  · obtain ⟨hnw, -, hna, -⟩ := (s.settledWindlass e).windlassNotice_frame
    rw [s.settledWindlass_windlass e] at hnw
    have hgrant : (s.settledWindlass e).windlassNotice.alloc.windlassGrant = none := by
      rw [hna]; exact State.releaseGrant_windlass_none _
    obtain ⟨t, ht⟩ : ∃ t, t = State.deckPass (((s.settledWindlass e).windlassNotice.onOwner .windlass fun _ => {}).onWindlass fun w =>
      { w with run := none, stopCause := none, stopLater := 0, pendingFault := none, homeFlag := false }) s := ⟨_, rfl⟩
    have hw : t.windlass = { s.windlass.settled with
        run := none, stopCause := none, stopLater := 0, pendingFault := none, homeFlag := false } := by
      rw [ht, State.deckPass_windlass, ← hnw]; rfl
    have hbase : ∀ w, s.windlass.settled = w → s.settledWindlass e = State.releaseGrant ((s.atMoment e).onWindlass fun _ => w) .windlass := by
      rintro w rfl
      rw [State.settledWindlass, s.atMoment_eq e]; rfl
    obtain ⟨hcount, hvalid, hrode⟩ := s.windlass.settled_rest
    refine ⟨t, ?_, by rw [hw], by rw [hw], by rw [hw], by rw [hw], by rw [hw]; exact s.windlass.settled_frame.2.1, by rw [hw]; exact hcount, by rw [hw]; exact hvalid,
      by rw [ht]; exact State.deckPass_windlassGrant _ hgrant, ?_, fun c hc hf => ?_, fun c p hc hf hp => ?_, fun c hc hf hp => ?_,
      (s.settledWindlass e).windlassNotice, ht, fun base rode hr => ⟨fun f hs hf hb => ?_, fun c hs hc hb => ?_⟩⟩
    · show Host.Outcome.next (s.expire s.windlass.settleTimer _) = _
      rw [he, ht]; rfl
    · rw [ht]
      exact (State.ownerOf_deckPass _ s .windlass).elim (fun h => h) fun h => h
    · have h := Windlass.settled_fault (w := s.windlass) (by rw [hc]; exact winningFault_cause hf _ _)
      rw [hw, h]
      exact ⟨rfl, rfl, rfl⟩
    · have h := Windlass.settled_fault (w := s.windlass) (by rw [hc, hp]; exact winningFault_pending hf _ _)
      rw [hw, h]
      exact ⟨rfl, rfl⟩
    · have h := Windlass.settled_idle (w := s.windlass) (by rw [hc, hp]; exact winningFault_pending hf _ _)
      rw [hw, h]
      exact ⟨rfl, rfl⟩
    · rw [hw] at hs hf
      have h : s.windlass.settled = { s.windlass with
          state := .fault, fault := some f, settleTimer := none
          rodeUncertain := s.windlass.rodeUncertain || decide (f.cause = .homeNotFound) } := by
        cases hv : winningFault s.windlass.stopCause s.windlass.stopLater s.windlass.pendingFault with
        | none => rw [Windlass.settled_idle hv] at hs; cases hs
        | some g =>
          have h := Windlass.settled_fault hv
          rw [h] at hf
          obtain rfl : g = f := Option.some.inj hf
          exact h
      have hb : base = s.settledWindlass e := by
        rw [hb, hbase _ h, s.atMoment_eq e]; rfl
      have hbw := hb ▸ s.settledWindlass_windlass e
      rw [← hb, State.windlassNotice_fault (f := f) (by rw [hbw]; exact hs) (by rw [hbw]; exact hf), hbw, hrode, hr]
    · rw [hw] at hs
      have h : s.windlass.settled = { s.windlass with state := .idle, settleTimer := none } := by
        cases hv : winningFault s.windlass.stopCause s.windlass.stopLater s.windlass.pendingFault with
        | none => exact Windlass.settled_idle hv
        | some g => rw [Windlass.settled_fault hv] at hs; cases hs
      have hb : base = s.settledWindlass e := by
        rw [hb, hbase _ h, s.atMoment_eq e]; rfl
      have hbw : base.windlass = _ := hb ▸ (s.settledWindlass_windlass e).trans h
      have hidle : base.windlass.state = .idle := by rw [hbw]
      have hcause : base.windlass.stopCause = some c := by rw [hbw]; exact hc
      have hr : rode = leSigned 4 base.windlass.rode := by rw [hr, hbw]; rfl
      rw [← hb, hr]
      refine ⟨fun hh => State.windlassNotice_home hidle (by rw [hbw]; exact hh), fun hh => ?_⟩
      have hflag : base.windlass.homeFlag = false := by rw [hbw]; exact hh
      refine ⟨fun r h1 hrun hk => ?_, fun h1 => ?_, fun h1 h2 => State.windlassNotice_stopped hidle hflag hcause h1 h2⟩
      · rw [State.windlassNotice_target hidle hflag (h1 ▸ hcause) (by rw [hbw]; exact hrun) hk, hbw]
      · exact State.windlassNotice_ended hidle hflag (h1 ▸ hcause)

/-- Settles O47: the requests of the windlass are answered by their checks in order, the last of which starts the run. -/
theorem windlassRequests : Obligations.WindlassRequests := by
  refine ⟨fun s tag hm ho hf => ⟨?_, fun hs => ?_, fun a hs h6 ha => ?_⟩, fun s tag => ⟨?_, fun len hi => ?_, fun len hi hl => ?_, fun len hi hl => ?_⟩⟩
  · intro kind i dir target mm counts hi hv hu hmm hc
    have ht : s.windlass.trusted = true := Windlass.trusted_iff.mpr ⟨hv, hu⟩
    have hx : exec i s = answered kind tag ((s.seek dir target).deck s) := by
      obtain ⟨rfl, rfl, rfl⟩ | ⟨rfl, rfl, rfl⟩ := hi <;> rfl
    refine ⟨fun hn => ?_, fun a hn h6 ha => ?_⟩
    · rw [hx, State.seek_near hm ho hf ht (hmm ▸ hc) hn]
      have hp : s.postAtTarget counts = { s with link := s.link.post ⟨.anchorAtTarget, 3,
          leSigned 4 s.windlass.rode ++ leSigned 2 (s.windlass.position - counts), s.uptime⟩ } := rfl
      rw [hp]; rfl
    · have hup := State.startAdmission_uptime ha
      rw [hx, State.seek_far hm ho hf ht hmm hc hn (State.acceptRun_granted _ h6 ha), State.hostOwns,
        show (s.begun a { kind := .seek, dir := dir, target := counts, targetMm := mm }).uptime = s.uptime from hup]
      cases dir <;> rfl
  · show answered 0x4B tag (s.heaveHome.deck s) = _
    have hz : (s.windlass.setCount 0).rode = 0 := by simp [Windlass.setCount, Windlass.rode, Windlass.position, truncDiv]
    have hd : [] ++ leSigned 4 (s.windlass.setCount 0).rode ++ [] = [0, 0, 0, 0] := by rw [hz]; decide
    have hp : (s.onWindlass fun w => w.setCount 0).postRode .anchorHome [] [] =
        { s with windlass := { s.windlass with count := 0, fifo := [], decodeErrors := 0, rodeValid := true, rodeUncertain := false }
                 link := s.link.post ⟨.anchorHome, 3, [0, 0, 0, 0], s.uptime⟩ } :=
      congrArg (fun d => ({ s with windlass := s.windlass.setCount 0, link := s.link.post ⟨.anchorHome, 3, d, s.uptime⟩ } : State)) hd
    rw [State.heaveHome_there hm ho hf hs, hp]; rfl
  · show answered 0x4B tag (s.heaveHome.deck s) = _
    have hup := State.startAdmission_uptime ha
    rw [State.heaveHome_away hm ho hf hs (State.acceptRun_granted _ h6 ha), State.hostOwns,
      show (s.begun a { kind := .home, dir := .heave }).uptime = s.uptime from hup]
    rfl
  · intro kind i dir target hm hi
    obtain ⟨r, hx, hr⟩ : ∃ r : Served, exec i s = answered kind tag (r.deck s)
        ∧ ((kind ≠ 0x4B ∧ r = s.seek dir target) ∨ (kind = 0x4B ∧ dir = .heave ∧ r = s.heaveHome)) := by
      obtain ⟨rfl, rfl, rfl⟩ | ⟨rfl, rfl, rfl⟩ | ⟨rfl, rfl, rfl⟩ := hi
      · exact ⟨_, rfl, .inl ⟨by decide, rfl⟩⟩
      · exact ⟨_, rfl, .inl ⟨by decide, rfl⟩⟩
      · exact ⟨_, rfl, .inr ⟨rfl, rfl, rfl⟩⟩
    have hboth : ∀ {x : Status}, s.seek dir target = s.refuse x ∧ s.heaveHome = s.refuse x → r = s.refuse x := by
      rintro x ⟨h1, h2⟩
      obtain ⟨-, rfl⟩ | ⟨-, -, rfl⟩ := hr
      · exact h1
      · exact h2
    rw [hx]
    have hown : ∀ {x : Status}, s.ownerRefusal .windlass = some x → r = s.refuse x := fun h => hboth (State.seek_refused hm h)
    refine ⟨fun a h => answered_turned (by decide) (hown ?_), fun h => answered_turned (by decide) (hown ?_),
      fun ho hf => answered_turned (by decide) (hboth (State.seek_faulted hm ho hf)), fun ho hf => ⟨fun hk ht => ?_, fun hfar => ?_⟩⟩
    · rw [State.ownerRefusal, show s.ownerOf .windlass = s.windlassOwner from rfl, h]
    · rw [State.ownerRefusal, show s.ownerOf .windlass = s.windlassOwner from rfl, h]
    · obtain ⟨-, rfl⟩ | ⟨hk', -⟩ := hr
      · refine answered_turned (by decide) (State.seek_untrusted hm ho hf fun h => ?_)
        obtain ⟨h1, h2⟩ := Windlass.trusted_iff.mp h
        simp [h1, h2] at ht
      · exact absurd hk' hk
    · have hturn : ∀ {t : State} {x : Status}, (∀ run, s.acceptRun run = (t, some x)) → r = t.refuse x := by
        intro t x h
        obtain ⟨hk, rfl⟩ | ⟨hk, -, rfl⟩ := hr
        · obtain ⟨hk', -⟩ | ⟨-, hv, hu, hfar⟩ := hfar
          · exact absurd hk' hk
          · exact State.seek_far hm ho hf (Windlass.trusted_iff.mpr ⟨hv, hu⟩) rfl rfl hfar (h _)
        · obtain ⟨-, hs⟩ | ⟨hk', -⟩ := hfar
          · exact State.heaveHome_away hm ho hf hs (h _)
          · exact absurd hk hk'
      exact ⟨fun h6 => answered_turned (by decide) (hturn fun _ => State.acceptRun_faulted _ h6), fun a h6 ha =>
        answered_turned (by decide) (hturn fun _ => State.acceptRun_refused _ h6 ha)⟩
  · exact answered_turned (by decide) (if_pos hi)
  · exact answered_turned (by decide) ((if_neg (not_not.mpr hi)).trans (if_pos hl))
  · refine ⟨s.onWindlass fun w => w.setCount (BitVec.ofInt 32 (w.toCounts len)), ?_, rfl⟩
    show answered _ _ (Served.deck (s.setRode len) s) = _
    rw [State.setRode, if_neg (not_not.mpr hi), if_neg (by omega)]
    rfl

end Sys2Proof.Proofs
end

section
/-!
PROOFS. A run's ends, its timers and its watches (R141, R142, R146, R150 to R155): O49 and O50.
-/

namespace Sys2Proof.Machine

/-! ## What ends a run (R151, R152) -/

section
variable {s : State} {r : Run} (hr : s.windlass.run = some r) (hu : s.windlass.underWay = true)
include hr hu

/-- A SEEK within the stop band of its target. -/
theorem State.testEnds_near (b : Bool) (hk : r.kind = .seek) (hn : s.windlass.distanceTo r.dir r.target ≤ s.windlass.bandCounts) :
    s.testEnds b = s.windlassStop .target := by
  unfold State.testEnds
  dsimp only
  rw [hr]
  exact (if_neg (not_not.mpr hu)).trans (if_pos ⟨hk, hn⟩)

/-- A JOG OUT within the stop band of the max rode. -/
theorem State.testEnds_maxRode (b : Bool) (hk : r.kind = .jog) (hd : r.dir = .payOut) (hv : s.windlass.rodeValid = true)
    (hm : s.windlass.atMaxRode = true) : s.testEnds b = s.windlassStop .ended := by
  unfold State.testEnds
  dsimp only
  rw [hr]
  exact (if_neg (not_not.mpr hu)).trans ((if_neg (fun e => by rw [hk] at e; cases e.1)).trans (if_pos ⟨hk, hd, hv, hm⟩))

/-- A run that heaves and is not at its target, as the home switch becomes ACTIVE. -/
theorem State.testEnds_home (hd : r.dir = .heave) (hn : ¬ (r.kind = .seek ∧ s.windlass.distanceTo r.dir r.target ≤ s.windlass.bandCounts)) :
    s.testEnds true = s.arriveHome r.kind := by
  unfold State.testEnds
  dsimp only
  rw [hr]
  exact (if_neg (not_not.mpr hu)).trans ((if_neg hn).trans ((if_neg (fun e => by rw [hd] at e; cases e.2.1)).trans (if_pos ⟨hd, rfl⟩)))

/-- A run that heaves, on a trusted rode, beyond the home search limit. -/
theorem State.testEnds_lost (hn : ¬ (r.kind = .seek ∧ s.windlass.distanceTo r.dir r.target ≤ s.windlass.bandCounts))
    (hl : r.dir = .heave ∧ s.windlass.trusted = true ∧ s.windlass.state = .running ∧ s.windlass.position < -s.windlass.homeLimitCounts
      ∧ s.windlass.homeSw = false) : s.testEnds false = s.windlassStop .homeNotFound := by
  unfold State.testEnds
  dsimp only
  rw [hr]
  refine (if_neg (not_not.mpr hu)).trans ((if_neg hn).trans ((if_neg (fun e => ?_)).trans ((if_neg (fun e => by cases e.2)).trans (if_pos hl))))
  rw [hl.1] at e; cases e.2.1

/-- A run that none of its ends has reached. -/
theorem State.testEnds_goesOn (hn : ¬ (r.kind = .seek ∧ s.windlass.distanceTo r.dir r.target ≤ s.windlass.bandCounts))
    (hm : ¬ (r.kind = .jog ∧ r.dir = .payOut ∧ s.windlass.rodeValid = true ∧ s.windlass.atMaxRode = true))
    (hl : ¬ (r.dir = .heave ∧ s.windlass.trusted = true ∧ s.windlass.state = .running
      ∧ s.windlass.position < -s.windlass.homeLimitCounts ∧ s.windlass.homeSw = false)) : s.testEnds false = s := by
  unfold State.testEnds
  dsimp only
  rw [hr]
  exact (if_neg (not_not.mpr hu)).trans ((if_neg hn).trans ((if_neg hm).trans ((if_neg (fun e => by cases e.2)).trans (if_neg hl))))

end

/-- The slow zone: STAGE2 opens in RUNNING, with an end distance not above the slow zone's counts (R152). -/
theorem State.testSlowZone_drops {s : State} {r : Run} {d : Int} (hr : s.windlass.run = some r) (hd : s.windlass.endDistance r = some d)
    (hs : s.windlass.state = .running) (h2 : s.windlass.stage2 = true) (hl : d ≤ s.windlass.slowCounts) : s.testSlowZone = s.dropStage2 := by
  unfold State.testSlowZone
  rw [hr, Option.bind_some, hd]
  exact if_pos ⟨hs, h2, hl⟩

theorem State.testSlowZone_keeps {s : State} {r : Run} (hr : s.windlass.run = some r)
    (h : s.windlass.state ≠ .running ∨ s.windlass.stage2 = false ∨ s.windlass.endDistance r = none
      ∨ ∃ d, s.windlass.endDistance r = some d ∧ s.windlass.slowCounts < d) : s.testSlowZone = s := by
  unfold State.testSlowZone
  rw [hr, Option.bind_some]
  cases hd : s.windlass.endDistance r with
  | none => rfl
  | some d =>
    refine if_neg ?_
    rintro ⟨h1, h2, h3⟩
    obtain h | h | h | ⟨x, hx, h⟩ := h
    · exact h h1
    · simp [h] at h2
    · rw [hd] at h; cases h
    · rw [hd] at hx; cases hx; omega

/-- STAGE2 opens and the grant is lowered to G1, with a review (R93, R152). -/
theorem State.dropStage2_lowers {s : State} {g : Grant} (h : s.alloc.windlassGrant = some g) (hg : s.windlass.settings.g1 < g.running) :
    s.dropStage2 = State.review { s with
      windlass := { s.windlass with stage2 := false }
      alloc := { s.alloc with windlassGrant := some { g with running := s.windlass.settings.g1 } } } := by
  unfold State.dropStage2 State.lowerGrant
  dsimp only [State.onWindlass]
  rw [h]
  exact if_pos hg

theorem State.dropStage2_keeps {s : State} (h : ∀ g, s.alloc.windlassGrant = some g → g.running ≤ s.windlass.settings.g1) :
    s.dropStage2 = { s with windlass := { s.windlass with stage2 := false } } := by
  unfold State.dropStage2 State.lowerGrant
  dsimp only [State.onWindlass]
  cases hg : s.alloc.windlassGrant with
  | none => rfl
  | some g => exact if_neg (by have := h g hg; omega)

/-- A run whose rode stops being trusted: a SEEK stops, a run that heaves opens STAGE2, and any other goes on (R151, R152). -/
theorem State.loseTrust_eq {s : State} {r : Run} (hr : s.windlass.run = some r) (hu : s.windlass.underWay = true) :
    s.loseTrust = if r.kind = .seek then s.windlassStop .rodeUncertain
      else if r.dir = .heave ∧ s.windlass.stage2 = true then s.dropStage2 else s := by
  unfold State.loseTrust
  rw [hr]
  exact if_neg (not_not.mpr hu)

/-! ## The windlass stopped (R146, R153) -/

/-- The owner's records stand where the drain does not end. -/
theorem State.ownerOf_deckPass_busy {s : State} (b : State) (h : s.drained = false) (r : Resource) : (s.deckPass b).ownerOf r = s.ownerOf r := by
  obtain ⟨_, _, hw⟩ := s.watchInterlock_frame
  rcases s.deckPass_beside b with ⟨_, _, _, _, e⟩ | ⟨-, hd, -⟩
  · rw [e, hw]; cases r <;> rfl
  · rw [s.drained_watchInterlock.mp hd] at h; cases h

theorem State.drained_of_stopping {s : State} (h : s.windlass.state = .stopping) : s.drained = false := by
  rw [← Bool.not_eq_true, s.drained_iff, h]
  rintro ⟨-, -, -, h | h⟩ <;> cases h

/-- What a stop leaves of a run, when the operation that stopped it has ended. -/
structure Windlass.Ended (w w' : Windlass) (now : Uptime) (c : Cause) : Prop where
  stopped : w'.StoppedAt now c
  heaveFree : w'.heaveFree = if w.payOut then now + 500 else w.heaveFree
  payOutFree : w'.payOutFree = if w.heave then now + 500 else w.payOutFree
  run : w'.run = w.run
  count : w'.count = w.count
  rode : w'.rodeValid = w.rodeValid ∧ w'.rodeUncertain = w.rodeUncertain ∧ w'.fifo = w.fifo
  home : w'.homeFlag = w.homeFlag ∧ w'.homeSw = w.homeSw

theorem State.windlassStop_ended {s : State} (c : Cause) (h : s.windlass.underWay = true) :
    s.windlass.Ended (s.windlassStop c).windlass s.uptime c := by
  have hs := s.windlassStop_stoppedAt c h
  rcases s.windlassStop_cases c with ⟨-, e⟩ | ⟨g, -⟩
  · rw [e] at hs ⊢
    exact ⟨hs, rfl, rfl, rfl, rfl, ⟨rfl, rfl, rfl⟩, rfl, rfl⟩
  · rw [h] at g; cases g

theorem State.deckPass_windlassStop_owner {s : State} (c : Cause) (b : State) (h : s.windlass.underWay = true) :
    ((s.windlassStop c).deckPass b).windlassOwner = s.windlassOwner :=
  ((s.windlassStop c).ownerOf_deckPass_busy b (State.drained_of_stopping (s.windlassStop_stoppedAt c h).1) .windlass).trans
    (s.ownerOf_windlassStop c .windlass)

/-! ## The events that end a run -/

/-- A count step that ends the run does not reach the slow zone's test (notes/assumptions/39.md). -/
theorem State.gypsyStep_stops {s : State} {dir : RodeDir} {c : Cause} (hu : s.windlass.underWay = true)
    (h : (s.counted dir).testEnds false = (s.counted dir).windlassStop c) : s.gypsyStep dir = (s.counted dir).windlassStop c := by
  rw [s.gypsyStep_eq, h]
  exact State.testSlowZone_idle (by rw [((s.counted dir).windlassStop_stoppedAt c hu).1]; decide)

/-- A test of a run's ends away from home: the run stops, or goes on. -/
theorem State.testEnds_cases (s : State) : (∃ c, s.testEnds false = s.windlassStop c) ∨ s.testEnds false = s := by
  unfold State.testEnds
  dsimp only
  split
  · exact .inr rfl
  · split
    · exact .inr rfl
    · split
      · exact .inl ⟨_, rfl⟩
      · split
        · exact .inl ⟨_, rfl⟩
        · split
          · rename_i h; cases h.2
          · split
            · exact .inl ⟨_, rfl⟩
            · exact .inr rfl

theorem State.dropStage2_count (s : State) : s.dropStage2.windlass.count = s.windlass.count := by
  obtain ⟨_, _, _, _, _, _, e⟩ := (Allocated.of_lowerGrant (s.onWindlass fun w => { w with stage2 := false }) s.windlass.settings.g1).frame
  rw [State.dropStage2, e]
  rfl

/-- A count step counts, whatever it does to the run. -/
theorem State.gypsyStep_count (s : State) (dir : RodeDir) : (s.gypsyStep dir).windlass.count = (s.counted dir).windlass.count := by
  have hz : ∀ v : State, v.testSlowZone.windlass.count = v.windlass.count := by
    intro v
    unfold State.testSlowZone
    split
    · rfl
    · split
      · exact v.dropStage2_count
      · rfl
  rw [s.gypsyStep_eq, hz]
  rcases (s.counted dir).testEnds_cases with ⟨c, e⟩ | e <;> rw [e]
  rcases (s.counted dir).windlassStop_cases c with ⟨-, e⟩ | ⟨-, e⟩ <;> rw [e]
  rfl

/-- The windlass at home as the switch becomes ACTIVE: the count 0, the rode trusted and the home flag set (R144, R151). -/
def State.arriving (s : State) : State := s.onWindlass fun w =>
  { w with homeSw := true, count := 0, fifo := [], decodeErrors := 0, rodeValid := true, rodeUncertain := false, homeFlag := true }

/-- A run that heaves and is not at its target arrives home as the switch becomes ACTIVE. -/
theorem State.homeSwitch_arrives {s : State} {r : Run} {c : Cause} (hr : s.windlass.run = some r) (hu : s.windlass.underWay = true)
    (hd : r.dir = .heave) (hs : s.windlass.homeSw = false)
    (hn : ¬ (r.kind = .seek ∧ s.windlass.distanceTo r.dir r.target ≤ s.windlass.bandCounts))
    (hc : (r.kind = .jog ∧ c = .ended) ∨ (r.kind ≠ .jog ∧ c = .target)) : s.homeSwitch true = s.arriving.windlassStop c := by
  have he : (true && !s.windlass.homeSw) = true := by simp [hs]
  unfold State.homeSwitch
  rw [he, State.testEnds_home (s := s.onWindlass fun w => { w with homeSw := true }) hr hu hd hn]
  obtain ⟨hk, rfl⟩ | ⟨hk, rfl⟩ := hc
  · rw [hk]; rfl
  · cases hk' : r.kind
    · rfl
    · rfl
    · exact absurd hk' hk

/-! ## A fault cause during STOPPING (R154) -/

section
variable {w : Windlass} (c : Cause)

theorem Windlass.noteFault_pending {p : FaultRecord} (h : w.pendingFault = some p) : w.noteFault c = { w with pendingFault := some p.again } := by
  unfold Windlass.noteFault; rw [h]

theorem Windlass.noteFault_counted {x : Cause} (h : w.pendingFault = none) (hx : w.stopCause = some x) (hf : x.isFault = true) :
    w.noteFault c = { w with stopLater := min (w.stopLater + 1) 255 } := by
  unfold Windlass.noteFault; rw [h]
  exact if_pos (by rw [hx]; exact hf)

theorem Windlass.noteFault_first (h : w.pendingFault = none) (hf : ∀ x, w.stopCause = some x → x.isFault = false) :
    w.noteFault c = { w with pendingFault := some ⟨c, 0⟩ } := by
  unfold Windlass.noteFault; rw [h]
  refine if_neg ?_
  cases hs : w.stopCause with
  | none => simp
  | some x => simp [hf x hs]

end

/-! ## The timers of a run (R146, R150, R152, R154) -/

theorem State.expire_none {s : State} {timer : Option Uptime} (op : State → State) (h : timer = none) : s.expire timer op = s := by rw [h]; rfl

theorem State.expire_some {s : State} {timer : Option Uptime} {e : Uptime} (op : State → State) (h : timer = some e) :
    s.expire timer op = (op (s.atMoment e)).deckPass s := by rw [h]; rfl

@[simp] theorem State.deckPass_uptime (s b : State) : (s.deckPass b).uptime = s.uptime := by
  obtain ⟨_, _, hw⟩ := s.watchInterlock_frame
  rcases s.deckPass_beside b with ⟨_, _, _, _, h⟩ | ⟨-, -, _, _, _, _, h⟩ <;> rw [h]
  all_goals exact (congrArg State.uptime hw :)

/-- The windlass in RUNNING as its brake timer expires, before it asks for stage 2 (R150). -/
def State.ran (s : State) : State := s.onWindlass fun w =>
  { w with state := .running, brakeRelease := true, brakeTimer := none
           jamTimer := some (s.after w.settings.jamTime)
           delayTimer := if w.run.any (fun r => r.kind = .jog) then some (s.after w.settings.stage2Delay) else none }

theorem State.enterRunning_eq (s : State) : s.enterRunning
    = if s.ran.windlass.run.any (fun r => r.kind = .seek ∨ (r.kind = .home ∧ s.ran.windlass.trusted)) then s.ran.askStage2 else s.ran := rfl

/-- A moment at most 500 ms ahead is taken by an expiry. -/
theorem State.atMoment_ahead {s : State} {e : Uptime} (h : (e - s.uptime).toNat ≤ 500) (hne : e ≠ s.uptime) :
    s.atMoment e = { s with uptime := e } := by
  refine if_neg fun hr => ?_
  have hr : (s.uptime - e).toNat < 2 ^ 31 := of_decide_eq_true hr
  refine hne (BitVec.eq_of_toNat_eq ?_)
  have h1 := e.isLt
  have h2 := s.uptime.isLt
  rw [BitVec.toNat_sub] at h hr
  omega

/-- A deadband that has passed, or reads further than 500 ms ahead (R146; notes/assumptions/6.md). -/
theorem deadbandLeft_passed {now free : Uptime} (h : free = now ∨ 500 < (free - now).toNat) : deadbandLeft now free = 0 := by
  unfold deadbandLeft elapsed
  obtain rfl | h := h
  · simp
  · exact if_neg (by omega)

theorem deadbandLeft_running {now free : Uptime} (h : free ≠ now) (hl : (free - now).toNat ≤ 500) : deadbandLeft now free ≠ 0 := by
  unfold deadbandLeft elapsed
  rw [if_pos hl]
  intro h0
  refine h (BitVec.eq_of_toNat_eq ?_)
  have h1 := free.isLt
  have h2 := now.isLt
  rw [BitVec.toNat_sub] at h0
  omega

theorem State.deadband_eq (s : State) (d : RodeDir) : s.deadband d = deadbandLeft s.uptime (s.windlass.freeAt d) := by cases d <;> rfl

end Sys2Proof.Machine

namespace Sys2Proof.Proofs

open Sys2Proof.Machine

/-- Settles O49: each event counts or marks first, and then the first of the run's ends that applies decides. -/
theorem runsEnd : Obligations.RunsEnd := by
  refine ⟨fun s r hr hu => ⟨?_, ?_⟩, ?_, ?_, ?_⟩
  · intro t c h
    obtain ⟨v, hvu, hrun, hpo, hhe, hown, hup, ht⟩ : ∃ v : State, v.windlass.underWay = true ∧ v.windlass.run = some r
        ∧ v.windlass.payOut = s.windlass.payOut ∧ v.windlass.heave = s.windlass.heave ∧ v.windlassOwner = s.windlassOwner
        ∧ v.uptime = s.uptime ∧ .next ((v.windlassStop c).deckPass s) = (.next t : Outcome) := by
      obtain ⟨rfl, hk, ht, hn⟩ | ⟨rfl, hk, hv, hun, ht⟩ | ⟨rfl, hk, hd, hs, ht⟩ | ⟨rfl, hk, hd, hs, ht⟩ := h
      · refine ⟨s.counted r.dir, hu, hr, rfl, rfl, rfl, rfl, (State.deckEvent_eq (State.gypsyStep_stops hu ?_)).symm.trans ht⟩
        refine State.testEnds_near (s := s.counted r.dir) hr hu false hk ?_
        cases hd : r.dir <;> rw [hd] at hn <;> exact hn
      · refine ⟨s.misread, hu, hr, rfl, rfl, rfl, rfl, (State.deckEvent_eq ?_).symm.trans ht⟩
        rw [s.decodeError_eq, if_pos (Windlass.trusted_iff.mpr ⟨hv, hun⟩), State.loseTrust_eq (s := s.misread) hr hu, if_pos hk]
      · exact ⟨s.arriving, hu, hr, rfl, rfl, rfl, rfl, (State.deckEvent_eq (State.homeSwitch_arrives hr hu hd hs (by simp [hk])
          (.inr ⟨by rw [hk]; decide, rfl⟩))).symm.trans ht⟩
      · exact ⟨s.arriving, hu, hr, rfl, rfl, rfl, rfl, (State.deckEvent_eq (State.homeSwitch_arrives hr hu hd hs (by simp [hk])
          (.inl ⟨hk, rfl⟩))).symm.trans ht⟩
    obtain rfl := Host.Outcome.next.inj ht
    have he := State.windlassStop_ended c hvu
    obtain ⟨h1, h2, h3, h4, h5, h6, h7, -⟩ := he.stopped
    rw [State.deckPass_windlass, ← hup, ← hpo, ← hhe]
    exact ⟨h1, h2, by simp [Windlass.contactorClosed, h3, h4], h5, h6, h7, fun h => he.heaveFree.trans (if_pos h),
      fun h => he.payOutFree.trans (if_pos h), he.run.trans hrun, (State.deckPass_windlassStop_owner c s hvu).trans hown⟩
  · intro t hk hd hs ht
    obtain ⟨c, hc⟩ : ∃ c : Cause, (r.kind = .jog ∧ c = .ended) ∨ (r.kind ≠ .jog ∧ c = .target) := by
      by_cases h : r.kind = .jog
      · exact ⟨_, .inl ⟨h, rfl⟩⟩
      · exact ⟨_, .inr ⟨h, rfl⟩⟩
    have hx := (State.deckEvent_eq (State.homeSwitch_arrives hr hu hd hs (by rcases hk with h | h <;> simp [h]) hc)).symm.trans ht
    obtain rfl := Host.Outcome.next.inj hx
    have he := State.windlassStop_ended (s := s.arriving) c hu
    rw [State.deckPass_windlass]
    exact ⟨he.count, he.rode.1, he.rode.2.1, he.rode.2.2, he.home.1, he.home.2⟩
  · rintro s u r dir near atMax lost hr hu hdef hnear hmax hlost
    obtain rfl : u = s.counted dir := hdef
    have hnear : near ↔ r.kind = .seek ∧ (s.counted dir).windlass.distanceTo r.dir r.target ≤ (s.counted dir).windlass.bandCounts :=
      hnear.trans (by cases r.dir <;> exact Iff.rfl)
    have hmax : atMax ↔ r.kind = .jog ∧ r.dir = .payOut ∧ (s.counted dir).windlass.rodeValid = true
        ∧ (s.counted dir).windlass.atMaxRode = true :=
      hmax.trans (and_congr_right fun _ => and_congr_right fun _ => and_congr_right fun _ => decide_eq_true_iff.symm)
    have hlost : lost ↔ r.dir = .heave ∧ (s.counted dir).windlass.trusted = true ∧ (s.counted dir).windlass.state = .running
        ∧ (s.counted dir).windlass.position < -(s.counted dir).windlass.homeLimitCounts ∧ (s.counted dir).windlass.homeSw = false := by
      rw [hlost, Windlass.trusted_iff]
      exact ⟨fun ⟨a, b, c, d, e, f⟩ => ⟨a, ⟨b, c⟩, d, f, e⟩, fun ⟨a, ⟨b, c⟩, d, f, e⟩ => ⟨a, b, c, d, e, f⟩⟩
    have hstop : ∀ {c : Cause}, (s.counted dir).testEnds false = (s.counted dir).windlassStop c →
        ((s.gypsyStep dir).deckPass s).windlass.StoppedAt s.uptime c := fun h => by
      rw [State.deckPass_windlass, State.gypsyStep_stops hu h]
      exact (s.counted dir).windlassStop_stoppedAt _ hu
    have hgo : ¬ near → ¬ atMax → ¬ lost → s.gypsyStep dir = (s.counted dir).testSlowZone := fun h1 h2 h3 => by
      rw [s.gypsyStep_eq, State.testEnds_goesOn (s := s.counted dir) hr hu (mt hnear.mpr h1) (mt hmax.mpr h2) (mt hlost.mpr h3)]
    refine ⟨_, rfl, ?_, fun h => ?_, fun h => ?_, fun h hn => ?_, fun h1 h2 h3 => ⟨fun h => ?_, fun d hs h2' hd hl => ?_⟩⟩
    · rw [State.deckPass_windlass]; exact s.gypsyStep_count dir
    · exact hstop (State.testEnds_near (s := s.counted dir) hr hu false (hnear.mp h).1 (hnear.mp h).2)
    · obtain ⟨hk, hd, hv, hm⟩ := hmax.mp h
      exact hstop (State.testEnds_maxRode (s := s.counted dir) hr hu false hk hd hv hm)
    · exact hstop (State.testEnds_lost (s := s.counted dir) hr hu (mt hnear.mpr hn) (hlost.mp h))
    · rw [hgo h1 h2 h3, State.testSlowZone_keeps (s := s.counted dir) hr]
      refine h.imp_left fun e => ?_
      show s.windlass.state ≠ .running
      rw [e]; decide
    · rw [hgo h1 h2 h3, State.testSlowZone_drops (s := s.counted dir) hr hd hs h2' hl]
      exact ⟨fun g hg hlt => congrArg (State.deckPass · s) (State.dropStage2_lowers (s := s.counted dir) hg hlt),
        fun hle => congrArg (State.deckPass · s) (State.dropStage2_keeps (s := s.counted dir) hle)⟩
  · rintro s t r hr hu hk hd hs ht
    have hdist : s.windlass.distanceTo r.dir r.target = s.windlass.count.toInt - r.target := by rw [hd]; rfl
    by_cases hn : s.windlass.distanceTo r.dir r.target ≤ s.windlass.bandCounts
    · obtain rfl := Host.Outcome.next.inj ((State.deckEvent_eq
        (State.testEnds_near (s := s.onWindlass fun w => { w with homeSw := true }) hr hu _ hk hn)).symm.trans ht)
      have he := State.windlassStop_ended (s := s.onWindlass fun w => { w with homeSw := true }) .target hu
      rw [State.deckPass_windlass]
      exact ⟨he.stopped, he.home.2, fun h => absurd (hdist ▸ hn) (not_le.mpr h)⟩
    · obtain rfl := Host.Outcome.next.inj ((State.deckEvent_eq
        (State.homeSwitch_arrives (c := .target) hr hu hd hs (fun e => hn e.2) (.inr ⟨by rw [hk]; decide, rfl⟩))).symm.trans ht)
      have he := State.windlassStop_ended (s := s.arriving) .target hu
      rw [State.deckPass_windlass]
      exact ⟨he.stopped, he.home.2, fun _ => ⟨he.count, he.rode.1, he.rode.2.1, he.home.1⟩⟩
  · rintro s u r i hr hu hi
    have hx : exec i s = .next ((if s.windlass.trusted = true then u.loseTrust else u).deckPass s) ∧ u.windlass.run = some r
        ∧ u.windlass.underWay = true ∧ u.windlass.stage2 = s.windlass.stage2 ∧ u.alloc = s.alloc ∧ u.uptime = s.uptime
        ∧ u.windlass.settings = s.windlass.settings ∧ u.windlass.rodeUncertain = true := by
      obtain ⟨rfl, rfl⟩ | ⟨rfl, pre, older, d, hf, hp, rfl, hnot, rfl⟩ := hi
      · exact ⟨State.deckEvent_eq s.decodeError_eq, hr, hu, rfl, rfl, rfl, rfl, rfl⟩
      · exact ⟨State.deckEvent_eq ((State.gypsyIndex_pair hf hp).trans (if_neg (mt Windlass.indexPasses_iff.mp hnot))), hr, hu, rfl, rfl, rfl,
          rfl, rfl⟩
    obtain ⟨hx, hur, huu, h2, ha, hup, hset, hunc⟩ := hx
    rw [hx]
    refine ⟨fun h => ?_, fun hv hun => ?_⟩
    · rw [if_neg (fun e => ?_)]
      obtain ⟨e1, e2⟩ := Windlass.trusted_iff.mp e
      simp [e1, e2] at h
    · rw [if_pos (Windlass.trusted_iff.mpr ⟨hv, hun⟩), State.loseTrust_eq hur huu]
      refine ⟨fun hk => ⟨_, rfl, ?_⟩, fun hk h => ?_, fun g hk hd hst hg hlt => ?_⟩
      · rw [if_pos hk, State.deckPass_windlass, ← hup]
        have he := State.windlassStop_ended .rodeUncertain huu
        exact ⟨he.stopped, he.rode.2.1.trans hunc⟩
      · rw [if_neg hk, if_neg (fun e => ?_)]
        obtain h | h := h
        · rw [h] at e; cases e.1
        · rw [h2, h] at e; cases e.2
      · rw [if_neg hk, if_pos ⟨hd, h2.trans hst⟩, State.dropStage2_lowers (ha ▸ hg) (hset ▸ hlt), hset]

/-- Settles O50: each timer's operation runs at its moment, and each watch's step is the sweep's. -/
theorem runTimers : Obligations.RunTimers := by
  refine ⟨fun s closed hclosed => ⟨?_, ?_, ?_, ?_, ?_, ?_, ?_, ?_⟩, fun w r => ?_, ?_, fun s => ?_⟩
  · rintro r free hs hc hr hfree
    have hfree : free = s.windlass.freeAt r.dir := by rw [hfree]; cases r.dir <;> rfl
    have hclosed : ∀ u d, State.closeContactor u d = closed u d := fun u d => (hclosed u d).symm
    have hwait : s.windlass.waitingDir = some r.dir := by
      rw [Windlass.waitingDir, if_pos ⟨hs, by simp [hc]⟩, hr]; rfl
    have hx : exec .deadbandExpiry s
        = .next ((if s.deadband r.dir = 0 then s else s.atMoment (s.windlass.freeAt r.dir)).closeContactor r.dir) := by
      show Host.Outcome.next _ = _
      rw [hwait]
    rw [hx, s.deadband_eq, ← hfree, hclosed]
    refine ⟨fun h => ?_, fun h1 h2 => ?_⟩
    · rw [if_pos (deadbandLeft_passed h)]
    · rw [if_neg (deadbandLeft_running h1 h2), State.atMoment_ahead h2 h1]
  · intro h
    have hwait : s.windlass.waitingDir = none := by
      unfold Windlass.waitingDir
      obtain h | h | h := h
      · exact if_neg fun e => h e.1
      · exact if_neg fun e => e.2 h
      · rw [h]; split <;> rfl
    show Host.Outcome.next _ = _
    rw [hwait]
  · rintro e u he hu
    have hran : u = (s.atMoment e).ran := by
      rw [hu, State.ran]
      refine congrArg (fun w => { s.atMoment e with windlass := w }) ?_
      simp only [State.atMoment_windlass]
      cases s.windlass.run <;> simp [State.after, later]
    have hx : exec .brakeTimerExpiry s = .next ((s.atMoment e).enterRunning.deckPass s) := congrArg Host.Outcome.next (State.expire_some _ he)
    have hrun : (s.atMoment e).ran.windlass.run = s.windlass.run := (congrArg Windlass.run (s.atMoment_windlass e) :)
    have htru : (s.atMoment e).ran.windlass.trusted = s.windlass.trusted := (congrArg Windlass.trusted (s.atMoment_windlass e) :)
    rw [hx, State.enterRunning_eq, ← hran] at *
    rw [hrun, htru]
    refine ⟨fun hr => by rw [hr]; rfl, fun r hr => ⟨fun h => ?_, fun h => ⟨_, ?_, u.askStage2_asked r (hrun.trans hr)⟩⟩⟩
    · rw [hr, if_neg (fun g => ?_)]
      have g := of_decide_eq_true (Option.any_some ▸ g)
      rw [Windlass.trusted_iff] at g
      obtain h | ⟨h, hv⟩ := h
      · simp [h] at g
      · simp [h] at g
        simp [g] at hv
    · rw [hr, if_pos]
      refine decide_eq_true (h.imp_right fun ⟨h1, h2⟩ => ⟨h1, Windlass.trusted_iff.mpr h2⟩)
  · rintro e u he hu
    have hx : exec .stage2DelayExpiry s = .next (u.askStage2.deckPass s) := by
      rw [hu]; exact congrArg Host.Outcome.next (State.expire_some _ he)
    have hrun : u.windlass.run = s.windlass.run := by rw [hu]; exact (congrArg Windlass.run (s.atMoment_windlass e) :)
    refine ⟨fun h => ?_, fun r h => ⟨_, hx, u.askStage2_asked r (hrun.trans h)⟩⟩
    rw [hx, State.askStage2, hrun, h]
  · rintro e he hu
    have hw := s.atMoment_windlass e
    have hu : (s.atMoment e).windlass.underWay = true := by rw [hw]; exact hu
    have hend := State.windlassStop_ended .jam hu
    refine ⟨((s.atMoment e).windlassStop .jam).deckPass s, congrArg Host.Outcome.next (State.expire_some _ he), ?_⟩
    have hup : (((s.atMoment e).windlassStop .jam).deckPass s).uptime = (s.atMoment e).uptime :=
      (State.deckPass_uptime _ _).trans (State.windlassStop_uptime _ _)
    rw [State.deckPass_windlass, hup, ← hw]
    exact ⟨rfl, hend.stopped, hend.heaveFree, hend.payOutFree⟩
  · exact fun h => congrArg Host.Outcome.next (State.expire_none _ h)
  · exact fun h => congrArg Host.Outcome.next (State.expire_none _ h)
  · exact fun h => congrArg Host.Outcome.next (State.expire_none _ h)
  · refine ⟨fun h => ?_, fun h => ?_, fun h hd => ?_⟩
    · rw [Windlass.endDistance, h]
      cases r.dir <;> rfl
    · have ht : (if w.trusted = true then some w.position else none)
          = if w.rodeValid = true ∧ w.rodeUncertain = false then some w.count.toInt else none := by
        simp only [Windlass.trusted_iff]; rfl
      rw [← ht]
      obtain h | ⟨h, hd⟩ := h
      · rw [Windlass.endDistance, h]
      · rw [Windlass.endDistance, h, hd]
    · rw [Windlass.endDistance, h, hd]; rfl
  · intro s ow lw ov low watched hwatched how hlw
    obtain ⟨b1, e1, h1⟩ := watchStep_of_watchAt how
    obtain ⟨b2, e2, h2⟩ := watchStep_of_watchAt hlw
    have hlow : s.supplyLow = decide ((s.input 1).faulted = false ∧ (s.input 1).scaled < (s.input 1).settings.lowLimit) := by
      unfold State.supplyLow
      cases (s.input 1).faulted <;> simp
    have hwatched : s.windlass.watched = true ↔ watched := by rw [hwatched]; exact decide_eq_true_iff
    have hsweep : watched → s.windlassSweep = if b1 = true then
        (s.onWindlass fun w => { w with overWatch := ow, lowWatch := lw }).windlassStop .overload
        else if b2 = true then (s.onWindlass fun w => { w with overWatch := ow, lowWatch := lw }).windlassStop .supplyLow
        else s.onWindlass fun w => { w with overWatch := ow, lowWatch := lw } := fun hw => by
      unfold State.windlassSweep
      dsimp only
      rw [if_pos (hwatched.mpr hw), hlow, e2, State.windlassCurrent, e1]
    have hrun : watched → s.windlass.underWay = true := fun hw => by
      have h : _ ∨ _ := of_decide_eq_true (hwatched.mpr hw)
      exact decide_eq_true (h.imp_left (·.1))
    refine ⟨fun hw => if_neg (mt hwatched.mp hw), fun hw ho => ?_, fun hw ho hl => ?_, fun hw ho hl => ?_⟩
    · rw [hsweep hw, if_pos (h1.mpr ho)]
      exact State.windlassStop_stoppedAt _ _ (hrun hw)
    · rw [hsweep hw, if_neg (mt h1.mp ho), if_pos (h2.mpr hl)]
      exact State.windlassStop_stoppedAt _ _ (hrun hw)
    · rw [hsweep hw, if_neg (mt h1.mp ho), if_neg (mt h2.mp hl)]
  · refine ⟨fun h => ?_, fun h => ?_, fun h => ⟨fun p hp => ?_, fun hp hc => ?_, fun hp hc => ?_⟩, fun f h hf => ?_⟩
    · rw [State.currentFaulted, h]
    · have hs : s.currentFaulted = s.windlassStop .sensorFault := by
        obtain h | h : s.windlass.state = .starting ∨ s.windlass.state = .running := of_decide_eq_true h
        · rw [State.currentFaulted, h]
        · rw [State.currentFaulted, h]
      rw [hs]
      exact s.windlassStop_stoppedAt .sensorFault h
    · rw [State.currentFaulted, h]
      exact congrArg (fun w => { s with windlass := w }) (Windlass.noteFault_pending _ hp)
    · rw [State.currentFaulted, h]
      obtain ⟨c, hc, hf⟩ := hc
      exact congrArg (fun w => { s with windlass := w }) (Windlass.noteFault_counted _ hp hc hf)
    · rw [State.currentFaulted, h]
      exact congrArg (fun w => { s with windlass := w }) (Windlass.noteFault_first _ hp hc)
    · rw [State.currentFaulted, h]
      have he : s.windlass.fault.map FaultRecord.again = some { f with later := min (f.later + 1) 255 } := by rw [hf]; rfl
      exact congrArg (fun x => { s with windlass := { s.windlass with fault := x } }) he

end Sys2Proof.Proofs
end

section
/-!
PROOFS. The timers and the sweep of the movers and the pump (R120 to R124, R131 to R135): O44.
-/

namespace Sys2Proof.Machine

/-! ## Notices an operation posts (R180) -/

/-- At most `k` notices have joined the queue of notices, at its end. -/
def Told (k : Nat) (s t : State) : Prop := s.link.notices <+: t.link.notices ∧ t.link.notices.length ≤ s.link.notices.length + k

theorem Told.of_link {s t : State} (h : t.link.notices = s.link.notices) (k : Nat) : Told k s t := ⟨h ▸ List.prefix_rfl, by rw [h]; omega⟩

theorem Told.refl {s : State} {k : Nat} : Told k s s := .of_link rfl k

theorem Told.trans {s t u : State} {j k : Nat} (h : Told j s t) (g : Told k t u) : Told (j + k) s u :=
  ⟨h.1.trans g.1, by have := h.2; have := g.2; omega⟩

theorem Link.post_length (l : Link) (n : Notice) : (l.post n).notices.length ≤ l.notices.length + 1 := by
  unfold Link.post; split <;> simp

theorem Told.of_post (s : State) (k : NoticeKind) (n : Nat) (d : List Byte) : Told 1 s (s.post k n d) :=
  ⟨s.link.post_prefix _, s.link.post_length _⟩

theorem Told.mem {s t : State} {k : Nat} {n : Notice} (h : Told k s t) (hn : n ∈ s.link.notices) : n ∈ t.link.notices := h.1.subset hn

theorem Link.mem_post {l : Link} (n : Notice) (h : l.notices.length < 32) : n ∈ (l.post n).notices := by
  rw [Link.post_room n h]; exact List.mem_append_right _ (List.mem_singleton_self _)

theorem Told.of_review (s : State) : Told 1 s s.review := by
  unfold State.review
  dsimp only
  split
  · split
    · rename_i k _
      have h := Told.of_post ((s.setClass k .shed).onChannels fun c => if c.cfg.cls = k then { c with ceiling := c.cfg.floor } else c) .shed k
        (leBytes 1 ShedCause.review.code ++ leSigned 4 s.headroom)
      unfold State.shedClass
      exact ⟨by rw [State.offer_link]; exact h.1, by rw [State.offer_link]; exact h.2⟩
    · unfold State.countOverLimit
      split
      · dsimp only
        split
        · exact .of_post (s.onAlloc fun a => { a with overLimit := a.overLimit + 1 }) _ _ _
        · exact .refl
      · exact .refl
  · unfold State.tryRestore
    split
    · exact .refl
    · split
      · exact .refl
      · split <;> exact .refl

theorem Told.of_releaseGrant (s : State) (m : Motor) : Told 1 s (s.releaseGrant m) := by
  unfold State.releaseGrant
  split
  · cases m
    · exact Told.of_review (s.setGrant .hpu none)
    · exact Told.of_review (s.setGrant .windlass none)
  · exact .refl

/-! ## A mover that returns to rest (R133) -/

section
variable (s : State) (m : MoverId) (c : Cause)

theorem State.returnToRest_mover : (s.returnToRest m c).mover m = { s.mover m with state := .atRest, motion := none } := by cases m <;> rfl

theorem State.returnToRest_ownerOf : (s.returnToRest m c).ownerOf (moverResource m) = {} := by cases m <;> rfl

theorem State.returnToRest_other {n : MoverId} (h : n ≠ m) : (s.returnToRest m c).mover n = s.mover n
    ∧ (s.returnToRest m c).ownerOf (moverResource n) = s.ownerOf (moverResource n) := by
  cases m <;> cases n <;> first | exact absurd rfl h | exact ⟨rfl, rfl⟩

theorem State.returnToRest_hpu : (s.returnToRest m c).hpu = s.hpu := by cases m <;> rfl

theorem State.returnToRest_alloc : (s.returnToRest m c).alloc = s.alloc := by cases m <;> rfl

theorem Told.of_returnToRest : Told 1 s (s.returnToRest m c) := by
  cases m <;> exact ⟨s.link.post_prefix _, s.link.post_length _⟩

end

/-! ## The pump in FAULT (R123) -/

section
variable (u : State)

theorem State.tellHolder_hpu : u.tellHolder.hpu = { u.hpu with holder := none } := by
  unfold State.tellHolder
  split
  · rename_i h; cases hu : u.hpu; rw [hu] at h; cases h; rfl
  · rename_i m _
    dsimp only
    split
    · cases m <;> rfl
    · rw [State.returnToRest_hpu]; rfl
    · rfl

theorem State.tellHolder_alloc : u.tellHolder.alloc = u.alloc := by
  unfold State.tellHolder
  split
  · rfl
  · rename_i m _
    dsimp only
    split
    · cases m <;> rfl
    · rw [State.returnToRest_alloc]; rfl
    · rfl

theorem Told.of_tellHolder : Told 1 u u.tellHolder := by
  unfold State.tellHolder
  split
  · exact .refl
  · rename_i m _
    dsimp only
    split
    · cases m <;> exact .refl
    · exact Told.of_returnToRest (u.onHpu fun h => { h with holder := none }) m .hpuFault
    · exact .refl

/-- The holder of a pump that faults, by its state. -/
theorem State.tellHolder_holder {m : MoverId} (h : u.hpu.holder = some m) :
    ((u.mover m).state = .moving → (u.tellHolder.mover m).StoppedAt u.uptime .hpuFault)
    ∧ ((u.mover m).state = .waitPump → u.tellHolder.mover m = { u.mover m with state := .atRest, motion := none }
      ∧ u.tellHolder.ownerOf (moverResource m) = {})
    ∧ ((u.mover m).state = .settling → u.tellHolder.mover m = u.mover m) := by
  unfold State.tellHolder
  rw [h]
  dsimp only
  refine ⟨fun g => ?_, fun g => ?_, fun g => ?_⟩ <;> rw [g] <;> dsimp only
  · exact State.enterSettling_stoppedAt (u.onHpu fun h => { h with holder := none }) m .hpuFault
  · rw [State.returnToRest_mover, State.returnToRest_ownerOf, State.mover_onHpu]
    exact ⟨rfl, rfl⟩
  · exact u.mover_onHpu _ m

theorem State.tellWaiter_hpu : u.tellWaiter.hpu = { u.hpu with waiting := none } := by
  unfold State.tellWaiter
  split
  · rename_i h; cases hu : u.hpu; rw [hu] at h; cases h; rfl
  · rw [State.returnToRest_hpu]; rfl

theorem State.tellWaiter_alloc : u.tellWaiter.alloc = u.alloc := by
  unfold State.tellWaiter
  split
  · rfl
  · rw [State.returnToRest_alloc]; rfl

theorem Told.of_tellWaiter : Told 1 u u.tellWaiter := by
  unfold State.tellWaiter
  split
  · exact .refl
  · rename_i m _
    exact Told.of_returnToRest (u.onHpu fun h => { h with waiting := none }) m .hpuFault

theorem State.tellWaiter_other {n : MoverId} (h : u.hpu.waiting ≠ some n) : u.tellWaiter.mover n = u.mover n
    ∧ u.tellWaiter.ownerOf (moverResource n) = u.ownerOf (moverResource n) := by
  unfold State.tellWaiter
  split
  · exact ⟨rfl, rfl⟩
  · rename_i m hm
    have g := State.returnToRest_other (u.onHpu fun h => { h with waiting := none }) m .hpuFault fun e : n = m => h (e ▸ hm)
    exact ⟨g.1.trans (u.mover_onHpu _ n), g.2.trans (u.ownerOf_onHpu _ _)⟩

theorem State.tellWaiter_waiter {m : MoverId} (h : u.hpu.waiting = some m) :
    u.tellWaiter.mover m = { u.mover m with state := .atRest, motion := none } ∧ u.tellWaiter.ownerOf (moverResource m) = {} := by
  unfold State.tellWaiter
  rw [h]
  dsimp only
  rw [State.returnToRest_mover, State.returnToRest_ownerOf, State.mover_onHpu]
  exact ⟨rfl, rfl⟩

end

/-- The pump that faults posts HPU_FAULT. -/
theorem State.pumpFaulting_told (s : State) (c : Cause) (h : s.link.notices.length < 31) :
    ⟨.hpuFault, 4, BitVec.ofNat 8 c.code :: leSigned 2 s.pressure, s.uptime⟩ ∈ (s.pumpFaulting c).link.notices := by
  unfold State.pumpFaulting
  dsimp only
  rw [State.offer_link]
  generalize hv : State.releaseGrant (s.onHpu fun h => { h with
    state := .fault, contactor := false, fault := some ⟨c, 0⟩, readyTimer := none, runOnTimer := none }) .hpu = v
  have ht : Told 1 s v := hv ▸ Told.of_releaseGrant (s.onHpu _) .hpu
  have hp : v.pressure = s.pressure := by rw [← hv]; simp [State.pressure, State.input]
  have hu : v.uptime = s.uptime := by rw [← hv]; simp
  rw [hp, ← hu]
  exact Link.mem_post (l := v.link) _ (by have := ht.2; omega)

/-- The pump in FAULT, and its movers with it, is `State.PumpFaulted`. -/
theorem State.hpuFault_faulted (s : State) (c : Cause) : s.PumpFaulted (s.hpuFault c) c := by
  rw [State.hpuFault_eq]
  have hhpu : ((s.pumpFaulting c).tellHolder.tellWaiter).hpu = { s.hpu with
      state := .fault, contactor := false, fault := some ⟨c, 0⟩, readyTimer := none, runOnTimer := none, holder := none, waiting := none } := by
    rw [State.tellWaiter_hpu, State.tellHolder_hpu, State.pumpFaulting_hpu]
  have hwait : (s.pumpFaulting c).tellHolder.hpu.waiting = s.hpu.waiting := by rw [State.tellHolder_hpu, State.pumpFaulting_hpu]
  have hhold : (s.pumpFaulting c).hpu.holder = s.hpu.holder := by rw [State.pumpFaulting_hpu]
  have hkeep : ∀ m, s.hpu.waiting ≠ some m → (s.pumpFaulting c).tellHolder.tellWaiter.mover m = (s.pumpFaulting c).tellHolder.mover m
      ∧ (s.pumpFaulting c).tellHolder.tellWaiter.ownerOf (moverResource m) = (s.pumpFaulting c).tellHolder.ownerOf (moverResource m) :=
    fun m h => State.tellWaiter_other _ (hwait ▸ h)
  have hheld : ∀ m, s.hpu.holder = some m → _ := fun m h => (s.pumpFaulting c).tellHolder_holder (hhold.trans h)
  simp only [State.pumpFaulting_mover, State.pumpFaulting_uptime] at hheld
  refine ⟨by rw [hhpu], by rw [hhpu], by rw [hhpu], by rw [hhpu], by rw [hhpu], by rw [hhpu], by rw [hhpu], ?_, fun h => ?_,
    fun m h hw hm => ?_, fun m h hw hm => ?_, fun m h => ?_⟩
  · rw [State.tellWaiter_alloc, State.tellHolder_alloc, State.pumpFaulting_hpuGrant]
  · exact ((Told.of_tellHolder _).trans (.of_tellWaiter _)).mem (s.pumpFaulting_told c h)
  · rw [(hkeep m hw).1]; exact (hheld m h).1 hm
  · rw [(hkeep m hw).1]; exact (hheld m h).2.2 hm
  · by_cases hw : s.hpu.waiting = some m
    · obtain ⟨h1, h2⟩ := State.tellWaiter_waiter _ (hwait.trans hw)
      exact ⟨by rw [h1], by rw [h1], h2⟩
    · obtain ⟨h, hm⟩ := h.resolve_right hw
      obtain ⟨h1, h2⟩ := (hheld m h).2.1 hm
      rw [(hkeep m hw).1, (hkeep m hw).2, h1]
      exact ⟨rfl, rfl, h2⟩

/-! ## The pump handed on (R121, R122) -/

theorem State.hpuIdle_keeps (s : State) : (∀ n, s.hpuIdle.mover n = s.mover n) ∧ (∀ r, s.hpuIdle.ownerOf r = s.ownerOf r)
    ∧ s.hpuIdle.hpu.holder = none := by
  unfold State.hpuIdle
  split
  · exact ⟨fun n => by simp [State.hpuOff], fun r => by simp [State.hpuOff], by simp [State.hpuOff]⟩
  · exact ⟨fun n => s.mover_onHpu _ n, fun r => s.ownerOf_onHpu _ r, rfl⟩

theorem State.givePump_other (s : State) {m n : MoverId} (h : n ≠ m) : (s.givePump m).mover n = s.mover n
    ∧ (s.givePump m).ownerOf (moverResource n) = s.ownerOf (moverResource n) := by
  cases m <;> cases n <;> first | exact absurd rfl h | exact ⟨rfl, rfl⟩

/-- The wait slot served leaves a mover that is not in it, and does not make it the holder. -/
theorem State.serveWaiter_keeps (s : State) {m : MoverId} (hw : s.hpu.waiting ≠ some m) :
    s.serveWaiter.mover m = s.mover m ∧ s.serveWaiter.ownerOf (moverResource m) = s.ownerOf (moverResource m)
      ∧ s.serveWaiter.hpu.holder ≠ some m := by
  unfold State.serveWaiter
  split
  · exact ⟨s.hpuIdle_keeps.1 m, s.hpuIdle_keeps.2.1 _, by rw [s.hpuIdle_keeps.2.2]; simp⟩
  · rename_i w hw'
    have hmw : m ≠ w := fun e => hw (e ▸ hw')
    dsimp only
    split
    · obtain ⟨h1, h2⟩ := State.givePump_other (s.onHpu fun h => { h with waiting := none, holder := none }) hmw
      refine ⟨h1.trans (s.mover_onHpu _ m), h2.trans (s.ownerOf_onHpu _ _), ?_⟩
      cases w <;> exact fun e => hmw (Option.some.inj e).symm
    · obtain ⟨h1, h2, h3⟩ := State.hpuIdle_keeps ((s.onHpu fun h => { h with waiting := none, holder := none }).returnToRest w .interlock)
      obtain ⟨g1, g2⟩ := State.returnToRest_other (s.onHpu fun h => { h with waiting := none, holder := none }) w .interlock hmw
      exact ⟨((h1 m).trans g1).trans (s.mover_onHpu _ m), ((h2 _).trans g2).trans (s.ownerOf_onHpu _ _), by rw [h3]; simp⟩

/-- The hand-over leaves the mover that ends its SETTLING, which is no holder after it. -/
theorem State.handOver_keeps (s : State) {m : MoverId} (hw : s.hpu.waiting ≠ some m) :
    (s.handOver m).mover m = s.mover m ∧ (s.handOver m).ownerOf (moverResource m) = s.ownerOf (moverResource m)
      ∧ (s.handOver m).hpu.holder ≠ some m := by
  unfold State.handOver
  split
  · dsimp only
    split
    · exact ⟨s.mover_onHpu _ m, s.ownerOf_onHpu _ _, by simp⟩
    · obtain ⟨h1, h2, h3⟩ := State.serveWaiter_keeps (s.onHpu fun h => { h with holder := none }) (m := m) hw
      exact ⟨h1.trans (s.mover_onHpu _ m), h2.trans (s.ownerOf_onHpu _ _), h3⟩
  · rename_i h
    exact ⟨rfl, rfl, h⟩

/-! ## The end of a settle (R134) -/

/-- The winning fault of a mover once the switches have been compared with the angle (R134). -/
def State.settleFault (s : State) (m : MoverId) : Option FaultRecord :=
  winningFault (s.mover m).stopCause (s.mover m).stopLater
    (if s.angleFaulted m = false ∧ (s.mover m).disagrees (s.angle m) = true then
      some (((s.mover m).pendingFault.map FaultRecord.again).getD ⟨.sensorDisagree, 0⟩) else (s.mover m).pendingFault)

/-- The fields of a motion cleared as its settle ends. -/
def Mover.rested (r : Mover) : Mover := { r with motion := none, stopCause := none, stopLater := 0, pendingFault := none }

/-- A mover sent to FAULT by its settle, with DECK_FAULT posted and offered (R134). -/
def State.toldFault (s : State) (m : MoverId) (f : FaultRecord) : State :=
  State.offer { s.onMover m (fun r => { r with state := .fault, fault := some f, settleTimer := none }) with
    link := s.link.post ⟨.deckFault, (moverDeck m).code,
      BitVec.ofNat 8 f.cause.code :: BitVec.ofNat 8 f.later :: leSigned 2 (s.angle m), s.uptime⟩ } (.deck (.fault (moverDeck m)))

theorem State.disagreementTest_cases (s : State) (m : MoverId) :
    (s.angleFaulted m = false ∧ (s.mover m).disagrees (s.angle m) = true ∧ s.disagreementTest m = s.onMover m Mover.noteDisagreement)
      ∨ (¬ (s.angleFaulted m = false ∧ (s.mover m).disagrees (s.angle m) = true) ∧ s.disagreementTest m = s) := by
  unfold State.disagreementTest
  by_cases h : s.angleFaulted m = false ∧ (s.mover m).disagrees (s.angle m) = true
  · exact .inl ⟨h.1, h.2, if_pos h⟩
  · exact .inr ⟨h, if_neg h⟩

/-- A settle that ends in FAULT: what is told, and what the mover is left with. -/
theorem State.settle_fault {s : State} {m : MoverId} {f : FaultRecord} (h : s.settleFault m = some f) :
    (((s.disagreementTest m).settleOutcome m).releaseOwner (moverResource m)).onMover m Mover.rested
      = ((s.toldFault m f).onOwner (moverResource m) fun _ => {}).onMover m Mover.rested := by
  have hd : ∀ d : State, winningFault (d.mover m).stopCause (d.mover m).stopLater (d.mover m).pendingFault = some f →
      d.settleOutcome m = d.toldFault m f := by
    intro d hd
    unfold State.settleOutcome
    dsimp only
    rw [hd]
    cases m <;> rfl
  rcases s.disagreementTest_cases m with ⟨h1, h2, e⟩ | ⟨h1, e⟩
  · rw [State.settleFault, if_pos ⟨h1, h2⟩] at h
    rw [e, hd _ (by rw [State.mover_onMover]; exact h)]
    have hn : State.toldFault (s.onMover m Mover.noteDisagreement) m f = (s.toldFault m f).onMover m Mover.noteDisagreement := by
      unfold State.toldFault
      rw [← State.offer_onMover]
      cases m <;> rfl
    rw [hn]
    cases m <;> rfl
  · rw [State.settleFault, if_neg h1] at h
    rw [e, hd s h]
    rfl

/-- A settle that ends at rest, of a motion stopped with a cause (R134). -/
def State.toldRest (s : State) (m : MoverId) (c : Cause) : State :=
  { s.onMover m (fun r => { r with state := .atRest, settleTimer := none }) with
    link := s.link.post (if c = .target ∨ c = .ended then
        ⟨.motionDone, (moverDeck m).code, BitVec.ofNat 8 (s.mover m).position.code :: leSigned 2 (s.angle m), s.uptime⟩
      else ⟨.motionStopped, (moverDeck m).code, BitVec.ofNat 8 c.code :: BitVec.ofNat 8 (s.mover m).position.code
        :: leSigned 2 (s.angle m), s.uptime⟩) }

theorem State.settle_atRest {s : State} {m : MoverId} (h : s.settleFault m = none) : s.disagreementTest m = s
    ∧ winningFault (s.mover m).stopCause (s.mover m).stopLater (s.mover m).pendingFault = none := by
  rcases s.disagreementTest_cases m with ⟨h1, h2, -⟩ | ⟨h1, e⟩
  · rw [State.settleFault, if_pos ⟨h1, h2⟩] at h
    unfold winningFault at h
    split at h
    · split at h <;> cases h
    · cases h
  · rw [State.settleFault, if_neg h1] at h
    exact ⟨e, h⟩

theorem State.settleOutcome_rest {s : State} {m : MoverId} {c : Cause}
    (h : winningFault (s.mover m).stopCause (s.mover m).stopLater (s.mover m).pendingFault = none) (hc : (s.mover m).stopCause = some c) :
    s.settleOutcome m = (s.toldRest m c).offerCompletion m (s.mover m).motion := by
  unfold State.settleOutcome
  dsimp only
  rw [h]
  dsimp only
  rw [hc]
  refine congrArg (fun v => State.offerCompletion v m (s.mover m).motion) ?_
  cases c <;> cases m <;> rfl

/-! ## A fault cause during SETTLING (R134) -/

section
variable {r : Mover} (c : Cause)

theorem Mover.noteFault_pending {p : FaultRecord} (h : r.pendingFault = some p) : r.noteFault c = { r with pendingFault := some p.again } := by
  unfold Mover.noteFault; rw [h]

theorem Mover.noteFault_counted {x : Cause} (h : r.pendingFault = none) (hx : r.stopCause = some x) (hf : x.isFault = true) :
    r.noteFault c = { r with stopLater := min (r.stopLater + 1) 255 } := by
  unfold Mover.noteFault; rw [h]
  exact if_pos (by rw [hx]; exact hf)

theorem Mover.noteFault_first (h : r.pendingFault = none) (hf : ∀ x, r.stopCause = some x → x.isFault = false) :
    r.noteFault c = { r with pendingFault := some ⟨c, 0⟩ } := by
  unfold Mover.noteFault; rw [h]
  refine if_neg ?_
  cases hs : r.stopCause with
  | none => simp
  | some x => simp [hf x hs]

end

/-! ## The timers of a mover (R132, R134) -/

/-- The mover's state when its settle has ended, the pump still to be handed over. -/
def State.settleLeft (s : State) (m : MoverId) : State :=
  (((s.disagreementTest m).settleOutcome m).releaseOwner (moverResource m)).onMover m Mover.rested

theorem State.settleEnd_eq (s : State) (m : MoverId) : s.settleEnd m = (s.settleLeft m).handOver m := rfl

/-- What the end of a settle leaves: the pump, and the mover in FAULT with the winning fault or at rest. -/
theorem State.settleLeft_mover (s : State) (m : MoverId) : (s.settleLeft m).hpu = s.hpu ∧ (s.settleLeft m).ownerOf (moverResource m) = {}
    ∧ (∀ f, s.settleFault m = some f → (s.settleLeft m).mover m =
      Mover.rested { s.mover m with state := .fault, fault := some f, settleTimer := none })
    ∧ (s.settleFault m = none → ((s.settleLeft m).mover m).state = .atRest ∧ ((s.settleLeft m).mover m).motion = none
      ∧ ((s.settleLeft m).mover m).stopCause = none ∧ ((s.settleLeft m).mover m).pendingFault = none) := by
  obtain ⟨u, g, hu, h1, -, -, -, -, -, h7, h8, -⟩ := (s.disagreementTest m).settleOutcome_frame m
  have hhpu : (s.disagreementTest m).hpu = s.hpu := by
    rcases s.disagreementTest_cases m with ⟨-, -, e⟩ | ⟨-, e⟩ <;> rw [e]
    cases m <;> rfl
  refine ⟨?_, ?_, fun f hf => ?_, fun h => ?_⟩
  · rw [State.settleLeft, hu, ← hhpu, ← h1]
    cases m <;> rfl
  · rw [State.settleLeft]; cases m <;> rfl
  · rw [State.settleLeft, State.settle_fault hf, State.mover_onMover, State.mover_onOwner, State.toldFault, State.mover_offer]
    cases m <;> rfl
  · obtain ⟨hd, hw⟩ := State.settle_atRest h
    have ho : ∀ (v : State) (k : Option Motion), (v.offerCompletion m k).mover m = v.mover m := by
      intro v k
      unfold State.offerCompletion
      split
      · split
        · rfl
        · rw [State.mover_offer]
      · rfl
    rw [State.settleLeft, State.mover_onMover, hd]
    refine ⟨?_, rfl, rfl, rfl⟩
    show (((s.settleOutcome m).onOwner (moverResource m) fun _ => {}).mover m).state = .atRest
    rw [State.mover_onOwner, State.settleOutcome]
    dsimp only
    rw [hw]
    dsimp only
    rw [ho]
    split <;> cases m <;> rfl

/-! ## A mover at a sweep (R131, R132) -/

theorem State.onMover_congr {s : State} {m : MoverId} {f g : Mover → Mover} (h : f (s.mover m) = g (s.mover m)) :
    s.onMover m f = s.onMover m g := by
  cases m
  · exact congrArg (fun r => { s with hatch := r }) h
  · exact congrArg (fun r => { s with platform := r }) h

theorem State.moverSweep_idle {s : State} {m : MoverId} (h : (s.mover m).state ≠ .moving) : s.moverSweep m = s := by
  unfold State.moverSweep
  dsimp only
  split
  · rfl
  · exact if_pos h

theorem State.moverSweep_moving {s : State} {m : MoverId} {k : Motion} (hk : (s.mover m).motion = some k)
    (hm : (s.mover m).state = .moving) : s.moverSweep m = if s.arrivesAtDeck m k = true then s.enterSettling m k.arrival
      else if (s.stallStep m).2 = true then (s.onMover m fun r => { r with stall := (s.stallStep m).1 }).enterSettling m .stall
      else if (s.mover m).switchMissing k.goal (s.angle m) = true then
        (s.onMover m fun r => { r with stall := (s.stallStep m).1 }).enterSettling m .switchMissing
      else s.onMover m fun r => { r with stall := (s.stallStep m).1 } := by
  unfold State.moverSweep
  dsimp only
  rw [hk]
  exact if_neg (not_not.mpr hm)

theorem State.arrivesAtDeck_iff {s : State} {m : MoverId} {k : Motion} : s.arrivesAtDeck m k = true ↔ k.goal = .atDeck
    ∧ s.angleFaulted m = false ∧ (s.mover m).inDeckBand (s.angle m) = true ∧ ∃ a, k.startAngle = some a ∧ (s.mover m).inDeckBand a = false := by
  have ha : k.startAngle.any (fun a => !(s.mover m).inDeckBand a) = true ↔ ∃ a, k.startAngle = some a ∧ (s.mover m).inDeckBand a = false := by
    cases k.startAngle <;> simp
  rw [← ha]
  exact decide_eq_true_iff

theorem Mover.switchMissing_iff {r : Mover} {goal : Position} {angle : Int} : r.switchMissing goal angle = true
    ↔ ((goal = .closed ∨ goal = .submerged) ∧ r.lowSw = false
        ∧ (if r.settings.low ≤ r.settings.high then angle < r.settings.low - 30 else r.settings.low + 30 < angle))
      ∨ ((goal = .opened ∨ goal = .stowed) ∧ r.highSw = false
        ∧ (if r.settings.high ≤ r.settings.low then angle < r.settings.high - 30 else r.settings.high + 30 < angle)) := by
  rw [← beyondEnd_iff, ← beyondEnd_iff]
  cases goal <;> simp [Mover.switchMissing, and_comm]

/-- The valve closes all the same, whatever the stall watch. -/
theorem State.enterSettling_stall (s : State) (m : MoverId) (w : Option StallWatch) (c : Cause) :
    (s.onMover m fun r => { r with stall := w }).enterSettling m c = s.enterSettling m c := by cases m <;> rfl

/-! ## The pump at a sweep (R121, R123) -/

/-- The pump at a sweep, by the step of its overpressure watch. -/
theorem State.hpuSweep_on {s : State} {w : Option Uptime} {b : Bool} (h : s.hpu.state ≠ .off)
    (hw : watchStep s.uptime (decide ((s.hpu.settings.overpressure : Int) < s.pressure)) s.hpu.settings.overTime s.hpu.overWatch = (w, b)) :
    s.hpuSweep = if b = true then
        if s.hpu.state = .fault then s.onHpu fun h => { h with overWatch := w, fault := h.fault.map FaultRecord.again }
        else (s.onHpu fun h => { h with overWatch := w }).hpuFault .overpressure
      else if s.hpu.state = .starting ∧ (s.hpu.settings.readyPressure : Int) ≤ s.pressure then
        (s.onHpu fun h => { h with overWatch := w }).hpuReady
      else s.onHpu fun h => { h with overWatch := w } := by
  rw [State.hpuSweep, if_neg h, State.overStep, hw]
  rfl

section
variable {s : State} {m : MoverId}

theorem State.hpuReady_held (hh : s.hpu.holder = some m) : s.hpuReady = if s.motionInterlock m = true then s.givePump m
    else State.serveWaiter ((s.onHpu fun h => { h with holder := none }).returnToRest m .interlock) := by
  unfold State.hpuReady; rw [hh]

theorem State.serveWaiter_waiting (hw : s.hpu.waiting = some m) : s.serveWaiter = if s.motionInterlock m = true then
      (s.onHpu fun h => { h with waiting := none, holder := none }).givePump m
    else ((s.onHpu fun h => { h with waiting := none, holder := none }).returnToRest m .interlock).hpuIdle := by
  unfold State.serveWaiter
  rw [hw]
  dsimp only
  rw [State.motionInterlock_onHpu]

theorem State.hpuReady_free (hh : s.hpu.holder = none) : s.hpuReady = s.serveWaiter := by
  unfold State.hpuReady; rw [hh]

theorem State.serveWaiter_none (hw : s.hpu.waiting = none) : s.serveWaiter = s.hpuIdle := by
  unfold State.serveWaiter; rw [hw]

end

/-- The ready pressure gives the pump to the mover in turn when its interlock passes (R121). -/
theorem State.hpuReady_passes (s : State) {m : MoverId} (h : s.hpu.holder = some m ∨ s.hpu.holder = none ∧ s.hpu.waiting = some m)
    (hi : s.motionInterlock m = true) : s.hpuReady = State.enterMoving
      (s.onHpu fun h => { h with
        state := .ready, holder := some m, readyTimer := none, runOnTimer := none
        waiting := if h.holder = none then none else h.waiting }) m := by
  rcases h with hh | ⟨hh, hw⟩
  · rw [State.hpuReady_held hh, if_pos hi]
    refine congrArg (fun x => State.enterMoving (s.onHpu fun h => { h with
      state := .ready, holder := some m, readyTimer := none, runOnTimer := none, waiting := x }) m) ?_
    rw [hh]; rfl
  · rw [State.hpuReady_free hh, State.serveWaiter_waiting hw, if_pos hi]
    refine congrArg (fun x => State.enterMoving (s.onHpu fun h => { h with
      state := .ready, holder := some m, readyTimer := none, runOnTimer := none, waiting := x }) m) ?_
    rw [hh]; rfl

/-- The ready pressure sends the mover in turn to rest when its interlock fails (R121). -/
theorem State.hpuReady_refused (s : State) {m : MoverId}
    (h : s.hpu.holder = some m ∧ s.hpu.waiting ≠ some m ∨ s.hpu.holder = none ∧ s.hpu.waiting = some m) (hi : s.motionInterlock m = false) :
    (s.hpuReady.mover m).state = .atRest ∧ (s.hpuReady.mover m).motion = none ∧ s.hpuReady.ownerOf (moverResource m) = {} := by
  have hn : ¬ s.motionInterlock m = true := by rw [hi]; decide
  rcases h with ⟨hh, hw⟩ | ⟨hh, hw⟩
  · rw [State.hpuReady_held hh, if_neg hn]
    have hk := State.serveWaiter_keeps ((s.onHpu fun h => { h with holder := none }).returnToRest m .interlock) (m := m)
      (by rw [State.returnToRest_hpu]; exact hw)
    rw [hk.1, hk.2.1, State.returnToRest_mover, State.returnToRest_ownerOf]
    exact ⟨rfl, rfl, rfl⟩
  · rw [State.hpuReady_free hh, State.serveWaiter_waiting hw, if_neg hn]
    obtain ⟨h1, h2, -⟩ := State.hpuIdle_keeps ((s.onHpu fun h => { h with waiting := none, holder := none }).returnToRest m .interlock)
    rw [h1, h2, State.returnToRest_mover, State.returnToRest_ownerOf]
    exact ⟨rfl, rfl, rfl⟩

/-- A grant that is gone stays gone in what follows a deck operation. -/
theorem State.deckPass_hpuGrant {s : State} (b : State) (h : s.alloc.hpuGrant = none) : (s.deckPass b).alloc.hpuGrant = none := by
  obtain ⟨_, _, hw⟩ := s.watchInterlock_frame
  have hw : s.watchInterlock.alloc = s.alloc := by rw [hw]
  rcases s.deckPass_beside b with ⟨_, _, _, _, e⟩ | ⟨-, -, _, _, _, _, e⟩ <;> rw [e]
  · exact hw ▸ h
  · rfl

/-- The completion event is offered at an end that the motion did not start from (R134). -/
theorem State.offerCompletion_cases {s : State} {m : MoverId} {k : Motion} {p : Position} (hp : (s.mover m).position = p) :
    (p = k.from_ ∨ p = .between → s.offerCompletion m (some k) = s)
      ∧ ∀ ev, p ≠ k.from_ → (p, ev) ∈ [(Position.opened, DeckEvent.hatchOpened), (.closed, .hatchClosed), (.stowed, .platformStowed),
        (.atDeck, .platformAtDeck), (.submerged, .platformSubmerged)] → s.offerCompletion m (some k) = s.offer (.deck ev) := by
  subst hp
  unfold State.offerCompletion
  constructor
  · intro h
    cases he : (s.mover m).position.event with
    | none => rfl
    | some ev =>
      refine if_pos (h.resolve_right fun e => ?_)
      rw [e] at he; cases he
  · intro ev hne hev
    have he : (s.mover m).position.event = some ev := by
      simp only [List.mem_cons, List.not_mem_nil, or_false, Prod.mk.injEq] at hev
      obtain ⟨h, rfl⟩ | ⟨h, rfl⟩ | ⟨h, rfl⟩ | ⟨h, rfl⟩ | ⟨h, rfl⟩ := hev <;> rw [h] <;> rfl
    rw [he]
    exact if_neg hne

end Sys2Proof.Machine

namespace Sys2Proof.Proofs

open Sys2Proof.Machine

/-- Settles O44: each timer's expiry and each sweep is, by the state of its mover or of the pump, one of the operations above. -/
theorem moverAndPumpTimers : Obligations.MoverAndPumpTimers := by
  refine ⟨fun s m hlaw => ⟨fun e he => ?_, ?_, ?_, fun e he => ?_⟩, ?_, ?_, ?_⟩
  · have hstop := (s.atMoment e).enterSettling_stoppedAt m .travelTimeout
    refine ⟨((s.atMoment e).enterSettling m .travelTimeout).deckPass s, congrArg Host.Outcome.next (State.expire_some _ he), ?_⟩
    have hup : (((s.atMoment e).enterSettling m .travelTimeout).deckPass s).uptime = (s.atMoment e).uptime := by
      rw [State.deckPass_uptime]; cases m <;> rfl
    rw [State.mover_deckPass _ _ (by rw [hstop.1]; decide), hup]
    obtain ⟨h1, h2, h3, h4, h5, -⟩ := hstop
    exact ⟨h1, h2, h3, h4, h5, rfl⟩
  · exact fun h => congrArg Host.Outcome.next (State.expire_none _ h)
  · exact fun h => congrArg Host.Outcome.next (State.expire_none _ h)
  · have hset : (s.mover m).state = .settling := (hlaw.timers m).2 (by rw [he]; rfl)
    have hwait : s.hpu.waiting ≠ some m := fun h => by
      have := (hlaw.waiter m h).1
      rw [hset] at this; cases this
    have hmov : (s.atMoment e).mover m = s.mover m := by rw [s.atMoment_eq e]; cases m <;> rfl
    have hhpu : (s.atMoment e).hpu = s.hpu := by rw [s.atMoment_eq e]
    have hangle : (s.atMoment e).angle m = s.angle m := by rw [s.atMoment_eq e]; cases m <;> rfl
    have hfaulted : (s.atMoment e).angleFaulted m = s.angleFaulted m := by rw [s.atMoment_eq e]; cases m <;> rfl
    obtain ⟨l1, l2, l3, l4⟩ := (s.atMoment e).settleLeft_mover m
    obtain ⟨u1, u2, u3⟩ := ((s.atMoment e).settleLeft m).handOver_keeps (m := m) (by rw [l1, hhpu]; exact hwait)
    rw [← State.settleEnd_eq] at u1 u2 u3
    have hF : (s.atMoment e).settleFault m = s.settleFault m := by
      unfold State.settleFault
      rw [hmov, hangle, hfaulted]
    rw [hF, hmov] at l3
    rw [hF] at l4
    have hstill : (((s.atMoment e).settleEnd m).mover m).state ≠ .moving := by
      rw [u1]
      cases h : s.settleFault m with
      | none => rw [(l4 h).1]; decide
      | some f => rw [l3 f h]; exact fun h => nomatch h
    have hkeep : (((s.atMoment e).settleEnd m).deckPass s).mover m = ((s.atMoment e).settleLeft m).mover m :=
      (State.mover_deckPass _ _ hstill).trans u1
    have hfault : ∀ f, s.settleFault m = some f → ((((s.atMoment e).settleEnd m).deckPass s).mover m).state = .fault
        ∧ ((((s.atMoment e).settleEnd m).deckPass s).mover m).fault = some f := fun f h => by
      rw [hkeep, l3 f h]; exact ⟨rfl, rfl⟩
    have hclear : ((((s.atMoment e).settleEnd m).deckPass s).mover m).motion = none
        ∧ ((((s.atMoment e).settleEnd m).deckPass s).mover m).stopCause = none
        ∧ ((((s.atMoment e).settleEnd m).deckPass s).mover m).pendingFault = none := by
      rw [hkeep]
      cases h : s.settleFault m with
      | none => exact (l4 h).2
      | some f => rw [l3 f h]; exact ⟨rfl, rfl, rfl⟩
    obtain ⟨c1, c2, c3⟩ := hclear
    have howner : (((s.atMoment e).settleEnd m).deckPass s).ownerOf (moverResource m) = {} := by
      rcases State.ownerOf_deckPass ((s.atMoment e).settleEnd m) s (moverResource m) with h | h
      · rw [h, u2, l2]
      · exact h
    refine ⟨((s.atMoment e).settleEnd m).deckPass s, congrArg Host.Outcome.next (State.expire_some _ he), howner, c1, c2, c3, ?_,
      fun c hc hf => hfault _ ?_, fun c p hc hf hp => hfault _ ?_, fun c hc hf hp => ⟨fun h1 h2 => hfault _ ?_, fun h => ?_⟩, ?_⟩
    · rw [State.deckPass_hpu]; exact u3
    · rw [State.settleFault, hc]; exact winningFault_cause hf _ _
    · rw [State.settleFault, hc, winningFault_pending hf, hp]
      split <;> rfl
    · rw [State.settleFault, hc, winningFault_pending hf, hp, if_pos ⟨h1, h2⟩]; rfl
    · have hn : s.settleFault m = none := by
        rw [State.settleFault, hc, winningFault_pending hf, hp, if_neg]
        rintro ⟨h1, h2⟩
        rcases h with h | h
        · rw [h1] at h; cases h
        · rw [h2] at h; cases h
      rw [hkeep]; exact (l4 hn).1
    · obtain ⟨told, hf, hn, hleft⟩ : ∃ told : State, (∀ f, s.settleFault m = some f → told = (s.atMoment e).toldFault m f)
          ∧ (s.settleFault m = none → told = (s.atMoment e).settleOutcome m)
          ∧ (s.atMoment e).settleLeft m = (told.onOwner (moverResource m) fun _ => {}).onMover m Mover.rested := by
        cases h : s.settleFault m with
        | some f => exact ⟨_, fun g hg => by rw [Option.some.inj hg], nofun, State.settle_fault (hF.trans h)⟩
        | none =>
          refine ⟨_, nofun, fun _ => rfl, ?_⟩
          rw [State.settleLeft, (State.settle_atRest (hF.trans h)).1]
          rfl
      refine ⟨told, _, (s.atMoment e).settleEnd m, rfl, hleft, fun h => ?_, fun h => ?_, fun v src res hv hh hp => ?_⟩
      · rw [State.settleEnd_eq, State.handOver, if_neg (by rw [l1, hhpu]; exact h)]
      · exact State.handOver_handedOver _ m (by rw [l1, hhpu]; exact h)
      · subst hv
        obtain ⟨rfl, rfl⟩ : src = (moverDeck m).code ∧ res = moverDeck m := by
          cases m
          · exact hh rfl
          · exact hp rfl
        refine ⟨fun f hs hfs => ?_, fun c k posted hs hc hk hposted => ?_⟩
        · have h : s.settleFault m = some f := by
            cases h : s.settleFault m with
            | none => rw [hkeep, (l4 h).1] at hs; cases hs
            | some g => rw [(hfault g h).2] at hfs; exact hfs
          rw [hf f h, State.toldFault, hangle]
        · have h : s.settleFault m = none := by
            cases h : s.settleFault m with
            | none => rfl
            | some g => rw [(hfault g h).1] at hs; cases hs
          have hpost : posted = (s.atMoment e).toldRest m c := by
            rw [hposted, State.toldRest, hmov, hangle]
          have hpos : (posted.mover m).position = (s.mover m).position := by
            rw [hpost, ← hmov, State.toldRest]; cases m <;> rfl
          rw [hn h, State.settleOutcome_rest (State.settle_atRest (hF.trans h)).2 (by rw [hmov]; exact hc), ← hpost, hmov, hk]
          exact State.offerCompletion_cases hpos
  · intro s
    refine ⟨fun h => congrArg Host.Outcome.next (State.expire_none _ h), fun h => congrArg Host.Outcome.next (State.expire_none _ h),
      fun e he => ?_, fun e he => ?_⟩
    · have hmov : ∀ n, (s.atMoment e).mover n = s.mover n := fun n => by rw [s.atMoment_eq e]; cases n <;> rfl
      have hhpu : (s.atMoment e).hpu = s.hpu := by rw [s.atMoment_eq e]
      obtain ⟨h1, h2, h3, h4, h5, h6, -, h8, -, -, -, h12⟩ := (s.atMoment e).hpuFault_faulted .noPressure
      refine ⟨((s.atMoment e).hpuFault .noPressure).deckPass s, congrArg Host.Outcome.next (State.expire_some _ he), ?_⟩
      rw [State.deckPass_hpu]
      refine ⟨h1, h2, h3, h4, h5, h6, State.deckPass_hpuGrant s h8, fun m hm => ?_⟩
      obtain ⟨g1, g2, g3⟩ := h12 m (by rw [hhpu, hmov]; exact hm)
      rw [State.mover_deckPass _ _ (by rw [g1]; decide)]
      exact ⟨g1, g2, (State.ownerOf_deckPass _ s _).elim (fun e => e.trans g3) id⟩
    · refine ⟨(s.atMoment e).hpuOff.deckPass s, congrArg Host.Outcome.next (State.expire_some _ he), ?_⟩
      have hoff : (s.atMoment e).hpuOff.hpu = { s.hpu with
          state := .off, contactor := false, holder := none, waiting := none, readyTimer := none, runOnTimer := none, overWatch := none } := by
        rw [State.hpuOff, State.releaseGrant_hpu, s.atMoment_eq e]; rfl
      rw [State.deckPass_hpu, hoff]
      exact ⟨rfl, rfl, rfl, rfl, rfl, State.deckPass_hpuGrant s (State.releaseGrant_hpu_none _)⟩
  · rintro s m r settle rfl hsettle
    have hset : ∀ c, settle c = s.enterSettling m c := fun c => (hsettle c).trans rfl
    refine ⟨fun h => ?_, fun k arrives missing hk hm harr hmiss => ⟨fun h => ?_, fun h w stalls hnone hsome => ?_⟩, fun h => ?_, fun h => ?_,
      fun h => ?_, fun h => ⟨fun p hp => ?_, fun hp hc => ?_, fun hp hc => ?_⟩, fun f h hf => ?_⟩
    · rcases h with h | h
      · rw [State.moverSweep, h]
      · exact State.moverSweep_idle h
    · rw [State.moverSweep_moving hk hm, if_pos (State.arrivesAtDeck_iff.mpr (harr.mp h)), hset]
      cases hkk : k.kind <;> rw [Motion.arrival, hkk]
    · have hw : (s.stallStep m).1 = w ∧ ((s.stallStep m).2 = true ↔ stalls) := by
        unfold State.stallStep
        cases hst : (s.mover m).stall with
        | none =>
          obtain ⟨hn, rfl⟩ := hnone hst
          exact ⟨rfl, fun h => (nomatch h), fun h => absurd h hn⟩
        | some x =>
          obtain ⟨h1, h2⟩ := hsome x hst
          dsimp only
          by_cases hc : s.pressure < s.hpu.settings.stallPressure ∨ 5 ≤ (s.angle m - x.ref).natAbs
          · obtain ⟨hn, rfl⟩ := h1 hc
            rw [if_pos hc]
            exact ⟨rfl, fun h => (nomatch h), fun h => absurd h hn⟩
          · obtain ⟨rfl, hs⟩ := h2 (by omega) (by omega)
            rw [if_neg hc, hs]
            exact ⟨rfl, decide_eq_true_iff⟩
      obtain ⟨hw, hs⟩ := hw
      have hmiss : (s.mover m).switchMissing k.goal (s.angle m) = true ↔ missing := Mover.switchMissing_iff.trans hmiss.symm
      rw [State.moverSweep_moving hk hm, if_neg (mt (fun g => harr.mpr (State.arrivesAtDeck_iff.mp g)) h), hw,
        State.enterSettling_stall, State.enterSettling_stall, hset, hset]
      exact ⟨fun h => if_pos (hs.mpr h), fun h1 h2 => (if_neg (mt hs.mp h1)).trans (if_pos (hmiss.mpr h2)),
        fun h1 h2 => (if_neg (mt hs.mp h1)).trans (if_neg (mt hmiss.mp h2))⟩
    · rw [State.angleHasFaulted, h]
    · rw [State.angleHasFaulted, h, hset]
    · have hx : s.angleHasFaulted m = s.withdraw m .sensorFault := by rw [State.angleHasFaulted, h]
      obtain ⟨h1, h2, -⟩ := s.withdraw_frame m .sensorFault
      rw [hx, h1]
      refine ⟨rfl, rfl, h2, fun hmode => ?_⟩
      have hd : ∀ u : State, u.mode = s.mode → u.dropIdleStart = u := fun u hu => if_neg fun e => hmode (hu.symm.trans e.1)
      rw [State.withdraw, hd _ (by cases m <;> rfl)]
      cases m <;> rfl
    · rw [State.angleHasFaulted, h]
      exact State.onMover_congr (Mover.noteFault_pending _ hp)
    · rw [State.angleHasFaulted, h]
      obtain ⟨c, hc, hf⟩ := hc
      exact State.onMover_congr (Mover.noteFault_counted _ hp hc hf)
    · rw [State.angleHasFaulted, h]
      exact State.onMover_congr (Mover.noteFault_first _ hp hc)
    · rw [State.angleHasFaulted, h]
      have he : (s.mover m).fault.map FaultRecord.again = some { f with later := min (f.later + 1) 255 } := by rw [hf]; rfl
      exact State.onMover_congr (congrArg (fun x => { s.mover m with fault := x }) he)
  · intro s w trips hwatch
    obtain ⟨b, hstep, htrips⟩ := watchStep_of_watchAt hwatch
    have hidle : ∀ {f : FaultRecord}, s.hpu.fault = some f →
        s.hpu.fault.map FaultRecord.again = some { f with later := min (f.later + 1) 255 } := fun h => by rw [h]; rfl
    refine ⟨fun h => if_pos h, fun f h hf => ⟨fun ht => ?_, fun ht => ?_⟩, fun h1 h2 ht => ?_, fun h1 h2 => ?_, fun h => ?_, fun f h hf => ?_,
      fun h ht => ?_, fun h hp ht => ⟨fun m hm hi => ?_, fun m hm hi => ?_, fun hh hw hm hr => ?_, fun hh hw hm => ?_⟩⟩
    · rw [State.hpuSweep_on (by rw [h]; decide) hstep, if_pos (htrips.mpr ht), if_pos h]
      exact congrArg (fun x => { s with hpu := { s.hpu with overWatch := w, fault := x } }) (hidle hf)
    · rw [State.hpuSweep_on (by rw [h]; decide) hstep, if_neg (mt htrips.mp ht), if_neg (by rw [h]; exact fun e => nomatch e.1)]
    · rw [State.hpuSweep_on h1 hstep, if_pos (htrips.mpr ht), if_neg h2]
      exact State.hpuFault_faulted (s.onHpu fun h => { h with overWatch := w }) .overpressure
    · have hx : s.pressureFaulted = s.hpuFault .sensorFault := by
        unfold State.pressureFaulted
        cases h : s.hpu.state
        · exact absurd h h1
        · rfl
        · rfl
        · rfl
        · exact absurd h h2
      rw [hx]
      exact s.hpuFault_faulted .sensorFault
    · rw [State.pressureFaulted, h]
    · rw [State.pressureFaulted, h]
      exact congrArg (fun x => { s with hpu := { s.hpu with fault := x } }) (hidle hf)
    · rw [State.hpuSweep_on (by rcases h with h | h | ⟨h, -⟩ <;> rw [h] <;> decide) hstep, if_neg (mt htrips.mp ht), if_neg]
      rintro ⟨e1, e2⟩
      rcases h with h | h | ⟨-, h⟩
      · rw [h] at e1; cases e1
      · rw [h] at e1; cases e1
      · omega
    · rw [State.hpuSweep_on (by rw [h]; decide) hstep, if_neg (mt htrips.mp ht), if_pos ⟨h, hp⟩]
      exact (s.onHpu _).hpuReady_passes hm ((s.motionInterlock_onHpu _ m).trans hi)
    · rw [State.hpuSweep_on (by rw [h]; decide) hstep, if_neg (mt htrips.mp ht), if_pos ⟨h, hp⟩]
      exact (s.onHpu _).hpuReady_refused hm ((s.motionInterlock_onHpu _ m).trans hi)
    · rw [State.hpuSweep_on (by rw [h]; decide) hstep, if_neg (mt htrips.mp ht), if_pos ⟨h, hp⟩]
      rw [State.hpuReady_free (by exact hh), State.serveWaiter_none (by exact hw), State.hpuIdle, if_neg (by exact fun e => e.elim hm hr)]
      exact congrArg (fun x => { s with hpu := { s.hpu with
        overWatch := w, state := .runOn, readyTimer := none, holder := x
        runOnTimer := some (s.uptime + BitVec.ofNat 32 s.hpu.settings.runOn) } }) hh.symm
    · rw [State.hpuSweep_on (by rw [h]; decide) hstep, if_neg (mt htrips.mp ht), if_pos ⟨h, hp⟩]
      rw [State.hpuReady_free (by exact hh), State.serveWaiter_none (by exact hw), State.hpuIdle, if_pos (by exact hm)]
      exact ⟨by simp [State.hpuOff], by simp [State.hpuOff], State.releaseGrant_hpu_none _⟩

end Sys2Proof.Proofs
end

section
/-!
PROOFS. Stops that the ownership unit delivers, and the entry to STOPPING (R133, R153, R163 to R167, R188): O21, O25.
-/

namespace Sys2Proof.Machine

/-! ## What an operation does to the link port, when it only posts notices -/

/-- Nothing of the link port has changed but for at most `k` notices that have joined. -/
structure Notified (k : Nat) (s t : State) : Prop where
  told : Told k s t
  frame : ∃ ns o, t.link = { s.link with notices := ns, overflow := o }

theorem Notified.of_link {s t : State} (h : t.link = s.link) (k : Nat) : Notified k s t :=
  ⟨.of_link (by rw [h]) k, s.link.notices, s.link.overflow, h⟩

theorem Notified.trans {s t u : State} {j k : Nat} (h : Notified j s t) (g : Notified k t u) : Notified (j + k) s u := by
  obtain ⟨_, _, e⟩ := h.frame
  obtain ⟨ns, o, e'⟩ := g.frame
  exact ⟨h.told.trans g.told, ns, o, by rw [e', e]⟩

theorem Notified.weaken {s t : State} {j k : Nat} (h : Notified j s t) (hjk : j ≤ k) : Notified k s t :=
  ⟨⟨h.told.1, h.told.2.trans (Nat.add_le_add_left hjk _)⟩, h.frame⟩

theorem Notified.of_posted {s t : State} {n : Notice} (h : t.link = s.link.post n) : Notified 1 s t := by
  obtain ⟨ns, o, e⟩ := s.link.post_frame n
  exact ⟨⟨h ▸ s.link.post_prefix n, h ▸ s.link.post_length n⟩, ns, o, h.trans e⟩

theorem Notified.of_hpuOff (s : State) : Notified 1 s s.hpuOff := by
  obtain ⟨_, _, _, _, ns, o, e⟩ := (Allocated.of_releaseGrant (s.onHpu fun h =>
    { h with state := .off, contactor := false, holder := none, waiting := none, readyTimer := none, runOnTimer := none
             overWatch := none }) .hpu).frame
  have h := Told.of_releaseGrant (s.onHpu fun h =>
    { h with state := .off, contactor := false, holder := none, waiting := none, readyTimer := none, runOnTimer := none
             overWatch := none }) .hpu
  exact ⟨h, ns, o, congrArg State.link e⟩

section
variable (s : State)

theorem Notified.of_dropIdleStart : Notified 1 s s.dropIdleStart := by
  unfold State.dropIdleStart
  split
  · exact .of_hpuOff s
  · exact .of_link rfl 1

/-- MOTION_STOPPED, as a stop of a waiting mover posts it (R133). -/
def State.restNotice (m : MoverId) (c : Cause) : Notice :=
  ⟨.motionStopped, (moverDeck m).code, leBytes 1 c.code ++ leBytes 1 (s.mover m).position.code ++ leSigned 2 (s.angle m), s.uptime⟩

theorem Notified.of_moverStop (m : MoverId) (c : Cause) : Notified 2 s (s.moverStop m c) := by
  rcases s.moverStop_cases m c with ⟨-, e⟩ | ⟨-, e⟩ | ⟨-, -, e⟩ <;> rw [e]
  · exact .of_link (s.onMover_link m _) 2
  · exact Notified.trans (j := 1) (k := 1) (t := (s.onHpu fun h => h.withdraw m).returnToRest m c)
      (.of_posted (n := s.restNotice m c) (by cases m <;> rfl))
      (.of_dropIdleStart _)
  · exact .of_link rfl 2

theorem Notified.of_stopResource (r : Resource) (c : Cause) : Notified 2 s (s.stopResource r c) := by
  cases r
  · exact .of_moverStop s .hatch c
  · exact .of_moverStop s .platform c
  · refine .of_link ?_ 2
    show (s.windlassStop c).link = s.link
    rcases s.windlassStop_cases c with ⟨-, e⟩ | ⟨-, e⟩ <;> rw [e]
    rfl

end

/-! ## What follows a deck operation, for the link port -/

theorem State.queueTx_link (s : State) (k : TxKind) (n : Nat) (a : Option (Nat × Serial)) (e : Bool) : (s.queueTx k n a e).1.link = s.link := by
  obtain ⟨q, h⟩ := s.queueTx_frame k n a e
  rw [h]; rfl

theorem State.askIdentify_link (s : State) (a : Nat) : (s.askIdentify a).link = s.link := by
  have h := s.queueTx_link .identify a none false
  unfold State.askIdentify
  split <;> rename_i e <;> rw [e] at h <;> exact h

theorem State.resume_link (s : State) (r : NodeRecord) : (s.resume r).link = s.link := by
  unfold State.resume
  dsimp only
  split
  · rfl
  · split
    · exact State.askIdentify_link _ _
    all_goals rfl

theorem Notified.of_enrolFail (s : State) (e : Enrolment) (w : EnrolFailure) : Notified 1 s (s.enrolFail e w) := by
  refine .of_posted (n := ⟨.enrolFailed, e.addr, leBytes 1 w.code ++ leBytes 1 e.reported, s.uptime⟩) ?_
  unfold State.enrolFail
  dsimp only
  split
  · rfl
  · exact State.resume_link _ _

theorem Notified.of_enrolAsk (s : State) : Notified 1 s s.enrolAsk := by
  unfold State.enrolAsk
  split
  · exact .of_link rfl 1
  · rename_i e _
    have h : (s.queueEnrolment e).1.link = s.link := by
      unfold State.queueEnrolment
      split
      · exact s.queueTx_link _ _ _ _
      · exact s.queueTx_link _ _ _ _
      · exact s.queueTx_link _ _ _ _
      · rfl
    split <;> rename_i g <;> rw [g] at h
    · exact .of_link (t := State.onEnrolment _ _) h 1
    · exact (Notified.of_link h 0).trans (.of_enrolFail _ e _)
    · exact .of_link (t := State.onEnrolment _ _) h 1

theorem Notified.of_busToConfig (s : State) : Notified 1 s s.busToConfig := by
  have h : (State.queueRelease (s.onBus fun b =>
      { b with queue := (b.queue.filter (·.inFlight)).map fun e => { e with followUp := false } })).link = s.link :=
    State.queueRelease_link _
  unfold State.busToConfig
  dsimp only
  split
  · exact (Notified.of_link h 0).trans (.of_enrolAsk _)
  · exact .of_link h 1

theorem State.lampPass_link (s b : State) : (s.lampPass b).link = s.link := by
  obtain ⟨_, e, -⟩ := s.lampPass_frame b
  rw [e]; rfl

/-- What follows a deck operation posts at most the change to CONFIG and a failed enrolment. -/
theorem Notified.of_deckPass (s b : State) : Notified 2 s (s.deckPass b) := by
  have hw : s.watchInterlock.link = s.link := by
    obtain ⟨_, _, h⟩ := s.watchInterlock_frame
    rw [h]
  by_cases hd : s.watchInterlock.mode = .stopping ∧ s.watchInterlock.drained = true
  · rw [State.deckPass_drained b hd.1 hd.2, State.enterConfig_eq]
    have h1 : Notified 1 s s.watchInterlock.configured := (Notified.of_link hw 0).trans (.of_posted rfl)
    exact (h1.trans (.of_busToConfig _)).trans (.of_link (State.lampPass_link _ b) 0)
  · rw [State.deckPass_undrained b (by by_cases h : s.watchInterlock.mode = .stopping <;> simp_all)]
    exact .of_link ((State.lampPass_link _ b).trans hw) 2

/-! ## Stops the unit delivers (R163 to R167) -/

section
variable (s : State)

theorem State.dropIdleStart_sense : s.dropIdleStart.sense = s.sense := by
  unfold State.dropIdleStart State.hpuOff
  split
  · obtain ⟨_, _, _, _, _, _, e⟩ := (Allocated.of_releaseGrant (s.onHpu fun h =>
      { h with state := .off, contactor := false, holder := none, waiting := none, readyTimer := none, runOnTimer := none
               overWatch := none }) .hpu).frame
    rw [e]; rfl
  · rfl

theorem State.moverStop_sense (m : MoverId) (c : Cause) : (s.moverStop m c).sense = s.sense := by
  rcases s.moverStop_cases m c with ⟨-, e⟩ | ⟨-, e⟩ | ⟨-, -, e⟩ <;> rw [e]
  · cases m <;> rfl
  · exact (State.dropIdleStart_sense _).trans (by cases m <;> rfl)

theorem State.stopResource_sense (r : Resource) (c : Cause) : (s.stopResource r c).sense = s.sense := by
  cases r
  · exact s.moverStop_sense .hatch c
  · exact s.moverStop_sense .platform c
  · rcases s.windlassStop_cases c with ⟨-, e⟩ | ⟨-, e⟩ <;> exact (congrArg State.sense e :)

theorem State.moverStop_restNotice {m : MoverId} (c : Cause) (hw : (s.mover m).state = .waitPump) (hl : s.link.notices.length < 32) :
    s.restNotice m c ∈ (s.moverStop m c).link.notices := by
  rcases s.moverStop_cases m c with ⟨h, -⟩ | ⟨-, e⟩ | ⟨-, h, -⟩
  · rw [h] at hw; cases hw
  · rw [e]
    refine (Notified.of_dropIdleStart _).told.mem ?_
    have hp : ((s.onHpu fun h => h.withdraw m).returnToRest m c).link = s.link.post (s.restNotice m c) := by cases m <;> rfl
    rw [hp]
    exact Link.mem_post _ hl
  · exact absurd hw h

end

/-- An ownership record whose stop has been delivered. -/
def OwnerRecord.told (o : OwnerRecord) : OwnerRecord := { o with stopDelivered := true }

/-- A stop is still to be delivered for a resource to an owner of a kind. -/
def State.Owed (s : State) (mine : Owner → Bool) (r : Resource) : Prop :=
  (s.ownerOf r).owner ≠ .none ∧ mine (s.ownerOf r).owner = true ∧ (s.ownerOf r).stopDelivered = false

/-- What the stops that are owed for some resources have made of a state. -/
structure State.StopsMade (s t : State) (rs : List Resource) (mine : Owner → Bool) (c : Cause) : Prop where
  halted : ∀ r ∈ rs, s.Owed mine r → (s.onOwner r OwnerRecord.told).Halted t r c
  untouched : ∀ r, r ∉ rs ∨ ¬ s.Owed mine r → s.Untouched t r
  uptime : t.uptime = s.uptime
  sense : t.sense = s.sense
  notified : Notified (2 * rs.length) s t
  notice : ∀ m, moverResource m ∈ rs → s.Owed mine (moverResource m) → (s.mover m).state = .waitPump →
    s.link.notices.length + 2 * rs.length ≤ 32 → s.restNotice m c ∈ t.link.notices

theorem State.Untouched.onOwner {s t : State} {r : Resource} (h : s.Untouched t r) (f : OwnerRecord → OwnerRecord) :
    (s.onOwner r f).Untouched (t.onOwner r f) r := by
  obtain ⟨ho, hm, hw⟩ := h
  refine ⟨by rw [State.ownerOf_onOwner, State.ownerOf_onOwner, ho], fun m hr => ?_, fun hr => ?_⟩
  · rw [State.mover_onOwner, State.mover_onOwner]; exact hm m hr
  · subst hr; exact hw rfl

theorem State.angle_of_sense {s t : State} (h : t.sense = s.sense) (m : MoverId) : t.angle m = s.angle m := by
  unfold State.angle State.input; rw [h]

theorem State.restNotice_congr {s t : State} {m : MoverId} (h : t.mover m = s.mover m) (hs : t.sense = s.sense) (hu : t.uptime = s.uptime)
    (c : Cause) : t.restNotice m c = s.restNotice m c := by
  unfold State.restNotice; rw [h, State.angle_of_sense hs, hu]

/-- One stop, where it is owed. -/
def State.stopStep (s : State) (mine : Owner → Bool) (c : Cause) (r : Resource) : State :=
  if (s.ownerOf r).owner ≠ .none ∧ mine (s.ownerOf r).owner ∧ (s.ownerOf r).stopDelivered = false then s.deliverStop r c else s

theorem State.stopStep_untouched (s : State) (mine : Owner → Bool) (c : Cause) {r q : Resource} (h : q ≠ r ∨ ¬ s.Owed mine r) :
    s.Untouched (s.stopStep mine c r) q := by
  by_cases hr : s.Owed mine r
  · have e : s.stopStep mine c r = s.deliverStop r c := if_pos hr
    rw [e]
    have h := h.resolve_right (not_not.mpr hr)
    refine State.Untouched.trans (t := s.onOwner r OwnerRecord.told) ⟨State.ownerOf_onOwner_ne s h _, fun m _ => s.mover_onOwner r _ m, fun _ => ?_⟩
      (State.stopResource_untouched _ c h)
    cases r <;> rfl
  · have e : s.stopStep mine c r = s := if_neg hr
    rw [e]
    exact .refl

theorem State.stopStep_rest (s : State) (mine : Owner → Bool) (c : Cause) (r : Resource) : (s.stopStep mine c r).uptime = s.uptime
    ∧ (s.stopStep mine c r).sense = s.sense ∧ Notified 2 s (s.stopStep mine c r) := by
  unfold State.stopStep
  split
  · refine ⟨(State.stopResource_uptime _ r c).trans (by cases r <;> rfl), (State.stopResource_sense _ r c).trans (by cases r <;> rfl), ?_⟩
    exact Notified.trans (j := 0) (.of_link (s.onOwner_link r _) 0) (.of_stopResource _ r c)
  · exact ⟨rfl, rfl, .of_link rfl 2⟩

theorem State.stopSteps (s : State) (mine : Owner → Bool) (c : Cause) {rs : List Resource} (hn : rs.Nodup) :
    s.StopsMade (rs.foldl (fun s r => s.stopStep mine c r) s) rs mine c := by
  induction rs generalizing s with
  | nil =>
    exact ⟨fun _ h => (nomatch h), fun _ _ => .refl, rfl, rfl, .of_link rfl _, fun _ h => (nomatch h)⟩
  | cons q qs ih =>
    obtain ⟨hq, hn⟩ := List.nodup_cons.mp hn
    obtain ⟨hup, hsense, hnote⟩ := s.stopStep_rest mine c q
    have h := ih (s.stopStep mine c q) hn
    have hlater : ∀ r ∈ qs, s.Untouched (s.stopStep mine c q) r ∧ ((s.stopStep mine c q).Owed mine r ↔ s.Owed mine r) := fun r hr => by
      have hu := s.stopStep_untouched mine c (r := q) (q := r) (.inl fun e => hq (e ▸ hr))
      exact ⟨hu, by unfold State.Owed; rw [hu.1]⟩
    refine ⟨fun r hr ho => ?_, fun r hr => ?_, h.uptime.trans hup, h.sense.trans hsense, ?_, fun m hm ho hw hl => ?_⟩
    · rcases List.mem_cons.mp hr with rfl | hr
      · have e : s.stopStep mine c r = s.deliverStop r c := if_pos ho
        refine State.Halted.then ?_ (h.untouched r (.inl hq))
        rw [e]
        exact State.stopResource_halted _ r c
      · obtain ⟨hu, hi⟩ := hlater r hr
        refine (h.halted r hr (hi.mpr ho)).after (hu.onOwner _) ?_
        cases r <;> exact hup
    · by_cases e : r = q
      · subst e
        have ho := hr.resolve_left (not_not.mpr List.mem_cons_self)
        exact (s.stopStep_untouched mine c (.inr ho)).trans (h.untouched r (.inl hq))
      · refine (s.stopStep_untouched mine c (.inl e)).trans (h.untouched r ?_)
        by_cases hm : r ∈ qs
        · exact .inr (mt (hlater r hm).2.mp (hr.resolve_left (not_not.mpr (List.mem_cons_of_mem _ hm))))
        · exact .inl hm
    · refine (hnote.trans h.notified).weaken ?_
      rw [List.length_cons]; omega
    · rw [List.length_cons] at hl
      rcases List.mem_cons.mp hm with rfl | hr
      · have e : s.stopStep mine c (moverResource m) = s.deliverStop (moverResource m) c := if_pos ho
        refine h.notified.told.mem ?_
        have hx := State.moverStop_restNotice (s.onOwner (moverResource m) OwnerRecord.told) (m := m) c (by rwa [State.mover_onOwner])
          (by rw [State.onOwner_link]; omega)
        rw [State.restNotice_congr (s := s) (s.mover_onOwner _ _ m) (by cases m <;> rfl) (by cases m <;> rfl)] at hx
        rw [e]
        cases m <;> exact hx
      · obtain ⟨hu, hi⟩ := hlater _ hr
        have := hnote.told.2
        rw [← State.restNotice_congr (hu.2.1 m rfl) hsense hup]
        exact h.notice m hr (hi.mpr ho) (by rw [hu.2.1 m rfl]; exact hw) (by omega)

/-- The stops delivered to the owners of a kind (R163 to R167). -/
theorem State.stopOwned_made (s : State) (mine : Owner → Bool) (c : Cause) : s.StopsMade (s.stopOwned mine c) resources mine c :=
  s.stopSteps mine c (by decide)

theorem mem_resources (r : Resource) : r ∈ resources := by cases r <;> decide

/-- A deck pass out of STOPPING keeps every ownership record. -/
theorem State.ownerOf_deckPass_mode {s : State} (b : State) (h : s.mode ≠ .stopping) (r : Resource) : (s.deckPass b).ownerOf r = s.ownerOf r := by
  obtain ⟨_, _, hw⟩ := s.watchInterlock_frame
  rcases s.deckPass_beside b with ⟨_, _, _, _, e⟩ | ⟨hm, -, -⟩
  · rw [e, hw]; cases r <;> rfl
  · rw [hw] at hm; exact absurd hm h

theorem State.drained_of_settling {s : State} {m : MoverId} (h : (s.mover m).state = .settling) : s.drained = false := by
  rw [← Bool.not_eq_true, s.drained_iff]
  rintro ⟨-, h1, h2, -⟩
  cases m
  · rw [show s.hatch.state = .settling from h] at h1; rcases h1 with h1 | h1 <;> cases h1
  · rw [show s.platform.state = .settling from h] at h2; rcases h2 with h2 | h2 <;> cases h2

/-- The host is lost, before its motions stop (R179). -/
def State.lapsed (s : State) : State :=
  (s.onLink fun l => { l with supervision := none }).post .hostLost 0 (leBytes 2 s.link.period)

end Sys2Proof.Machine

namespace Sys2Proof.Proofs

open Sys2Proof.Machine

/-- Settles O21: the stops that the loss of the host makes, and what follows a deck operation. -/
theorem hostLossStopsHostMotions : Obligations.HostLossStopsHostMotions := by
  intro s e he
  have hmode : ((s.atMoment e).lapsed.stopOwned (fun o => o = .host) .hostLost).mode = s.mode :=
    (Kept.of_stopOwned _ _ _).mode.trans (by rw [s.atMoment_eq e]; rfl)
  have hmade := (s.atMoment e).lapsed.stopOwned_made (fun o => o = .host) .hostLost
  have hmov : ∀ m, (s.atMoment e).lapsed.mover m = s.mover m := fun m => by rw [s.atMoment_eq e]; cases m <;> rfl
  have hown : ∀ r, (s.atMoment e).lapsed.ownerOf r = s.ownerOf r := fun r => by rw [s.atMoment_eq e]; cases r <;> rfl
  have hwind : (s.atMoment e).lapsed.windlass = s.windlass := by rw [s.atMoment_eq e]; rfl
  have hsense : (s.atMoment e).lapsed.sense = s.sense := by rw [s.atMoment_eq e]; rfl
  have hlink : (s.atMoment e).lapsed.link = Link.post { s.link with supervision := none }
      ⟨.hostLost, 0, leBytes 2 s.link.period, (s.atMoment e).lapsed.uptime⟩ := by rw [s.atMoment_eq e]; rfl
  generalize hv : (s.atMoment e).lapsed = v at *
  have howed : ∀ r, (s.ownerOf r).owner = .host → (s.ownerOf r).stopDelivered = false → v.Owed (fun o => o = .host) r := fun r h1 h2 => by
    rw [State.Owed, hown r, h1, h2]; exact ⟨by decide, by decide, rfl⟩
  generalize hu : v.stopOwned (fun o => o = .host) .hostLost = u at *
  have hup : (u.deckPass s).uptime = v.uptime := (u.deckPass_uptime s).trans hmade.uptime
  have hsaid := hmade.notified.trans (.of_deckPass u s)
  refine ⟨u.deckPass s, ?_, ?_, fun h => ?_, fun m h1 h2 hm => ?_, fun m h1 h2 hm => ?_, fun h1 h2 hw => ?_, fun hr r hno => ?_⟩
  · rw [← hu, ← hv]
    exact congrArg Host.Outcome.next (State.expire_some _ he)
  · obtain ⟨_, _, h⟩ := hsaid.frame
    obtain ⟨_, _, g⟩ := Link.post_frame { s.link with supervision := none } ⟨.hostLost, 0, leBytes 2 s.link.period, v.uptime⟩
    rw [h, hlink, g]
  · rw [hup]
    have h := Link.post_room (l := { s.link with supervision := none }) ⟨.hostLost, 0, leBytes 2 s.link.period, v.uptime⟩ h
    have g := hsaid.told.1
    rw [hlink, h] at g
    exact g
  · obtain ⟨g, ho⟩ := ((hmade.halted _ (mem_resources _) (howed _ h1 h2)).1 m rfl).1 (by rwa [State.mover_onOwner, hmov])
    have hup' : (v.onOwner (moverResource m) OwnerRecord.told).uptime = v.uptime := by cases m <;> rfl
    rw [State.ownerOf_onOwner, hown] at ho
    rw [State.mover_deckPass _ _ (by rw [g.1]; decide), State.ownerOf_deckPass_busy s (State.drained_of_settling g.1), ho, hup, ← hup']
    obtain ⟨a1, a2, a3, a4, a5, -⟩ := g
    exact ⟨a1, a2, a3, a4, a5, rfl⟩
  · obtain ⟨g, ho⟩ := ((hmade.halted _ (mem_resources _) (howed _ h1 h2)).1 m rfl).2.1 (by rwa [State.mover_onOwner, hmov])
    rw [State.mover_onOwner, hmov] at g
    rw [State.mover_deckPass _ _ (by rw [g]; exact fun h => nomatch h), hup]
    refine ⟨g, (u.ownerOf_deckPass s _).elim (fun e => e.trans ho) id, fun hl => ?_⟩
    have hlen := Link.post_length { s.link with supervision := none } ⟨.hostLost, 0, leBytes 2 s.link.period, v.uptime⟩
    have hlen' : v.link.notices.length ≤ s.link.notices.length + 1 := hlink ▸ hlen
    have hn := hmade.notice m (mem_resources _) (howed _ h1 h2) (by rwa [hmov]) (by show _ + 2 * 3 ≤ 32; omega)
    have hx := (Notified.of_deckPass u s).told.mem hn
    rw [State.restNotice, hmov, State.angle_of_sense hsense] at hx
    cases m <;> exact hx
  · obtain ⟨ho, g, -⟩ := (hmade.halted .windlass (mem_resources _) (howed .windlass h1 h2)).2 rfl
    have g : u.windlass.StoppedAt v.uptime .hostLost := g (by show v.windlass.underWay = true; rwa [hwind])
    have ho : u.windlassOwner = { v.windlassOwner with stopDelivered := true } := ho
    have hvo : v.windlassOwner = s.windlassOwner := hown .windlass
    have hd : (u.deckPass s).windlassOwner = u.windlassOwner := State.ownerOf_deckPass_busy s (State.drained_of_stopping g.1) .windlass
    rw [State.deckPass_windlass, hd, ho, hvo, hup]
    obtain ⟨a1, a2, a3, a4, a5, a6, a7, -⟩ := g
    exact ⟨a1, a2, by simp [Windlass.contactorClosed, a3, a4], a5, a6, a7, rfl⟩
  · rw [State.ownerOf_deckPass_mode s (by rw [hmode, hr]; decide), ← hown]
    refine (hmade.untouched r (.inr fun h => hno ?_)).1
    have := h.2.1
    rw [hown] at this
    exact of_decide_eq_true this

end Sys2Proof.Proofs
end

section
/-!
PROOFS. Entry to STOPPING and its drain (R188, R189): O25.
-/

namespace Sys2Proof.Machine

/-! ## The bus and the lamps at entry to CONFIG (R23, R169) -/

/-- Where the bus takes no LAMPS, none are asked for. -/
theorem State.lampPass_of_refused {s : State} (b : State) (h : ∀ a, s.askTx .lamps a = s) : s.lampPass b = s := by
  have hask : ∀ a, s.requestLamps a = s := fun a => by
    unfold State.requestLamps
    split
    · rfl
    · split
      · exact h a
      · rfl
  have key : ∀ ts : List Station, ts.foldl (fun s t =>
      if (b.station t.addr).map b.lampsOf = (s.station t.addr).map s.lampsOf then s else s.requestLamps t.addr) s = s := by
    intro ts
    induction ts with
    | nil => rfl
    | cons t ts ih =>
      have : (if (b.station t.addr).map b.lampsOf = (s.station t.addr).map s.lampsOf then s else s.requestLamps t.addr) = s := by
        split
        · rfl
        · exact hask t.addr
      rw [List.foldl_cons, this]; exact ih
  exact key s.stations

/-- No lamps are asked for in CONFIG (R18). -/
theorem State.lampPass_config {s : State} (b : State) (h : s.mode = .config) : s.lampPass b = s :=
  State.lampPass_of_refused b fun a => by
    have hm : s.modeTakes .lamps false = false := by simp [State.modeTakes, h]
    unfold State.askTx State.queueTx
    split
    · rfl
    · rw [if_pos (by rw [hm]; decide)]

/-- No lamps are asked for in RECOVERY (R18). -/
theorem State.lampPass_recovery {s : State} (b : State) (h : s.bus.state = .recovery) : s.lampPass b = s :=
  State.lampPass_of_refused b fun a => by
    unfold State.askTx State.queueTx
    rw [if_pos h]

/-- An enrolment's own request is taken in CONFIG where the queue has room (R18). -/
theorem State.queueEnrolment_taken {s : State} (e : Enrolment) (hb : s.bus.state ≠ .recovery) (hl : s.bus.queue.length < 16) :
    ∃ q, s.queueEnrolment e = (s.onBus (fun b => { b with queue := q }), .taken) := by
  have one : ∀ (k : TxKind) n a, k = .identify ∨ k = .assign →
      ∃ q, s.queueTx k n a true = (s.onBus (fun b => { b with queue := q }), .taken) := by
    intro k n a hk
    unfold State.queueTx
    rw [if_neg hb, if_neg (by rcases hk with rfl | rfl <;> simp [State.modeTakes])]
    split
    · exact ⟨_, rfl⟩
    · rw [if_neg (by omega)]; exact ⟨_, rfl⟩
  unfold State.queueEnrolment
  split
  · exact one _ _ _ (.inl rfl)
  · exact one _ _ _ (.inr rfl)
  · exact one _ _ _ (.inl rfl)
  · exact ⟨s.bus.queue, rfl⟩

theorem State.enrolAsk_taken {s : State} (hb : s.bus.state ≠ .recovery) (hl : s.bus.queue.length < 16) :
    ∃ b e, s.enrolAsk = { s with bus := b, enrolment := e } := by
  unfold State.enrolAsk
  split
  · exact ⟨s.bus, s.enrolment, rfl⟩
  · rename_i e _
    obtain ⟨q, h⟩ := s.queueEnrolment_taken e hb hl
    rw [h]
    exact ⟨_, _, rfl⟩

theorem State.enrolAsk_none {s : State} (h : s.enrolment = none) : s.enrolAsk = s := by
  unfold State.enrolAsk; rw [h]

/-- The bus at entry to CONFIG: the RELEASE waits in the queue, or is pending in RECOVERY (R23). -/
def Bus.toConfig (b : Bus) (now : Uptime) : Bus :=
  if b.state = .recovery then { b with pendingRelease := true }
  else { b with queue := (b.queue.filter (·.inFlight)).map (fun e => { e with followUp := false })
      ++ [⟨.c, .release, 0, none, now, false, false, false, false⟩] }

/-- The entry of the bus to CONFIG changes the bus and a running enrolment alone. -/
theorem State.busToConfig_bounded {s : State} (hb : s.bus.Bounded) : ∃ b e, s.busToConfig = { s with bus := b, enrolment := e }
    ∧ (s.enrolment = none → b = s.bus.toConfig s.uptime ∧ e = none) := by
  obtain ⟨-, h2, -, h4⟩ := hb
  by_cases hr : s.bus.state = .recovery
  · have hq := h4 hr
    refine ⟨{ s.bus with pendingRelease := true }, s.enrolment, ?_, fun h => ⟨?_, h⟩⟩
    · unfold State.busToConfig
      dsimp only
      rw [if_neg (by rw [hq]; decide), State.queueRelease, if_pos (by exact hr)]
      have e : { s.bus with queue := (s.bus.queue.filter (·.inFlight)).map fun e => { e with followUp := false } } = s.bus := by
        cases hs : s.bus; rw [hs] at hq; cases hq; rfl
      exact congrArg (fun b : Bus => { s with bus := { b with pendingRelease := true } }) e
    · rw [Bus.toConfig, if_pos hr]
  · have hrel : State.queueRelease (s.onBus fun b =>
        { b with queue := (b.queue.filter (·.inFlight)).map fun e => { e with followUp := false } })
        = { s with bus := s.bus.toConfig s.uptime } := by
      rw [State.queueRelease, if_neg (by exact hr), Bus.toConfig, if_neg hr]; rfl
    unfold State.busToConfig
    dsimp only
    rw [hrel]
    split
    · have hst : (s.bus.toConfig s.uptime).state ≠ .recovery := by rw [Bus.toConfig, if_neg hr]; exact hr
      have hlen : (s.bus.toConfig s.uptime).queue.length < 16 := by
        rw [Bus.toConfig, if_neg hr]
        simp only [List.length_append, List.length_map, List.length_singleton]
        omega
      obtain ⟨b, e, h⟩ := State.enrolAsk_taken (s := { s with bus := s.bus.toConfig s.uptime }) hst hlen
      refine ⟨b, e, h, fun hn => ?_⟩
      rw [State.enrolAsk_none (by exact hn)] at h
      exact ⟨(congrArg State.bus h).symm, (congrArg State.enrolment h).symm.trans hn⟩
    · exact ⟨s.bus.toConfig s.uptime, s.enrolment, rfl, fun h => ⟨rfl, h⟩⟩

/-! ## The deck at entry to STOPPING (R137, R156) -/

/-- A deck at rest has nothing to stop. -/
theorem State.stopDeck_drained {s : State} (h : s.drained = true) : s.stopDeck = s := by
  obtain ⟨hh, h1, h2, hw⟩ := s.drained_iff.mp h
  have one : ∀ m, s.moverStop m .modeStop = s := fun m => by
    have : (s.mover m).state = .atRest ∨ (s.mover m).state = .fault := by cases m; exacts [h1, h2]
    rcases s.moverStop_cases m .modeStop with ⟨g, -⟩ | ⟨g, -⟩ | ⟨-, -, e⟩
    · rw [g] at this; rcases this with h | h <;> cases h
    · rw [g] at this; rcases this with h | h <;> cases h
    · exact e
  have hdrop : s.dropIdleStart = s := if_neg fun e => by rcases hh with h | h <;> rw [h] at e <;> cases e.2.1
  have hwind : s.windlassStop .modeStop = s := by
    rcases s.windlassStop_cases .modeStop with ⟨g, -⟩ | ⟨-, e⟩
    · rcases hw with h | h <;> simp [Windlass.underWay, h] at g
    · exact e
  unfold State.stopDeck
  dsimp only
  rw [one .hatch, one .platform, if_neg (by rcases hh with h | h <;> rw [h] <;> decide), hdrop, hwind]

/-- The pump's own part of the entry to STOPPING. -/
def State.stopPump (s : State) : State := if s.hpu.state = .runOn then s.hpuOff else s.dropIdleStart

theorem State.stopDeck_eq (s : State) :
    s.stopDeck = (((s.moverStop .hatch .modeStop).moverStop .platform .modeStop).stopPump).windlassStop .modeStop := rfl

section
variable (s : State)

theorem State.hpuOff_untouched (r : Resource) : s.Untouched s.hpuOff r ∧ s.hpuOff.uptime = s.uptime := by
  unfold State.hpuOff
  obtain ⟨_, _, _, _, _, _, e⟩ := (Allocated.of_releaseGrant (s.onHpu fun h =>
      { h with state := .off, contactor := false, holder := none, waiting := none, readyTimer := none, runOnTimer := none
               overWatch := none }) .hpu).frame
  rw [e]
  exact ⟨⟨by cases r <;> rfl, fun m _ => by cases m <;> rfl, fun _ => rfl⟩, rfl⟩

theorem State.stopPump_untouched (r : Resource) : s.Untouched s.stopPump r ∧ s.stopPump.uptime = s.uptime := by
  unfold State.stopPump State.dropIdleStart
  split
  · exact s.hpuOff_untouched r
  · split
    · exact s.hpuOff_untouched r
    · exact ⟨.refl, rfl⟩

theorem Notified.of_stopPump : Notified 1 s s.stopPump := by
  unfold State.stopPump
  split
  · exact .of_hpuOff s
  · exact .of_dropIdleStart s

/-- A pump in RUN_ON stays so when a mover is stopped (R133). -/
theorem State.moverStop_runOn (m : MoverId) (c : Cause) (h : s.hpu.state = .runOn) : (s.moverStop m c).hpu.state = .runOn := by
  rcases s.moverStop_cases m c with ⟨-, e⟩ | ⟨-, e⟩ | ⟨-, -, e⟩ <;> rw [e]
  · cases m <;> exact h
  · have hw : ((s.onHpu fun h => h.withdraw m).returnToRest m c).hpu.state = .runOn := by
      rw [State.returnToRest_hpu]
      show (s.hpu.withdraw m).state = .runOn
      unfold Hpu.withdraw
      split
      · exact h
      · split <;> exact h
    unfold State.withdraw State.dropIdleStart
    rw [if_neg (fun e => by rw [hw] at e; cases e.2.1)]
    exact hw
  · exact h

/-- The entry to STOPPING stops both movers and the windlass, each by its state. -/
theorem State.stopDeck_halted : (∀ r, s.Halted s.stopDeck r .modeStop) ∧ s.stopDeck.uptime = s.uptime ∧ Notified 5 s s.stopDeck := by
  have hp : ∀ r, _ := (s.moverStop .hatch .modeStop).moverStop .platform .modeStop |>.stopPump_untouched
  have u1 : (s.moverStop .hatch .modeStop).uptime = s.uptime := s.stopResource_uptime .hatch .modeStop
  have u2 := ((s.moverStop .hatch .modeStop).stopResource_uptime .platform .modeStop).trans u1
  have u3 := (hp .hatch).2.trans u2
  rw [State.stopDeck_eq]
  refine ⟨fun r => ?_, (State.stopResource_uptime _ .windlass .modeStop).trans u3, ?_⟩
  · cases r
    · exact (((s.stopResource_halted .hatch .modeStop).then (State.stopResource_untouched _ (r := .platform) _ (by decide))).then (hp _).1).then
        (State.stopResource_untouched _ (r := .windlass) _ (by decide))
    · exact (((State.stopResource_halted _ .platform .modeStop).after (s.stopResource_untouched (r := .hatch) _ (by decide)) u1).then
        (hp _).1).then (State.stopResource_untouched _ (r := .windlass) _ (by decide))
    · exact (State.stopResource_halted _ .windlass .modeStop).after (((s.stopResource_untouched (r := .hatch) _ (by decide)).trans
        (State.stopResource_untouched _ (r := .platform) _ (by decide))).trans (hp _).1) u3
  · refine (((Notified.of_moverStop s .hatch .modeStop).trans (.of_moverStop _ .platform .modeStop)).trans (.of_stopPump _)).trans (k := 0) ?_
    · refine .of_link ?_ 0
      rcases State.windlassStop_cases (((s.moverStop .hatch .modeStop).moverStop .platform .modeStop).stopPump) .modeStop
        with ⟨-, e⟩ | ⟨-, e⟩ <;> rw [e]
      rfl

/-- A pump in RUN_ON is OFF, its grant released (R137). -/
theorem State.stopDeck_runOn (h : s.hpu.state = .runOn) :
    s.stopDeck.hpu.state = .off ∧ s.stopDeck.hpu.contactor = false ∧ s.stopDeck.alloc.hpuGrant = none := by
  have hr := State.moverStop_runOn _ .platform .modeStop (s.moverStop_runOn .hatch .modeStop h)
  rw [State.stopDeck_eq, State.stopPump, if_pos hr]
  have hx : ∀ u : State, (u.windlassStop .modeStop).hpu = u.hpu ∧ (u.windlassStop .modeStop).alloc = u.alloc := fun u => by
    rcases u.windlassStop_cases .modeStop with ⟨-, e⟩ | ⟨-, e⟩ <;> rw [e] <;> exact ⟨rfl, rfl⟩
  rw [(hx _).1, (hx _).2, State.hpuOff, State.releaseGrant_hpu]
  exact ⟨rfl, rfl, State.releaseGrant_hpu_none _⟩

end

/-- A deck at work keeps the part in STOPPING. -/
theorem State.deckPass_stopping {s : State} (b : State) (hm : s.mode = .stopping) (h : s.drained = false) : (s.deckPass b).mode = .stopping := by
  obtain ⟨_, _, hw⟩ := s.watchInterlock_frame
  rcases s.deckPass_beside b with ⟨_, _, _, _, e⟩ | ⟨-, hd, -⟩
  · rw [e, hw]; exact hm
  · rw [s.drained_watchInterlock.mp hd] at h; cases h

theorem State.mover_replied (s : State) (k t : Byte) (st : Status) (d : ReplyData) (m : MoverId) : (s.replied k t st d).mover m = s.mover m := by
  cases m <;> rfl

theorem State.ownerOf_replied (s : State) (k t : Byte) (st : Status) (d : ReplyData) (r : Resource) :
    (s.replied k t st d).ownerOf r = s.ownerOf r := by cases r <;> rfl

theorem exec_stop {s : State} (tag : Byte) (hm : s.mode = .run) :
    exec (.stop tag) s = .next (State.replied ((s.changeMode .stopping .stop).stopDeck.deckPass s) 0x09 tag .ok) := by
  show answered _ _ (if s.mode ≠ .run then _ else _) = _
  rw [if_neg (not_not.mpr hm)]; rfl

/-- What the entry to STOPPING makes of the deck, by the state of each part (R133, R137, R153, R156). -/
structure State.StopPassed (v t : State) : Prop where
  told : v.link.notices <+: t.link.notices
  moving : ∀ m, (v.mover m).state = .moving →
    (t.mover m).state = .settling ∧ (t.mover m).stopCause = some .modeStop ∧ (t.mover m).raise = false ∧ (t.mover m).lower = false
      ∧ (t.mover m).settleTimer = some (v.uptime + 500) ∧ t.mode = .stopping
  waiting : ∀ m, (v.mover m).state = .waitPump →
    (t.mover m).state = .atRest ∧ (t.mover m).motion = none ∧ t.ownerOf (moverResource m) = {}
  settling : ∀ m, (v.mover m).state = .settling → t.mover m = v.mover m ∧ t.mode = .stopping
  windlass : v.windlass.underWay = true →
    t.windlass.state = .stopping ∧ t.windlass.stopCause = some .modeStop ∧ t.windlass.contactorClosed = false ∧ t.windlass.stage2 = false
      ∧ t.windlass.brakeRelease = false ∧ t.windlass.settleTimer = some (v.uptime + 300) ∧ t.mode = .stopping
  pump : v.hpu.state = .runOn → t.hpu.state = .off ∧ t.hpu.contactor = false ∧ t.alloc.hpuGrant = none

theorem State.stopDeck_passed (v b : State) (hm : v.mode = .stopping) : v.StopPassed (v.stopDeck.deckPass b) := by
  obtain ⟨hhalt, -, hnote⟩ := v.stopDeck_halted
  have hmode : v.stopDeck.mode = .stopping := (Kept.of_stopDeck v).mode.trans hm
  refine ⟨hnote.told.1.trans (Notified.of_deckPass _ b).told.1, fun m h => ?_, fun m h => ?_, fun m h => ?_, fun h => ?_, fun h => ?_⟩
  · obtain ⟨⟨a1, a2, a3, a4, a5, -⟩, -⟩ := ((hhalt (moverResource m)).1 m rfl).1 h
    rw [State.mover_deckPass _ _ (by rw [a1]; decide)]
    exact ⟨a1, a2, a3, a4, a5, State.deckPass_stopping b hmode (State.drained_of_settling a1)⟩
  · obtain ⟨g, ho⟩ := ((hhalt (moverResource m)).1 m rfl).2.1 h
    have h1 : (v.stopDeck.mover m).state = .atRest := congrArg Mover.state g
    rw [State.mover_deckPass _ _ (by rw [h1]; decide)]
    exact ⟨h1, congrArg Mover.motion g, (State.ownerOf_deckPass _ b _).elim (fun e => e.trans ho) id⟩
  · obtain ⟨g, -⟩ := ((hhalt (moverResource m)).1 m rfl).2.2 (by rw [h]; decide) (by rw [h]; decide)
    have hs : (v.stopDeck.mover m).state = .settling := by rw [g, h]
    rw [State.mover_deckPass _ _ (by rw [hs]; decide)]
    exact ⟨g, State.deckPass_stopping b hmode (State.drained_of_settling hs)⟩
  · obtain ⟨a1, a2, a3, a4, a5, a6, a7, -⟩ := ((hhalt .windlass).2 rfl).2.1 h
    rw [State.deckPass_windlass]
    exact ⟨a1, a2, by simp [Windlass.contactorClosed, a3, a4], a5, a6, a7, State.deckPass_stopping b hmode (State.drained_of_stopping a1)⟩
  · obtain ⟨g1, g2, g3⟩ := v.stopDeck_runOn h
    rw [State.deckPass_hpu]
    exact ⟨g1, g2, State.deckPass_hpuGrant b g3⟩

end Sys2Proof.Machine

namespace Sys2Proof.Proofs

open Sys2Proof.Machine

/-- Settles O25: a deck at rest drains in the operation itself; one at work is stopped, each part by its state. -/
theorem stopDrainsThenConfig : Obligations.StopDrainsThenConfig := by
  refine ⟨fun s tag hb hm h1 h2 h3 h4 => ?_, fun s tag hm => ?_⟩
  · have hd : (s.changeMode .stopping .stop).drained = true := (State.drained_iff _).mpr ⟨h1, h2, h3, h4⟩
    have hi : (s.changeMode .stopping .stop).watchInterlock = s.changeMode .stopping .stop := State.watchInterlock_idle fun m hmm => by
      have : (s.mover m).state = .atRest ∨ (s.mover m).state = .fault := by cases m; exacts [h2, h3]
      have hmm : (s.mover m).state = .moving := by cases m <;> exact hmm
      rw [hmm] at this; rcases this with h | h <;> cases h
    obtain ⟨b, e, hx, hne⟩ := State.busToConfig_bounded (s := (s.changeMode .stopping .stop).configured) hb
    have hpass : (s.changeMode .stopping .stop).stopDeck.deckPass s = (s.changeMode .stopping .stop).configured.busToConfig := by
      rw [State.stopDeck_drained hd, State.deckPass_drained s (by rw [hi]; rfl) (by rw [hi]; exact hd), hi, State.enterConfig_eq,
        State.lampPass_config s (by rw [hx]; rfl)]
    refine ⟨_, exec_stop tag hm, ?_, ?_, fun hn => ?_⟩
    · rw [hpass, hx]; rfl
    · rw [hpass, hx]
      show ((s.changeMode .stopping .stop).configured.link.answer _ _ _ _) = _
      refine congrArg (fun l : Link => l.answer 0x09 tag .ok .none) ?_
      show Link.post (Link.post s.link _) _ = _
      rw [hm]; rfl
    · obtain ⟨hbus, he⟩ := hne hn
      rw [hpass, hx]
      refine ⟨he, fun hr => ?_, fun hr => ?_⟩
      · show b = _
        rw [hbus, Bus.toConfig, if_neg (by exact hr)]; rfl
      · show b = _
        rw [hbus, Bus.toConfig, if_pos (by exact hr)]; rfl
  · have hmov : ∀ m, (s.changeMode .stopping .stop).mover m = s.mover m := fun m => by cases m <;> rfl
    have hp := (s.changeMode .stopping .stop).stopDeck_passed s rfl
    rw [exec_stop tag hm]
    generalize (s.changeMode .stopping .stop).stopDeck.deckPass s = t at hp ⊢
    refine ⟨_, rfl, fun hl => ?_, fun m h => ?_, fun m h => ?_, fun m h => ?_, fun h => hp.windlass h, fun h => hp.pump h⟩
    · have hlink : (s.changeMode .stopping .stop).link = s.link.post ⟨.modeChanged, 0, [2, 1, 3], s.uptime⟩ := by
        show Link.post s.link _ = _
        rw [hm]; rfl
      have h := hp.told
      rw [hlink, Link.post_room _ hl] at h
      rwa [State.replied_link, Link.answer_notices]
    · rw [State.mover_replied]; exact hp.moving m ((hmov m).symm ▸ h)
    · rw [State.mover_replied, State.ownerOf_replied]; exact hp.waiting m ((hmov m).symm ▸ h)
    · rw [State.mover_replied, ← hmov]; exact hp.settling m ((hmov m).symm ▸ h)

end Sys2Proof.Proofs
end

section
/-!
PROOFS. START's checks and the item that the first failing one names (R140, R186): O23.
-/

namespace Sys2Proof.Machine

/-! ## The first item that fails -/

section
variable {α : Type} {check : α → Option Nat} {index : α → Nat}

theorem none_orElse {β : Type} (o : Option β) : (none <|> o) = o := rfl

theorem firstBad_none {items : List α} : firstBad check index items = none ↔ ∀ x ∈ items, check x = none := by
  simp [firstBad]

theorem firstBad_first {before after_ : List α} {x : α} {k : Nat} (hb : ∀ y ∈ before, check y = none) (hx : check x = some k) :
    firstBad check index (before ++ x :: after_) = some (k, index x) := by
  have h : firstBad check index before = none := firstBad_none.mpr hb
  unfold firstBad at h ⊢
  rw [List.findSome?_append, h, List.findSome?_cons, hx]
  rfl

end

/-! ## Each check, as R186 says it -/

/-- A channel passes checks 1 to 3. -/
def State.ChannelFits (s : State) (c : Channel) : Prop :=
  ∃ r, s.node c.cfg.node = some r ∧ 1 ≤ c.cfg.index
    ∧ ((c.cfg.kind = .dim ∧ r.type = .dimmer4 ∧ c.cfg.index ≤ 4) ∨ (c.cfg.kind = .switch ∧ r.type = .switch8 ∧ c.cfg.index ≤ 8)
      ∨ (c.cfg.kind = .blind ∧ r.type = .blind2 ∧ c.cfg.index ≤ 2))

/-- A binding passes check 4. -/
def State.BindingBound (s : State) (b : Binding) : Prop :=
  (∀ n, b.action = .takeScene n → ∃ x, s.scene n = some x)
    ∧ (∀ n l f, b.action = .setChannel n l f → ∃ x, s.channel n = some x)
    ∧ (∀ n, b.action = .toggleChannel n → ∃ x, s.channel n = some x)
    ∧ (∀ a k e, b.trigger = .key a k e → ∃ r, s.node a = some r ∧ (r.type = .keypad ∨ (r.type = .station ∧ k ≠ 7 ∧ k ≠ 8)))

/-- A key map passes check 5. -/
def State.MapFits (s : State) (t : Station) : Prop := ∃ r, s.node t.addr = some r ∧ r.type = .station

/-- Check 4 of one binding. -/
def State.bindingCheck (s : State) (b : Binding) : Option Nat :=
  if s.bindingNamesRecords b.trigger b.action ∧ s.keyTriggerFits b.trigger then none else some 4

/-- Check 5 of one key map. -/
def State.mapCheck (s : State) (t : Station) : Option Nat := if (s.node t.addr).any (fun r => r.type = .station) then none else some 5

theorem State.startCheck_eq (s : State) : s.startCheck = (firstBad s.channelCheck (·.cfg.num) s.channels
    <|> firstBad s.bindingCheck (·.slot) s.bindings
    <|> firstBad s.mapCheck (·.addr) s.stations
    <|> (if s.alloc.base + s.alloc.margin ≤ s.alloc.limit then none else some (6, 0))
    <|> (if s.platform.settings.low < s.platform.settings.deck ∧ s.platform.settings.deck < s.platform.settings.high then none
         else some (7, 0))
    <|> (if s.hatch.settings.low < s.hatch.settings.high then none else some (8, 0))
    <|> ((windlassBadFigure s.windlass.settings).map fun i => (9, i))) := rfl

section
variable {s : State}

theorem State.channelCheck_of_node {c : Channel} {r : NodeRecord} (h : s.node c.cfg.node = some r) :
    s.channelCheck c = if c.cfg.index < 1 ∨ r.type.outputs < c.cfg.index then some 2
      else if c.cfg.kind.nodeType ≠ r.type then some 3 else none := by
  unfold State.channelCheck; rw [h]

theorem State.channelCheck_none_iff {c : Channel} : s.channelCheck c = none ↔ s.ChannelFits c := by
  cases h : s.node c.cfg.node with
  | none => simp [State.channelCheck, State.ChannelFits, h]
  | some r =>
    have hk : (c.cfg.kind.nodeType = r.type ∧ c.cfg.index ≤ r.type.outputs) ↔
        ((c.cfg.kind = .dim ∧ r.type = .dimmer4 ∧ c.cfg.index ≤ 4) ∨ (c.cfg.kind = .switch ∧ r.type = .switch8 ∧ c.cfg.index ≤ 8)
          ∨ (c.cfg.kind = .blind ∧ r.type = .blind2 ∧ c.cfg.index ≤ 2)) := by
      cases c.cfg.kind <;> cases r.type <;> simp [ChannelKind.nodeType, NodeType.outputs]
    have hf : s.ChannelFits c ↔ 1 ≤ c.cfg.index ∧ c.cfg.kind.nodeType = r.type ∧ c.cfg.index ≤ r.type.outputs := by
      rw [hk]
      exact ⟨fun ⟨_, hx, g⟩ => by rw [h] at hx; cases hx; exact g, fun g => ⟨r, h, g⟩⟩
    rw [hf, State.channelCheck_of_node h]
    by_cases h2 : c.cfg.index < 1 ∨ r.type.outputs < c.cfg.index
    · rw [if_pos h2]
      exact ⟨fun e => (nomatch e), fun ⟨a, _, b⟩ => by omega⟩
    · rw [if_neg h2]
      by_cases h3 : c.cfg.kind.nodeType = r.type
      · rw [if_neg (not_not.mpr h3)]
        exact ⟨fun _ => ⟨by omega, h3, by omega⟩, fun _ => rfl⟩
      · rw [if_pos h3]
        exact ⟨fun e => (nomatch e), fun g => absurd g.2.1 h3⟩

/-- The record a key trigger needs. -/
theorem State.keyFits_iff {a k : Nat} {e : Edge} : (s.node a).isSome = true ∧ s.keyTriggerFits (.key a k e) = true
    ↔ ∃ r, s.node a = some r ∧ (r.type = .keypad ∨ (r.type = .station ∧ k ≠ 7 ∧ k ≠ 8)) := by
  show (s.node a).isSome = true ∧ (s.node a).any _ = true ↔ _
  cases s.node a <;> simp

theorem State.bindingBound_iff {b : Binding} : s.bindingNamesRecords b.trigger b.action = true ∧ s.keyTriggerFits b.trigger = true
    ↔ s.BindingBound b := by
  obtain ⟨slot, tr, ac, n⟩ := b
  have hkey : s.bindingNamesRecords tr ac = true ∧ s.keyTriggerFits tr = true ↔
      ((∀ n, ac = .takeScene n → ∃ x, s.scene n = some x) ∧ (∀ n l f, ac = .setChannel n l f → ∃ x, s.channel n = some x)
        ∧ (∀ n, ac = .toggleChannel n → ∃ x, s.channel n = some x))
      ∧ ∀ a k e, tr = .key a k e → (s.node a).isSome = true ∧ s.keyTriggerFits (.key a k e) = true := by
    cases ac <;> cases tr <;> simp [State.bindingNamesRecords, State.keyTriggerFits, Option.isSome_iff_exists, and_assoc]
  rw [hkey]
  simp only [State.keyFits_iff, State.BindingBound, and_assoc]

theorem State.bindingCheck_none_iff {b : Binding} : s.bindingCheck b = none ↔ s.BindingBound b := by
  rw [← State.bindingBound_iff, State.bindingCheck]
  split <;> simp_all

theorem State.bindingCheck_fails {b : Binding} (h : ¬ s.BindingBound b) : s.bindingCheck b = some 4 :=
  if_neg (mt State.bindingBound_iff.mp h)

theorem State.mapFits_iff {t : Station} : (s.node t.addr).any (fun r => decide (r.type = .station)) = true ↔ s.MapFits t := by
  unfold State.MapFits
  cases s.node t.addr <;> simp

theorem State.mapCheck_none_iff {t : Station} : s.mapCheck t = none ↔ s.MapFits t := by
  rw [← State.mapFits_iff, State.mapCheck]
  split <;> simp_all

theorem State.mapCheck_fails {t : Station} (h : ¬ s.MapFits t) : s.mapCheck t = some 5 := if_neg (mt State.mapFits_iff.mp h)

end

/-! ## The windlass figures (R140) -/

theorem windlassBadFigure_none_iff {f : WindlassSettings} : windlassBadFigure f = none ↔
    (4 ≤ f.countsPerRev ∧ f.countsPerRev ≤ 1024) ∧ (100 ≤ f.mmPerRev ∧ f.mmPerRev ≤ 5000) ∧ f.slipTol ≤ 255
      ∧ (1000 ≤ f.maxRode ∧ f.maxRode ≤ 400000) ∧ f.slowZone ≤ 50000 ∧ f.stopBand ≤ 5000 ∧ f.g1 ≤ 200000 ∧ f.g2 ≤ 200000
      ∧ f.inrush ≤ 200000 ∧ f.inrushWindow ≤ 10000 ∧ (1 ≤ f.overCurrent ∧ f.overCurrent ≤ 2000)
      ∧ (100 ≤ f.overTime ∧ f.overTime ≤ 10000) ∧ (200 ≤ f.jamTime ∧ f.jamTime ≤ 10000) ∧ f.homeLimit ≤ 50000
      ∧ f.stage2Delay ≤ 60000 := by
  simp [windlassBadFigure, windlassRanges]

theorem windlassBadFigure_first {f : WindlassSettings} {n : Nat} (h : (windlassRanges f)[n]? = some false)
    (hb : ∀ i, i < n → (windlassRanges f)[i]? = some true) : windlassBadFigure f = some (n + 1) := by
  obtain ⟨hn, hx⟩ := List.getElem?_eq_some_iff.mp h
  have hf : (windlassRanges f).findIdx? (fun ok => !ok) = some n := by
    refine List.findIdx?_eq_some_iff_getElem.mpr ⟨hn, by rw [hx]; rfl, fun j hj => ?_⟩
    obtain ⟨_, hy⟩ := List.getElem?_eq_some_iff.mp (hb j hj)
    rw [hy]; decide
  unfold windlassBadFigure
  rw [hf]; rfl

end Sys2Proof.Machine

namespace Sys2Proof.Proofs

open Sys2Proof.Machine

/-- Settles O23: the checks are made in their order, each by its own reading. -/
theorem startChecks : Obligations.StartChecks := by
  refine ⟨fun s => ?_, fun s before after_ c hc hb => ?_, fun s fits bound mapped hfits hbound hmapped hall => ?_⟩
  · rw [State.startCheck_eq]
    simp only [Option.orElse_eq_none, firstBad_none, State.channelCheck_none_iff, State.bindingCheck_none_iff, State.mapCheck_none_iff,
      ite_eq_left_iff, reduceCtorEq, imp_false, not_not, Option.map_eq_none_iff, windlassBadFigure_none_iff, forall_eq]
    exact Iff.rfl
  · have hb : ∀ x ∈ before, s.channelCheck x = none := fun x hx => State.channelCheck_none_iff.mpr (hb x hx)
    have hfirst : ∀ {k}, s.channelCheck c = some k → s.startCheck = some (k, c.cfg.num) := fun hk => by
      rw [State.startCheck_eq, hc, firstBad_first hb hk]; rfl
    refine ⟨fun h => hfirst ?_, fun r hr h => hfirst ?_, fun r hr h1 h2 h3 => hfirst ?_⟩
    · unfold State.channelCheck; rw [h]
    · rw [State.channelCheck_of_node hr, if_pos h]
    · rw [State.channelCheck_of_node hr, if_neg (by omega), if_pos h3]
  · have h1 : firstBad s.channelCheck (·.cfg.num) s.channels = none :=
      firstBad_none.mpr fun x hx => State.channelCheck_none_iff.mpr ((hfits x).mp (hall x hx))
    rw [State.startCheck_eq, h1, none_orElse]
    refine ⟨fun before b after_ hb hbefore hbad => ?_, fun hbs => ?_⟩
    · rw [hb, firstBad_first (fun x hx => State.bindingCheck_none_iff.mpr ((hbound x).mp (hbefore x hx)))
        (State.bindingCheck_fails (mt (hbound b).mpr hbad))]
      rfl
    have h2 : firstBad s.bindingCheck (·.slot) s.bindings = none :=
      firstBad_none.mpr fun x hx => State.bindingCheck_none_iff.mpr ((hbound x).mp (hbs x hx))
    rw [h2, none_orElse]
    refine ⟨fun before t after_ ht hbefore hbad => ?_, fun hts => ?_⟩
    · rw [ht, firstBad_first (fun x hx => State.mapCheck_none_iff.mpr ((hmapped x).mp (hbefore x hx)))
        (State.mapCheck_fails (mt (hmapped t).mpr hbad))]
      rfl
    have h3 : firstBad s.mapCheck (·.addr) s.stations = none :=
      firstBad_none.mpr fun x hx => State.mapCheck_none_iff.mpr ((hmapped x).mp (hts x hx))
    rw [h3, none_orElse]
    refine ⟨fun h => by rw [if_neg (by omega)]; rfl, fun h => ?_⟩
    rw [if_pos h, none_orElse]
    refine ⟨fun h => by rw [if_neg (by omega)]; rfl, fun ha hb => ?_⟩
    rw [if_pos ⟨ha, hb⟩, none_orElse]
    refine ⟨fun h => by rw [if_neg (by omega)]; rfl, fun h f inRange n hf hr hn hbefore => ?_⟩
    have hrange : inRange = windlassRanges f := by rw [hr]; simp [windlassRanges]
    rw [hrange] at hn hbefore
    rw [if_pos h, none_orElse, ← hf, windlassBadFigure_first hn hbefore]
    rfl

end Sys2Proof.Proofs
end

section
/-!
PROOFS. Entry to RUN (R28, R57, R186, R187, R193): O24.
-/

namespace Sys2Proof.Machine

/-! ## The records are brought up (R28) -/

/-- The places the Roomline queue has left (R17, R18). -/
def State.room (s : State) : Nat := if s.bus.state = .recovery then 0 else 16 - s.bus.queue.length

/-- The entry of an IDENTIFY that a record asks for. -/
def identifyEntry (now : Uptime) (a : Nat) : Entry := ⟨.c, .identify, a, none, now, false, false, false, false⟩

/-- A record that starts to be brought up, with its retry timer. -/
def NodeRecord.starts (n : NodeRecord) (retry : Option Uptime) : NodeRecord :=
  { n with state := .identify, misses := 0, held := 0, returnFlag := false, pollTimer := none, retryTimer := retry }

/-- One record is brought up. -/
def State.bringUp (s : State) (a : Nat) : State :=
  (s.onNode a fun n => { n with misses := 0, held := 0, returnFlag := false }).enterIdentify a

/-- A state with its node table and its Roomline queue replaced. -/
def State.asked (s : State) (ns : List NodeRecord) (q : List Entry) : State := { s with nodes := ns, bus := { s.bus with queue := q } }

theorem State.bringUp_eq {s : State} (a : Nat) (hm : s.mode ≠ .config) : s.bringUp a =
    s.asked (s.nodes.map fun n => if n.addr = a then n.starts (if 0 < s.room then none else some (s.uptime + 1000)) else n)
      (s.bus.queue ++ if 0 < s.room then [identifyEntry s.uptime a] else []) := by
  obtain ⟨h1, h2⟩ := State.enterIdentify_eq (s.onNode a fun n => { n with misses := 0, held := 0, returnFlag := false }) a hm
  have hmap : ∀ retry : Option Uptime, ((s.onNode a fun n => { n with misses := 0, held := 0, returnFlag := false }).nodes.map fun n =>
      if n.addr = a then { n with state := .identify, retryTimer := retry, pollTimer := none } else n)
      = s.nodes.map fun n => if n.addr = a then n.starts retry else n := fun retry => by
    simp only [State.onNode, tableModify, List.map_map]
    refine List.map_congr_left fun n _ => ?_
    simp only [Function.comp_apply]
    split <;> simp_all [NodeRecord.starts]
  have hroom : s.QueueRoom ↔ 0 < s.room := by
    unfold State.QueueRoom State.room
    split <;> simp_all
  by_cases hq : s.QueueRoom
  · refine (h1 hq).trans ?_
    rw [if_pos (hroom.mp hq), if_pos (hroom.mp hq), hmap]
    rfl
  · refine (h2 hq).trans ?_
    rw [if_neg (mt hroom.mpr hq), if_neg (mt hroom.mpr hq), List.append_nil]
    exact congrArg (fun ns => { s with nodes := ns }) (hmap (some (s.uptime + 1000)))

theorem State.bringUps_eq {s : State} (hm : s.mode ≠ .config) {as : List Nat} (hn : as.Nodup) : as.foldl State.bringUp s =
    s.asked (s.nodes.map fun n => if n.addr ∈ as then
        n.starts (if n.addr ∈ as.take s.room then none else some (s.uptime + 1000)) else n)
      (s.bus.queue ++ (as.take s.room).map (identifyEntry s.uptime)) := by
  induction as generalizing s with
  | nil => simp [State.asked]
  | cons a as ih =>
    obtain ⟨ha, hn⟩ := List.nodup_cons.mp hn
    rw [List.foldl_cons, State.bringUp_eq a hm, ih (by exact hm) hn]
    have hroom : ∀ ns : List NodeRecord,
        (s.asked ns (s.bus.queue ++ if 0 < s.room then [identifyEntry s.uptime a] else [])).room = s.room - 1 := fun ns => by
      unfold State.room State.asked
      dsimp only
      split
      · rfl
      · split <;> simp <;> omega
    rw [hroom]
    have htake : (a :: as).take s.room = (if 0 < s.room then [a] else []) ++ as.take (s.room - 1) := by
      cases s.room <;> simp
    rw [htake]
    refine congrArg₂ s.asked ?_ ?_
    · show List.map _ (List.map _ _) = _
      rw [List.map_map]
      refine List.map_congr_left fun n _ => ?_
      simp only [Function.comp_apply]
      by_cases hna : n.addr = a
      · have hno : n.addr ∉ as := hna ▸ ha
        have hno' : n.addr ∉ as.take (s.room - 1) := fun h => hno (List.mem_of_mem_take h)
        have hst : ∀ x, (n.starts x).addr ∉ as := fun _ => hno
        have hin : n.addr ∈ a :: as := by rw [hna]; exact List.mem_cons_self
        rw [if_pos hna, if_neg (hst _), if_pos hin]
        by_cases hr : 0 < s.room
        · rw [if_pos hr, if_pos (by rw [if_pos hr, hna]; exact List.mem_cons_self)]
        · rw [if_neg hr, if_neg (by rw [if_neg hr]; exact hno')]
      · have hmem : n.addr ∈ (if 0 < s.room then [a] else []) ++ as.take (s.room - 1) ↔ n.addr ∈ as.take (s.room - 1) := by
          split <;> simp [hna]
        rw [if_neg hna]
        simp only [List.mem_cons, hna, false_or, hmem]
        rfl
    · show (s.bus.queue ++ _) ++ _ = _
      rw [List.map_append, List.append_assoc]
      refine congrArg (s.bus.queue ++ ·) (congrArg (· ++ _) ?_)
      split <;> rfl

/-! ## The lamps asked for at the end (R169) -/

theorem State.requestLamps_others (s : State) (a : Nat) :
    (s.requestLamps a).bus.queue.filter (fun e => e.kind ≠ .lamps) = s.bus.queue.filter (fun e => e.kind ≠ .lamps) := by
  unfold State.requestLamps
  split
  · rfl
  · split
    · unfold State.askTx
      rcases s.queueTx_cases .lamps a none false with ⟨e, -⟩ | ⟨-, -, e | ⟨-, e⟩⟩
      · rw [e]
      · rw [e]
        show (s.bus.queue.map fun e => if e.isFor .lamps a then e.absorb else e).filter _ = _
        induction s.bus.queue with
        | nil => rfl
        | cons x xs ih =>
          rw [List.map_cons, List.filter_cons, List.filter_cons, ih]
          by_cases hx : x.isFor .lamps a = true
          · have hk := (Entry.isFor_iff.mp hx).1
            have hk' : x.absorb.kind = .lamps := by unfold Entry.absorb; split <;> exact hk
            rw [if_pos hx]
            simp [hk, hk']
          · rw [if_neg hx]
      · rw [e]
        show (s.bus.queue ++ [_]).filter _ = _
        rw [List.filter_append]
        simp
    · rfl

theorem State.lampPass_others (s b : State) :
    (s.lampPass b).bus.queue.filter (fun e => e.kind ≠ .lamps) = s.bus.queue.filter (fun e => e.kind ≠ .lamps) := by
  unfold State.lampPass
  have key : ∀ (ts : List Station) (u : State), (ts.foldl (fun s t =>
      if (b.station t.addr).map b.lampsOf = (s.station t.addr).map s.lampsOf then s else s.requestLamps t.addr) u).bus.queue.filter
        (fun e => e.kind ≠ .lamps) = u.bus.queue.filter (fun e => e.kind ≠ .lamps) := by
    intro ts
    induction ts with
    | nil => exact fun u => rfl
    | cons t ts ih =>
      intro u
      rw [List.foldl_cons, ih]
      split
      · rfl
      · exact u.requestLamps_others t.addr
  exact key s.stations s

/-! ## What START leaves (R187) -/

/-- A record takes part in the bring-up (R28). -/
def NodeRecord.enters (r : NodeRecord) : Bool := r.state = .declared ∧ r.enrolHold = false

/-- A record at entry to RUN. -/
def NodeRecord.adopts (r : NodeRecord) : NodeRecord := { r with adoptionPending := r.type.hasOutputs || r.adoptionPending }

/-- The addresses that start to be brought up. -/
def State.entering (s : State) : List Nat := (s.nodes.filter NodeRecord.enters).map (·.addr)

theorem State.bringUpAll_eq (s : State) :
    s.bringUpAll = s.entering.foldl State.bringUp { s with nodes := s.nodes.map NodeRecord.adopts } := by
  have h : (s.nodes.map NodeRecord.adopts).filter NodeRecord.enters = (s.nodes.filter NodeRecord.enters).map NodeRecord.adopts := by
    rw [List.filter_map]; rfl
  show List.foldl (fun s r => State.bringUp s r.addr) _ ((s.nodes.map NodeRecord.adopts).filter NodeRecord.enters) = _
  rw [h, ← List.foldl_map (f := NodeRecord.addr) (g := State.bringUp), List.map_map]
  rfl

theorem State.mem_entering {s : State} (h : Rising (s.nodes.map (·.addr))) {n : NodeRecord} (hn : n ∈ s.nodes) :
    n.addr ∈ s.entering ↔ n.enters = true := by
  constructor
  · intro hm
    obtain ⟨x, hx, he⟩ := List.mem_map.mp hm
    obtain ⟨hx, hp⟩ := List.mem_filter.mp hx
    have h1 := tableGet_of_mem NodeRecord.addr h hn
    have h2 := tableGet_of_mem NodeRecord.addr h hx
    rw [he] at h2
    cases h1.symm.trans h2
    exact hp
  · exact fun hp => List.mem_map_of_mem (List.mem_filter.mpr ⟨hn, hp⟩)

theorem State.entering_nodup {s : State} (h : Rising (s.nodes.map (·.addr))) : s.entering.Nodup := by
  have hs : List.Sublist s.entering (s.nodes.map (·.addr)) := (List.filter_sublist).map _
  exact ((h.sublist hs).imp fun h => Nat.ne_of_lt h)

/-- What is left of a state that enters RUN, before the lamps are asked for. -/
theorem State.enterRun_asked {s : State} (c : ModeCause) (ho : Rising (s.nodes.map (·.addr))) : s.enterRun c = (s.running c).asked
    (s.nodes.map fun n => if n.enters = true then
        n.adopts.starts (if n.addr ∈ s.entering.take s.room then none else some (s.uptime + 1000)) else n.adopts)
      (s.bus.queue ++ (s.entering.take s.room).map (identifyEntry s.uptime)) := by
  have he : (s.running c).entering = s.entering := rfl
  rw [State.enterRun_eq, State.bringUpAll_eq, he, State.bringUps_eq (by exact fun h => nomatch h) (State.entering_nodup (s := s) ho)]
  refine congrArg (fun ns => (s.running c).asked ns _) ?_
  show ((s.nodes.map NodeRecord.adopts).map _) = _
  rw [List.map_map]
  refine List.map_congr_left fun n hn => ?_
  have h : n.adopts.addr ∈ s.entering ↔ n.enters = true := State.mem_entering (n := n) ho hn
  simp only [Function.comp_apply]
  by_cases hp : n.enters = true
  · rw [if_pos hp]; exact if_pos (h.mpr hp)
  · rw [if_neg hp]; exact if_neg (mt h.mp hp)

theorem NodeRecord.enters_iff {r : NodeRecord} : r.enters = true ↔ r.state = .declared ∧ r.enrolHold = false := decide_eq_true_iff

theorem NodeType.hasOutputs_iff {t : NodeType} : t.hasOutputs = true ↔ t = .dimmer4 ∨ t = .switch8 ∨ t = .blind2 := by
  cases t <;> decide

/-- The entry to RUN leaves what START leaves, whatever the moment and the boot timer of the state it starts from. -/
theorem State.started {s u : State} (b : State) (c : ModeCause) (ho : Rising (u.nodes.map (·.addr)))
    (hu : { u with uptime := s.uptime, bootTimer := s.bootTimer } = s) : s.StartedAs ((u.enterRun c).lampPass b) := by
  obtain ⟨q, hq, -⟩ := (u.enterRun c).lampPass_frame b
  have hn : u.nodes = s.nodes := (congrArg State.nodes hu :)
  have hb : u.bus = s.bus := (congrArg State.bus hu :)
  have hup : ((u.enterRun c).lampPass b).uptime = u.uptime := by rw [hq, State.enterRun_asked c ho]; rfl
  refine ⟨?_, ?_, fun enters outputs room asked hent hout hroom hasked => ⟨?_, ?_⟩⟩
  · rw [hup, hq, State.enterRun_asked c ho, ← hu]; rfl
  · rw [hq, State.enterRun_asked c ho, ← hu]; rfl
  all_goals
    obtain rfl : enters = NodeRecord.enters := funext fun r => Bool.eq_iff_iff.mpr ((hent r).trans NodeRecord.enters_iff.symm)
    obtain rfl : outputs = fun r => r.type.hasOutputs := funext fun r => Bool.eq_iff_iff.mpr ((hout r).trans NodeType.hasOutputs_iff.symm)
    have hask : asked = u.entering.take u.room := by rw [hasked, hroom, State.entering, State.room, hn, hb]
    rw [hup, hask]
  · rw [hq, State.enterRun_asked c ho]
    show List.map _ u.nodes = _
    rw [hn]
    refine List.map_congr_left fun r _ => ?_
    rw [NodeRecord.adopts, Bool.or_comm]
    rfl
  · rw [State.lampPass_others, State.enterRun_asked c ho]
    show (u.bus.queue ++ _).filter _ = _
    rw [List.filter_append, hb]
    refine congrArg (_ ++ ·) (List.filter_eq_self.mpr fun x hx => ?_)
    obtain ⟨a, -, rfl⟩ := List.mem_map.mp hx
    rfl

theorem State.started_rest {u : State} (b : State) (c : ModeCause) (ho : Rising (u.nodes.map (·.addr))) (hm : u.mode = .config) :
    ((u.enterRun c).lampPass b).uptime = u.uptime ∧ ((u.enterRun c).lampPass b).bootTimer = u.bootTimer
      ∧ ((u.enterRun c).lampPass b).link = u.link.post ⟨.modeChanged, 0, [1, 0, BitVec.ofNat 8 c.code], u.uptime⟩ := by
  obtain ⟨q, hq, -⟩ := (u.enterRun c).lampPass_frame b
  rw [hq, State.enterRun_asked c ho]
  refine ⟨rfl, rfl, ?_⟩
  show u.link.post ⟨.modeChanged, 0, leBytes 1 Mode.run.code ++ leBytes 1 u.mode.code ++ leBytes 1 c.code, u.uptime⟩ = _
  rw [hm]; rfl

/-- A reply does not change what START leaves. -/
theorem State.StartedAs.replied {s t : State} (h : s.StartedAs t) (k tag : Byte) (st : Status) (d : ReplyData) :
    s.StartedAs (t.replied k tag st d) := h

theorem exec_start {s : State} (tag : Byte) (hm : s.mode = .config) : exec (.start tag) s = answered 0x08 tag
    (s.startCheck.elim ((s.enterRun .start).lampPass s).accept fun x => ⟨s, .invalid, .invalid x.1 x.2⟩) := by
  show answered _ _ (if s.mode ≠ .config then _ else _) = _
  rw [if_neg (not_not.mpr hm)]
  cases s.startCheck <;> rfl

/-- The state in which AUTO_START is attempted. -/
def State.booted (s : State) (e : Uptime) : State := { s.atMoment e with bootTimer := none }

theorem State.booted_eq (s : State) (e : Uptime) : s.booted e = { s with uptime := (s.atMoment e).uptime, bootTimer := none } := by
  rw [State.booted, s.atMoment_eq e]

theorem exec_autoStart {s : State} {e : Uptime} (he : s.bootTimer = some e) : exec .autoStart s = .next
    (if s.bootValid = true ∧ s.autoStart = true ∧ s.mode = .config then
      s.startCheck.elim (((s.booted e).enterRun .autoStart).lampPass (s.booted e))
        fun x => (s.booted e).post .startFailed 0 (leBytes 1 x.1 ++ leBytes 1 x.2)
      else s.booted e) := by
  have hc : (s.booted e).startCheck = s.startCheck := by rw [s.booted_eq]; rfl
  have hb : (s.booted e).bootValid = s.bootValid ∧ (s.booted e).autoStart = s.autoStart ∧ (s.booted e).mode = s.mode := by
    rw [s.booted_eq]; exact ⟨rfl, rfl, rfl⟩
  show execAutoStart s = _
  unfold execAutoStart
  rw [he, ← hc, ← hb.1, ← hb.2.1, ← hb.2.2]
  refine congrArg Host.Outcome.next ?_
  show (if (s.booted e).bootValid = true ∧ (s.booted e).autoStart = true ∧ (s.booted e).mode = .config then _ else s.booted e) = _
  split
  · cases h : (s.booted e).startCheck
    all_goals
      exact (congrArg (fun o : Option (Nat × Nat) => match o with
        | some (kind, index) => (s.booted e).post .startFailed 0 (leBytes 1 kind ++ leBytes 1 index)
        | none => ((s.booted e).enterRun .autoStart).lampPass (s.booted e)) h :)
  · rfl

end Sys2Proof.Machine

namespace Sys2Proof.Proofs

open Sys2Proof.Machine

/-- Settles O24: START and AUTO_START enter RUN by one operation, which the records' bring-up ends. -/
theorem startEntersRun : Obligations.StartEntersRun := by
  refine ⟨fun s tag ho hm hc => ⟨?_, fun e he hv ha => ?_⟩, fun s tag => ⟨fun k n hm hc => ?_, fun e k n he hv ha hm hc => ?_,
    fun e he h => ?_, fun h => ?_⟩⟩
  · obtain ⟨h1, h2, h3⟩ := State.started_rest (u := s) s .start ho.1 hm
    have hs := State.started (s := s) s .start ho.1 rfl
    have hx : exec (.start tag) s = .next (((s.enterRun .start).lampPass s).replied 0x08 tag .ok) := by
      rw [exec_start tag hm, hc]; rfl
    generalize (s.enterRun .start).lampPass s = t at *
    exact ⟨_, hx, hs.replied _ _ _ _, h1, h2, congrArg (fun l : Link => l.answer 0x08 tag .ok .none) h3⟩
  · have hb := s.booted_eq e
    have ho' : Rising ((s.booted e).nodes.map (·.addr)) := by rw [hb]; exact ho.1
    obtain ⟨h1, h2, h3⟩ := State.started_rest (u := s.booted e) (s.booted e) .autoStart ho' (by rw [hb]; exact hm)
    have hs := State.started (s := s) (s.booted e) .autoStart ho' (by rw [hb])
    have hx : exec .autoStart s = .next (((s.booted e).enterRun .autoStart).lampPass (s.booted e)) := by
      rw [exec_autoStart he, if_pos ⟨hv, ha, hm⟩, hc]; rfl
    generalize ((s.booted e).enterRun .autoStart).lampPass (s.booted e) = t at *
    rw [hb] at h1 h2 h3
    exact ⟨t, hx, hs, h1, h2, by rw [h1]; exact h3⟩
  · rw [exec_start tag hm, hc]; rfl
  · rw [exec_autoStart he, if_pos ⟨hv, ha, hm⟩, hc]
    refine congrArg Host.Outcome.next ?_
    show (s.booted e).post _ _ _ = _
    rw [State.booted, s.atMoment_eq e]; rfl
  · rw [exec_autoStart he, if_neg]; · rfl
    rintro ⟨h1, h2, h3⟩
    rcases h with h | h | h
    · rw [h] at h1; cases h1
    · rw [h] at h2; cases h2
    · exact h h3
  · show execAutoStart s = _
    unfold execAutoStart
    rw [h]

end Sys2Proof.Proofs
end

section
/-!
PROOFS. The sweep: the conversion, the rail checks, the monitors and the samples, and the readers (R106 to R113): O39.
-/

namespace Sys2Proof.Machine

/-! ## One input of the sense unit -/

theorem State.input_onInput (s : State) {i j : Nat} (f : SenseInput → SenseInput) (hi : 1 ≤ i ∧ i ≤ 8) (hj : 1 ≤ j) :
    (s.onInput i f).input j = if j = i then f (s.input i) else s.input j := by
  show ((s.sense.inputs.setIfInBounds (i - 1) (f (s.input i)))[j - 1]?).getD {} = _
  rw [Vector.getElem?_setIfInBounds]
  by_cases h : j = i
  · rw [if_pos h, if_pos (by omega), if_pos (by omega)]; rfl
  · rw [if_neg h, if_neg (by omega)]; rfl

theorem State.onInput_onInput (s : State) {i : Nat} (f g : SenseInput → SenseInput) (hi : 1 ≤ i ∧ i ≤ 8) :
    (s.onInput i f).onInput i g = s.onInput i fun x => g (f x) := by
  have h : (s.onInput i f).input i = f (s.input i) := by rw [s.input_onInput f hi hi.1, if_pos rfl]
  have hv : ∀ (v : Vector SenseInput 8) (n : Nat) (x y : SenseInput), (v.setIfInBounds n x).setIfInBounds n y = v.setIfInBounds n y := by
    intro v n x y
    simp
  unfold State.onInput at h ⊢
  dsimp only at h ⊢
  rw [h, hv]

/-- Whether a conversion lies at a rail (R112). -/
def SenseInput.atRail (x : SenseInput) : Bool := x.raw = 0 ∨ x.raw = 4095

theorem SenseInput.atRail_iff {x : SenseInput} : x.atRail = true ↔ x.raw = 0 ∨ x.raw = 4095 := decide_eq_true_iff

section
variable (s : State) {i : Nat}

/-! ## The rail check (R112) -/

theorem State.railCheck_counts (hr : (s.input i).atRail = true) (h : (s.input i).faulted = true ∨ (s.input i).railCount < 4) :
    s.railCheck i = s.onInput i fun y => { y with railCount := min (y.railCount + 1) 5 } := by
  unfold State.railCheck
  dsimp only
  rw [if_pos (SenseInput.atRail_iff.mp hr), if_neg (fun e => ?_)]
  · rfl
  · obtain ⟨e1, e2⟩ := e
    rcases h with h | h
    · rw [h] at e2; cases e2
    · omega

theorem State.railCheck_faults (hi : 1 ≤ i ∧ i ≤ 8) (hr : (s.input i).atRail = true) (hf : (s.input i).faulted = false)
    (h : 4 ≤ (s.input i).railCount) : s.railCheck i =
      { (s.onInput i fun y => { y with railCount := 5, faulted := true }).onSense (fun n => if i ≤ 2 then { n with window := [] } else n) with
        link := s.link.post ⟨.senseFault, i, leBytes 2 (s.input i).raw.toNat, s.uptime⟩ } := by
  unfold State.railCheck
  dsimp only
  have hn : min ((s.input i).railCount + 1) 5 = 5 := by omega
  rw [if_pos (SenseInput.atRail_iff.mp hr), if_pos ⟨hn, hf⟩, hn, s.onInput_onInput _ _ hi]
  split <;> rfl

theorem State.railCheck_steady (hr : (s.input i).atRail = false) (hf : (s.input i).faulted = false) :
    s.railCheck i = s.onInput i fun y => { y with railCount := 0 } := by
  unfold State.railCheck
  dsimp only
  rw [if_neg (fun e => by rw [SenseInput.atRail_iff.mpr e] at hr; cases hr), if_neg (by rw [hf]; decide)]

theorem State.railCheck_clears (hi : 1 ≤ i ∧ i ≤ 8) (hr : (s.input i).atRail = false) (hf : (s.input i).faulted = true) : s.railCheck i =
    { s.onInput i fun y => { y with railCount := 0, faulted := false } with
      link := s.link.post ⟨.senseOk, i, leBytes 2 (s.input i).raw.toNat, s.uptime⟩ } := by
  unfold State.railCheck
  dsimp only
  rw [if_neg (fun e => by rw [SenseInput.atRail_iff.mpr e] at hr; cases hr), if_pos hf, s.onInput_onInput _ _ hi]
  rfl

/-! ## The monitors (R111) -/

theorem State.highMonitor_armed (h : (s.input i).highTripped = false) : s.highMonitor i =
    if (s.input i).settings.highLimit < (s.input i).scaled then State.offer
      { s.onInput i fun y => { y with highTripped := true } with
        link := s.link.post ⟨.senseLimit, i, 1 :: leSigned 2 (s.input i).scaled ++ leSigned 2 (s.input i).settings.highLimit, s.uptime⟩ }
      (.sense i .aboveHigh)
    else s := by
  unfold State.highMonitor
  dsimp only
  rw [if_neg (by rw [h]; decide)]
  rfl

theorem State.highMonitor_tripped (h : (s.input i).highTripped = true) : s.highMonitor i =
    if (s.input i).scaled < (s.input i).settings.highLimit - (s.input i).settings.hysteresis then
      s.onInput i fun y => { y with highTripped := false }
    else s := by
  unfold State.highMonitor
  dsimp only
  rw [if_pos h]

theorem State.lowMonitor_armed (h : (s.input i).lowTripped = false) : s.lowMonitor i =
    if (s.input i).scaled < (s.input i).settings.lowLimit then State.offer
      { s.onInput i fun y => { y with lowTripped := true } with
        link := s.link.post ⟨.senseLimit, i, 2 :: leSigned 2 (s.input i).scaled ++ leSigned 2 (s.input i).settings.lowLimit, s.uptime⟩ }
      (.sense i .belowLow)
    else s := by
  unfold State.lowMonitor
  dsimp only
  rw [if_neg (by rw [h]; decide)]
  rfl

theorem State.lowMonitor_tripped (h : (s.input i).lowTripped = true) : s.lowMonitor i =
    if (s.input i).settings.lowLimit + (s.input i).settings.hysteresis < (s.input i).scaled then
      s.onInput i fun y => { y with lowTripped := false }
    else s := by
  unfold State.lowMonitor
  dsimp only
  rw [if_pos h]

end

/-! ## What a sweep makes of an input -/

/-- An input after its rail check. -/
def SenseInput.railed (x : SenseInput) : SenseInput :=
  if x.atRail then { x with railCount := min (x.railCount + 1) 5, faulted := x.faulted || decide (4 ≤ x.railCount) }
  else { x with railCount := 0, faulted := false }

/-- The monitors' marks of an input that is not FAULTED. -/
def SenseInput.monitored (x : SenseInput) : SenseInput :=
  { x with
    highTripped := if x.highTripped then decide (x.settings.highLimit - x.settings.hysteresis ≤ x.scaled)
      else decide (x.settings.highLimit < x.scaled)
    lowTripped := if x.lowTripped then decide (x.scaled ≤ x.settings.lowLimit + x.settings.hysteresis)
      else decide (x.scaled < x.settings.lowLimit) }

/-- An input after its part of a sweep. -/
def SenseInput.swept (x : SenseInput) : SenseInput := if x.railed.faulted then x.railed else x.railed.monitored

/-- The sense input of a number 1..8. -/
def Sense.input (u : Sense) (i : Nat) : SenseInput := (u.inputs[i - 1]?).getD {}

/-- The sense unit after one input's part of a sweep: nothing but the input has changed, and the window where it is emptied. -/
structure Sense.Swept (u v : Sense) (i : Nat) (y : SenseInput) (empties : Bool) : Prop where
  input : ∀ j, 1 ≤ j → v.input j = if j = i then y else u.input j
  rest : { v with inputs := u.inputs, window := u.window } = u
  window : v.window = if empties then [] else u.window

theorem Sense.Swept.refl (u : Sense) (i : Nat) : u.Swept u i (u.input i) false :=
  ⟨fun j _ => by split; · rename_i h; rw [h]
                 · rfl, rfl, rfl⟩

theorem Sense.Swept.trans {u v w : Sense} {i : Nat} {y z : SenseInput} {b : Bool} (h : u.Swept v i y b) (g : v.Swept w i z false) :
    u.Swept w i z b := by
  refine ⟨fun j hj => ?_, ?_, g.window.trans h.window⟩
  · rw [g.input j hj, h.input j hj]; split <;> rfl
  · have hg := congrArg (fun x : Sense => { x with inputs := u.inputs, window := u.window }) g.rest
    exact hg.trans h.rest

theorem State.onInput_swept (s : State) {i : Nat} (f : SenseInput → SenseInput) (hi : 1 ≤ i ∧ i ≤ 8) :
    s.sense.Swept (s.onInput i f).sense i (f (s.input i)) false := ⟨fun _ hj => s.input_onInput f hi hj, rfl, rfl⟩

/-- Whether a supply input becomes FAULTED, so that the window is emptied (R110). -/
def SenseInput.empties (x : SenseInput) (i : Nat) : Bool := decide (i ≤ 2) && x.railed.faulted && !x.faulted

theorem State.railCheck_swept (s : State) {i : Nat} (hi : 1 ≤ i ∧ i ≤ 8) :
    s.sense.Swept (s.railCheck i).sense i (s.input i).railed ((s.input i).empties i) := by
  by_cases hr : (s.input i).atRail = true
  · by_cases h : (s.input i).faulted = true ∨ (s.input i).railCount < 4
    · have he : (s.input i).railed = { s.input i with railCount := min ((s.input i).railCount + 1) 5 } := by
        have : ((s.input i).faulted || decide (4 ≤ (s.input i).railCount)) = (s.input i).faulted := by
          rcases h with h | h
          · rw [h]; rfl
          · rw [decide_eq_false (by omega), Bool.or_false]
        rw [SenseInput.railed, if_pos hr, this]
      have hb : (decide (i ≤ 2) && (s.input i).faulted && !(s.input i).faulted) = false := by cases (s.input i).faulted <;> simp
      rw [s.railCheck_counts hr h, SenseInput.empties, he]
      simp only [hb]
      exact s.onInput_swept (fun y => { y with railCount := min (y.railCount + 1) 5 }) hi
    · have hf : (s.input i).faulted = false := by simpa using fun e => h (.inl e)
      have hc : 4 ≤ (s.input i).railCount := by omega
      have he : (s.input i).railed = { s.input i with railCount := 5, faulted := true } := by
        rw [SenseInput.railed, if_pos hr, hf, decide_eq_true hc, show min ((s.input i).railCount + 1) 5 = 5 by omega]; rfl
      rw [s.railCheck_faults hi hr hf hc, SenseInput.empties, he, hf]
      have hx := s.onInput_swept (fun y => { y with railCount := 5, faulted := true }) hi
      by_cases h2 : i ≤ 2
      · simp only [if_pos h2, decide_eq_true h2]
        exact ⟨hx.input, rfl, rfl⟩
      · simp only [if_neg h2, decide_eq_false h2]
        exact ⟨hx.input, rfl, rfl⟩
  · have he : (s.input i).railed = { s.input i with railCount := 0, faulted := false } := by rw [SenseInput.railed, if_neg hr]
    have hr := Bool.eq_false_iff.mpr hr
    rw [SenseInput.empties, he]
    simp only [Bool.and_false, Bool.false_and]
    cases hf : (s.input i).faulted
    · rw [s.railCheck_steady hr hf]
      have hx := s.onInput_swept (fun y => { y with railCount := 0 }) hi
      rwa [show ({ s.input i with railCount := 0 } : SenseInput) = { s.input i with railCount := 0, faulted := false } by rw [← hf]] at hx
    · rw [s.railCheck_clears hi hr hf]
      exact s.onInput_swept (fun y => { y with railCount := 0, faulted := false }) hi

theorem State.highMonitor_swept (s : State) {i : Nat} (hi : 1 ≤ i ∧ i ≤ 8) : s.sense.Swept (s.highMonitor i).sense i
    { s.input i with highTripped := (s.input i).monitored.highTripped } false := by
  have hself : ∀ b, (s.input i).highTripped = b → (s.input i).monitored.highTripped = b →
      ({ s.input i with highTripped := (s.input i).monitored.highTripped } : SenseInput) = s.input i := fun b h1 h2 => by rw [h2, ← h1]
  cases h : (s.input i).highTripped
  · rw [s.highMonitor_armed h]
    have hm : (s.input i).monitored.highTripped = decide ((s.input i).settings.highLimit < (s.input i).scaled) := by
      simp [SenseInput.monitored, h]
    split
    · rename_i hx
      rw [State.offer_sense, hm, decide_eq_true hx]
      exact s.onInput_swept (fun y => { y with highTripped := true }) hi
    · rename_i hx
      rw [hself false h (by rw [hm, decide_eq_false hx])]
      exact .refl _ i
  · rw [s.highMonitor_tripped h]
    have hm : (s.input i).monitored.highTripped
        = decide ((s.input i).settings.highLimit - (s.input i).settings.hysteresis ≤ (s.input i).scaled) := by
      simp [SenseInput.monitored, h]
    split
    · rename_i hx
      rw [hm, decide_eq_false (by omega)]
      exact s.onInput_swept (fun y => { y with highTripped := false }) hi
    · rename_i hx
      rw [hself true h (by rw [hm, decide_eq_true (by omega)])]
      exact .refl _ i

theorem State.lowMonitor_swept (s : State) {i : Nat} (hi : 1 ≤ i ∧ i ≤ 8) : s.sense.Swept (s.lowMonitor i).sense i
    { s.input i with lowTripped := (s.input i).monitored.lowTripped } false := by
  have hself : ∀ b, (s.input i).lowTripped = b → (s.input i).monitored.lowTripped = b →
      ({ s.input i with lowTripped := (s.input i).monitored.lowTripped } : SenseInput) = s.input i := fun b h1 h2 => by rw [h2, ← h1]
  cases h : (s.input i).lowTripped
  · rw [s.lowMonitor_armed h]
    have hm : (s.input i).monitored.lowTripped = decide ((s.input i).scaled < (s.input i).settings.lowLimit) := by
      simp [SenseInput.monitored, h]
    split
    · rename_i hx
      rw [State.offer_sense, hm, decide_eq_true hx]
      exact s.onInput_swept (fun y => { y with lowTripped := true }) hi
    · rename_i hx
      rw [hself false h (by rw [hm, decide_eq_false hx])]
      exact .refl _ i
  · rw [s.lowMonitor_tripped h]
    have hm : (s.input i).monitored.lowTripped
        = decide ((s.input i).scaled ≤ (s.input i).settings.lowLimit + (s.input i).settings.hysteresis) := by
      simp [SenseInput.monitored, h]
    split
    · rename_i hx
      rw [hm, decide_eq_false (by omega)]
      exact s.onInput_swept (fun y => { y with lowTripped := false }) hi
    · rename_i hx
      rw [hself true h (by rw [hm, decide_eq_true (by omega)])]
      exact .refl _ i

theorem Sense.Swept.self {u v : Sense} {i : Nat} {y : SenseInput} {b : Bool} (h : u.Swept v i y b) (hi : 1 ≤ i) : v.input i = y :=
  (h.input i hi).trans (if_pos rfl)

theorem State.sweepInput_swept (s : State) {i : Nat} (hi : 1 ≤ i ∧ i ≤ 8) :
    s.sense.Swept (s.sweepInput i).sense i (s.input i).swept ((s.input i).empties i) := by
  have h := s.railCheck_swept hi
  have hx : (s.railCheck i).input i = (s.input i).railed := h.self hi.1
  unfold State.sweepInput
  dsimp only
  rw [hx, SenseInput.swept]
  split
  · exact h
  · have hh := (s.railCheck i).highMonitor_swept hi
    have hl := ((s.railCheck i).highMonitor i).lowMonitor_swept hi
    have hy : ((s.railCheck i).highMonitor i).input i = _ := hh.self hi.1
    rw [hy] at hl
    rw [hx] at hh hl
    exact (h.trans hh).trans hl

/-! ## All inputs -/

/-- The sense unit when some inputs have had their part of a sweep. -/
structure Sense.SweptAll (u v : Sense) (is : List Nat) : Prop where
  input : ∀ j, 1 ≤ j → v.input j = if j ∈ is then (u.input j).swept else u.input j
  rest : { v with inputs := u.inputs, window := u.window } = u
  window : v.window = if is.any (fun k => (u.input k).empties k) then [] else u.window

theorem State.sweepInputs_swept (s : State) {is : List Nat} (hn : is.Nodup) (hi : ∀ i ∈ is, 1 ≤ i ∧ i ≤ 8) :
    s.sense.SweptAll (is.foldl State.sweepInput s).sense is := by
  induction is generalizing s with
  | nil => exact ⟨fun _ _ => rfl, rfl, rfl⟩
  | cons i is ih =>
    obtain ⟨hni, hn⟩ := List.nodup_cons.mp hn
    have h1 := s.sweepInput_swept (hi i List.mem_cons_self)
    have h2 := ih (s.sweepInput i) hn fun j hj => hi j (List.mem_cons_of_mem _ hj)
    have hsame : ∀ j ∈ is, (s.sweepInput i).sense.input j = s.sense.input j := fun j hj => by
      rw [h1.input j (hi j (List.mem_cons_of_mem _ hj)).1, if_neg fun e => hni (by rw [← e]; exact hj)]
    refine ⟨fun j hj => ?_, ?_, ?_⟩
    · rw [List.foldl_cons, h2.input j hj]
      by_cases hji : j = i
      · rw [if_neg (by rw [hji]; exact hni), if_pos (by rw [hji]; exact List.mem_cons_self), h1.input j hj, if_pos hji, hji]
        rfl
      · by_cases hm : j ∈ is
        · rw [if_pos hm, if_pos (List.mem_cons_of_mem _ hm), hsame j hm]
        · rw [if_neg hm, if_neg (by rw [List.mem_cons]; exact fun e => e.elim hji hm), h1.input j hj, if_neg hji]
    · have hg := congrArg (fun x : Sense => { x with inputs := s.sense.inputs, window := s.sense.window }) h2.rest
      exact hg.trans h1.rest
    · have hany : is.any (fun k => ((s.sweepInput i).sense.input k).empties k) = is.any (fun k => (s.sense.input k).empties k) := by
        rw [Bool.eq_iff_iff, List.any_eq_true, List.any_eq_true]
        exact exists_congr fun j => and_congr_right fun hj => by rw [hsame j hj]
      rw [List.foldl_cons, h2.window, hany, h1.window, List.any_cons]
      cases h : is.any (fun k => (s.sense.input k).empties k)
      · rw [Bool.or_false]; rfl
      · rw [Bool.or_true]; rfl

/-! ## The readers, and what follows a sweep, leave the sense unit (R113) -/

/-- The sense unit and the uptime stand. -/
structure Sensed (s t : State) : Prop where
  sense : t.sense = s.sense
  uptime : t.uptime = s.uptime

namespace Sensed

variable {s t u : State}

theorem refl : Sensed s s := ⟨rfl, rfl⟩

theorem trans (h : Sensed s t) (g : Sensed t u) : Sensed s u := ⟨g.sense.trans h.sense, g.uptime.trans h.uptime⟩

theorem of_beside (h : Beside s t) : Sensed s t := by obtain ⟨_, _, _, _, rfl⟩ := h; exact ⟨rfl, rfl⟩

theorem of_allocated (h : Allocated s t) : Sensed s t := by
  obtain ⟨_, _, _, _, _, _, rfl⟩ := h.frame; exact ⟨rfl, rfl⟩

variable (s)

theorem of_onMover (m : MoverId) (f : Mover → Mover) : Sensed s (s.onMover m f) := by cases m <;> exact ⟨rfl, rfl⟩

theorem of_onHpu (f : Hpu → Hpu) : Sensed s (s.onHpu f) := ⟨rfl, rfl⟩

theorem of_onWindlass (f : Windlass → Windlass) : Sensed s (s.onWindlass f) := ⟨rfl, rfl⟩

theorem of_returnToRest (m : MoverId) (c : Cause) : Sensed s (s.returnToRest m c) := by cases m <;> exact ⟨rfl, rfl⟩

theorem of_enterSettling (m : MoverId) (c : Cause) : Sensed s (s.enterSettling m c) := .of_onMover s m _

theorem of_hpuOff : Sensed s s.hpuOff := (of_onHpu s _).trans (.of_allocated (.of_releaseGrant _ _))

theorem of_hpuIdle : Sensed s s.hpuIdle := by
  unfold State.hpuIdle
  split
  · exact of_hpuOff s
  · exact of_onHpu s _

theorem of_givePump (m : MoverId) : Sensed s (s.givePump m) := by cases m <;> exact ⟨rfl, rfl⟩

theorem of_serveWaiter : Sensed s s.serveWaiter := by
  unfold State.serveWaiter
  split
  · exact of_hpuIdle s
  · dsimp only
    split
    · exact (of_onHpu s _).trans (of_givePump _ _)
    · exact ((of_onHpu s _).trans (of_returnToRest _ _ _)).trans (of_hpuIdle _)

theorem of_hpuReady : Sensed s s.hpuReady := by
  unfold State.hpuReady
  split
  · split
    · exact of_givePump s _
    · exact ((of_onHpu s _).trans (of_returnToRest _ _ _)).trans (of_serveWaiter _)
  · exact of_serveWaiter s

theorem of_hpuFault (c : Cause) : Sensed s (s.hpuFault c) := by
  have h1 : Sensed s (s.pumpFaulting c) := ⟨s.pumpFaulting_sense c, s.pumpFaulting_uptime c⟩
  have h2 : ∀ u : State, Sensed u u.tellHolder := fun u => by
    unfold State.tellHolder
    split
    · exact .refl
    · dsimp only
      split
      · exact (of_onHpu u _).trans (of_enterSettling _ _ _)
      · exact (of_onHpu u _).trans (of_returnToRest _ _ _)
      · exact of_onHpu u _
  have h3 : ∀ u : State, Sensed u u.tellWaiter := fun u => by
    unfold State.tellWaiter
    split
    · exact .refl
    · exact (of_onHpu u _).trans (of_returnToRest _ _ _)
  rw [State.hpuFault_eq]
  exact (h1.trans (h2 _)).trans (h3 _)

theorem of_pressureFaulted : Sensed s s.pressureFaulted := by
  unfold State.pressureFaulted
  split
  · exact .refl
  · exact of_onHpu s _
  · exact of_hpuFault s _

theorem of_moverStop (m : MoverId) (c : Cause) : Sensed s (s.moverStop m c) := ⟨s.moverStop_sense m c, s.moverStop_uptime m c⟩

theorem of_angleHasFaulted (m : MoverId) : Sensed s (s.angleHasFaulted m) := by
  have hw := of_moverStop s m .sensorFault
  unfold State.moverStop at hw
  unfold State.angleHasFaulted
  split <;> rename_i h <;> rw [h] at hw
  · exact .refl
  · exact hw
  · exact hw
  · exact of_onMover s m _
  · exact of_onMover s m _

theorem of_windlassStop (c : Cause) : Sensed s (s.windlassStop c) :=
  ⟨s.stopResource_sense .windlass c, s.windlassStop_uptime c⟩

theorem of_currentFaulted : Sensed s s.currentFaulted := by
  unfold State.currentFaulted
  split
  · exact .refl
  · exact of_windlassStop s _
  · exact of_windlassStop s _
  · exact of_onWindlass s _
  · exact of_onWindlass s _

theorem of_watchInterlock : Sensed s s.watchInterlock := by
  obtain ⟨_, _, h⟩ := s.watchInterlock_frame
  rw [h]; exact ⟨rfl, rfl⟩

theorem of_moverSweep (m : MoverId) : Sensed s (s.moverSweep m) := by
  unfold State.moverSweep
  dsimp only
  split
  · exact .refl
  · split
    · exact .refl
    · split
      · exact of_enterSettling s m _
      · split
        · exact (of_onMover s m _).trans (of_enterSettling _ m _)
        · split
          · exact (of_onMover s m _).trans (of_enterSettling _ m _)
          · exact of_onMover s m _

theorem of_hpuSweep : Sensed s s.hpuSweep := by
  unfold State.hpuSweep
  split
  · exact of_onHpu s _
  · dsimp only
    split
    · split
      · exact ⟨rfl, rfl⟩
      · exact (of_onHpu s _).trans (of_hpuFault _ _)
    · split
      · exact (of_onHpu s _).trans (of_hpuReady _)
      · exact of_onHpu s _

theorem of_windlassSweep : Sensed s s.windlassSweep := by
  unfold State.windlassSweep
  dsimp only
  split
  · split
    · exact (of_onWindlass s _).trans (of_windlassStop _ _)
    · split
      · exact (of_onWindlass s _).trans (of_windlassStop _ _)
      · exact of_onWindlass s _
  · exact .refl

theorem of_deckPass (b : State) : Sensed s (s.deckPass b) := by
  rcases s.deckPass_beside b with h | ⟨-, -, h⟩
  · exact (of_watchInterlock s).trans (.of_beside h)
  · exact ((of_watchInterlock s).trans (u := s.watchInterlock.configured) ⟨rfl, rfl⟩).trans (.of_beside h)

end Sensed

/-- The reader of an input is told where it has become FAULTED (R113). -/
def State.tellReader (s before : State) (i : Nat) (op : State → State) : State := if s.newlyFaulted before i then op s else s

theorem State.tellReaders_eq (s b : State) : s.tellReaders b = ((((s.tellReader b 3 State.pressureFaulted).tellReader b 4
    (State.angleHasFaulted · .hatch)).tellReader b 5 (State.angleHasFaulted · .platform)).tellReader b 6 State.currentFaulted) := rfl

theorem Sensed.of_tellReader {s b : State} {i : Nat} {op : State → State} (h : Sensed s (op s)) : Sensed s (s.tellReader b i op) := by
  unfold State.tellReader
  split
  · exact h
  · exact .refl

/-- A reader is told by what the sense unit has found, whatever the readers before it have done. -/
theorem State.tellReader_eq {u v b s : State} {i : Nat} {op : State → State} (h : Sensed u v) (hb : b.input i = s.input i) :
    v.tellReader b i op = if (u.input i).faulted = true ∧ (s.input i).faulted = false then op v else v := by
  have hv : v.input i = u.input i := by unfold State.input; rw [h.sense]
  unfold State.tellReader State.newlyFaulted
  rw [hv, hb]
  cases (u.input i).faulted <;> cases (s.input i).faulted <;> rfl

namespace Sensed

variable (s : State)

theorem of_tellReaders (b : State) : Sensed s (s.tellReaders b) := by
  rw [State.tellReaders_eq]
  have h3 : ∀ u : State, Sensed u (u.tellReader b 3 State.pressureFaulted) := fun u => of_tellReader (of_pressureFaulted u)
  have h4 : ∀ u : State, Sensed u (u.tellReader b 4 (State.angleHasFaulted · .hatch)) := fun u => of_tellReader (of_angleHasFaulted u .hatch)
  have h5 : ∀ u : State, Sensed u (u.tellReader b 5 (State.angleHasFaulted · .platform)) := fun u =>
    of_tellReader (of_angleHasFaulted u .platform)
  have h6 : ∀ u : State, Sensed u (u.tellReader b 6 State.currentFaulted) := fun u => of_tellReader (of_currentFaulted u)
  exact (((h3 s).trans (h4 _)).trans (h5 _)).trans (h6 _)

/-- The positions, the interlock watch and the watches of a sweep. -/
theorem of_watches (t : State) : Sensed t
    (((((t.reposition .hatch).reposition .platform).watchInterlock.moverSweep .hatch).moverSweep .platform).hpuSweep.windlassSweep) := by
  have h1 : Sensed t ((t.reposition .hatch).reposition .platform) := ⟨rfl, rfl⟩
  generalize (t.reposition .hatch).reposition .platform = u at *
  exact ((((h1.trans (of_watchInterlock u)).trans (of_moverSweep _ .hatch)).trans (of_moverSweep _ .platform)).trans (of_hpuSweep _)).trans
    (of_windlassSweep _)

/-- What follows the sense unit's own part of a sweep. -/
theorem of_sweepAll (raw : Vector Raw 8) : Sensed (s.senseSweep raw) (s.sweepAll raw) := (of_tellReaders _ s).trans (of_watches _)

end Sensed

/-! ## The sense unit's own part of a sweep (R106, R109) -/

/-- The state whose sweep timer has started again. -/
def State.sweeping (s : State) : State :=
  (s.atMoment s.sense.sweepTimer).onSense fun n => { n with sweepTimer := s.sense.sweepTimer + 10 }

theorem State.sweeping_sense (s : State) : s.sweeping.sense = { s.sense with sweepTimer := s.sense.sweepTimer + 10 } := by
  rw [State.sweeping, s.atMoment_eq]; rfl

/-- An input with a conversion (R106, R107). -/
def SenseInput.converted (x : SenseInput) (raw : Raw) : SenseInput := { x with raw := raw, scaled := x.settings.scale raw }

theorem State.convert_input (s : State) (raw : Vector Raw 8) {i : Nat} (h : i < 8) :
    (s.convert raw).sense.input (i + 1) = (s.sense.inputs[i]).converted raw[i] := by
  simp [State.convert, Sense.input, SenseInput.converted, h]

theorem State.sweepInput_uptime (s : State) (i : Nat) : (s.sweepInput i).uptime = s.uptime := by
  have h1 : (s.railCheck i).uptime = s.uptime := by
    unfold State.railCheck
    dsimp only
    split
    · split
      · split <;> rfl
      · rfl
    · split <;> rfl
  have h2 : ∀ u : State, (u.highMonitor i).uptime = u.uptime := fun u => by
    unfold State.highMonitor State.crossing
    dsimp only
    split
    · split <;> rfl
    · split
      · rw [State.offer_uptime]; rfl
      · rfl
  have h3 : ∀ u : State, (u.lowMonitor i).uptime = u.uptime := fun u => by
    unfold State.lowMonitor State.crossing
    dsimp only
    split
    · split <;> rfl
    · split
      · rw [State.offer_uptime]; rfl
      · rfl
  unfold State.sweepInput
  dsimp only
  split
  · exact h1
  · exact ((h3 _).trans (h2 _)).trans h1

theorem State.senseSweep_uptime (s : State) (raw : Vector Raw 8) : (s.senseSweep raw).uptime = s.uptime := by
  have hf : ∀ (is : List Nat) (u : State), (is.foldl State.sweepInput u).uptime = u.uptime := by
    intro is
    induction is with
    | nil => exact fun _ => rfl
    | cons i is ih => exact fun u => (ih _).trans (u.sweepInput_uptime i)
  have hs : ∀ u : State, u.supplySample.uptime = u.uptime := fun u => by
    unfold State.supplySample
    dsimp only
    split
    · rfl
    · split <;> rfl
  exact (hs _).trans (hf _ _)

/-- Every input after the sweep (R106). -/
theorem State.senseSweep_sense (s : State) (raw : Vector Raw 8) : (s.convert raw).sense.SweptAll
    ([1, 2, 3, 4, 5, 6, 7, 8].foldl State.sweepInput (s.convert raw)).sense [1, 2, 3, 4, 5, 6, 7, 8] :=
  (s.convert raw).sweepInputs_swept (by decide) (by decide)

section
variable (s : State)

theorem State.supplySample_counts (h : s.sense.phase < 4) : s.supplySample.sense = { s.sense with phase := s.sense.phase + 1 } := by
  rw [State.supplySample, if_pos h]; rfl

theorem State.supplySample_faulted (h : 4 ≤ s.sense.phase) (hf : s.supplyFaulted = true) :
    s.supplySample.sense = { s.sense with phase := 0 } := by
  have hf' : (s.onSense fun u => { u with phase := 0 }).supplyFaulted = true := hf
  rw [State.supplySample, if_neg (by omega)]
  dsimp only
  rw [if_pos hf']
  rfl

theorem State.supplySample_pushes (h : 4 ≤ s.sense.phase) (hf : s.supplyFaulted = false) :
    s.supplySample.sense = { s.sense with phase := 0, window := pushSample s.sense.window s.supplyPower } := by
  have hf' : (s.onSense fun u => { u with phase := 0 }).supplyFaulted = false := hf
  rw [State.supplySample, if_neg (by omega)]
  dsimp only
  rw [if_neg (by rw [hf']; decide)]
  rfl

theorem State.supplySample_input : s.supplySample.sense.inputs = s.sense.inputs := by
  by_cases h : s.sense.phase < 4
  · rw [s.supplySample_counts h]
  · cases hf : s.supplyFaulted
    · rw [s.supplySample_pushes (by omega) hf]
    · rw [s.supplySample_faulted (by omega) hf]

end

theorem pushSample_eq {w : List Nat} (p : Nat) (h : w.length ≤ 8) : pushSample w p = (if w.length = 8 then w.drop 1 else w) ++ [p] := by
  unfold pushSample
  split
  · rename_i h8
    rw [h8, List.drop_append_of_le_length (by omega)]
  · rw [show w.length + 1 - 8 = 0 by omega, List.drop_zero]

theorem State.supplyPower_nearest (s : State) :
    2 * ((100 * s.supplyPower : Int) - max (s.input 1).scaled 0 * max (s.input 2).scaled 0).natAbs ≤ 100 := by
  have hp : 0 ≤ max (s.input 1).scaled 0 * max (s.input 2).scaled 0 := mul_nonneg (le_max_right _ _) (le_max_right _ _)
  have hn := roundDiv_nearest (max (s.input 1).scaled 0 * max (s.input 2).scaled 0) (d := 100) (by decide)
  have hr : 0 ≤ roundDiv (max (s.input 1).scaled 0 * max (s.input 2).scaled 0) 100 := by
    have := (roundDiv_mul hp (d := 100) (by decide)).2
    generalize roundDiv (max (s.input 1).scaled 0 * max (s.input 2).scaled 0) 100 = q at *
    push_cast at this
    omega
  unfold State.supplyPower
  rw [Int.toNat_of_nonneg hr]
  push_cast at hn
  rwa [mul_comm 100 (roundDiv _ _)]

/-! ## What a swept input holds -/

section
variable {x : SenseInput} (raw : Raw)

theorem SenseInput.swept_faulted (x : SenseInput) : x.swept.faulted = x.railed.faulted := by
  unfold SenseInput.swept
  split <;> rfl

theorem SenseInput.swept_rest (x : SenseInput) : x.swept.settings = x.settings ∧ x.swept.raw = x.raw ∧ x.swept.scaled = x.scaled
    ∧ x.swept.railCount = x.railed.railCount := by
  have h : x.railed.settings = x.settings ∧ x.railed.raw = x.raw ∧ x.railed.scaled = x.scaled := by
    unfold SenseInput.railed; split <;> exact ⟨rfl, rfl, rfl⟩
  obtain ⟨h1, h2, h3⟩ := h
  unfold SenseInput.swept
  split
  · exact ⟨h1, h2, h3, rfl⟩
  · exact ⟨h1, h2, h3, rfl⟩

theorem SenseInput.swept_counts (x : SenseInput) : x.swept.railCount = if x.atRail = true then min (x.railCount + 1) 5 else 0 := by
  rw [x.swept_rest.2.2.2, SenseInput.railed]
  split <;> rfl

theorem SenseInput.swept_faulted_iff (x : SenseInput) : x.swept.faulted = true ↔ x.atRail = true ∧ (x.faulted = true ∨ 4 ≤ x.railCount) := by
  rw [x.swept_faulted, SenseInput.railed]
  by_cases h : x.atRail = true
  · rw [if_pos h]; simp [h]
  · rw [if_neg h]; simp [h]

theorem SenseInput.railed_marks (x : SenseInput) : x.railed.highTripped = x.highTripped ∧ x.railed.lowTripped = x.lowTripped
    ∧ x.railed.settings = x.settings ∧ x.railed.scaled = x.scaled := by
  unfold SenseInput.railed; split <;> exact ⟨rfl, rfl, rfl, rfl⟩

theorem SenseInput.swept_held (x : SenseInput) (h : x.swept.faulted = true) :
    x.swept.highTripped = x.highTripped ∧ x.swept.lowTripped = x.lowTripped := by
  rw [x.swept_faulted] at h
  rw [SenseInput.swept, if_pos h]
  exact ⟨x.railed_marks.1, x.railed_marks.2.1⟩

theorem SenseInput.swept_watched (x : SenseInput) (h : x.swept.faulted = false) :
    (x.swept.highTripped = true ↔ if x.highTripped = true then x.settings.highLimit - x.settings.hysteresis ≤ x.scaled
        else x.settings.highLimit < x.scaled)
      ∧ (x.swept.lowTripped = true ↔ if x.lowTripped = true then x.scaled ≤ x.settings.lowLimit + x.settings.hysteresis
        else x.scaled < x.settings.lowLimit) := by
  obtain ⟨h1, h2, h3, h4⟩ := x.railed_marks
  rw [x.swept_faulted] at h
  rw [SenseInput.swept, if_neg (by rw [h]; decide), SenseInput.monitored, h1, h2, h3, h4]
  constructor
  · cases x.highTripped <;> simp
  · cases x.lowTripped <;> simp

end

/-- The input of a number after the sense unit's part of a sweep. -/
theorem State.senseSweep_input (s : State) (raw : Vector Raw 8) {i : Nat} (h : i < 8) :
    (s.senseSweep raw).sense.input (i + 1) = ((s.sense.inputs[i]).converted raw[i]).swept := by
  have hm : i + 1 ∈ [1, 2, 3, 4, 5, 6, 7, 8] := by simp only [List.mem_cons, List.not_mem_nil, or_false]; omega
  have hs : (s.senseSweep raw).sense.input (i + 1) = ([1, 2, 3, 4, 5, 6, 7, 8].foldl State.sweepInput (s.convert raw)).sense.input (i + 1) := by
    unfold Sense.input State.senseSweep
    rw [State.supplySample_input]
  rw [hs, (s.senseSweep_sense raw).input _ (by omega), if_pos hm, s.convert_input raw h]

theorem Sense.input_succ (u : Sense) {i : Nat} (h : i < 8) : u.inputs[i] = u.input (i + 1) := by simp [Sense.input, h]

/-- Whether an input becomes FAULTED in a sweep is seen by its mark before and after. -/
theorem SenseInput.empties_iff (x : SenseInput) {i : Nat} (hi : i ≤ 2) : x.empties i = true ↔ x.swept.faulted = true ∧ x.faulted = false := by
  rw [SenseInput.empties, x.swept_faulted, decide_eq_true hi]
  simp

/-- The window before the sample of a sweep. -/
theorem State.senseSweep_window (s : State) (raw : Vector Raw 8) :
    ([1, 2, 3, 4, 5, 6, 7, 8].foldl State.sweepInput (s.convert raw)).sense.window =
      if (((s.senseSweep raw).sense.input 1).faulted = true ∧ (s.input 1).faulted = false)
        ∨ (((s.senseSweep raw).sense.input 2).faulted = true ∧ (s.input 2).faulted = false) then [] else s.sense.window := by
  have h1 := (((s.sense.inputs[0]).converted raw[0])).empties_iff (i := 1) (by decide)
  have h2 := (((s.sense.inputs[1]).converted raw[1])).empties_iff (i := 2) (by decide)
  have hany : [1, 2, 3, 4, 5, 6, 7, 8].any (fun k => ((s.convert raw).sense.input k).empties k)
      = (((s.convert raw).sense.input 1).empties 1 || ((s.convert raw).sense.input 2).empties 2) := by
    simp [SenseInput.empties]
  rw [(s.senseSweep_sense raw).window, hany, s.convert_input raw (i := 0) (by decide), s.convert_input raw (i := 1) (by decide),
    s.senseSweep_input raw (i := 0) (by decide), s.senseSweep_input raw (i := 1) (by decide)]
  refine if_congr ?_ rfl rfl
  rw [Bool.or_eq_true, h1, h2]
  exact Iff.rfl

end Sys2Proof.Machine

namespace Sys2Proof.Proofs

open Sys2Proof.Machine

/-- Settles O39: each input's part of a sweep is that of the input alone, and what follows leaves the sense unit. -/
theorem sweepConverts : Obligations.SweepConverts := by
  refine ⟨fun s raw => ?_, ?_, ?_⟩
  · have hkeep : Sensed (s.sweeping.senseSweep raw) ((s.sweeping.sweepAll raw).deckPass s) := (Sensed.of_sweepAll _ raw).trans (.of_deckPass _ s)
    have hrest := (s.sweeping.senseSweep_sense raw).rest
    have hwin := s.sweeping.senseSweep_window raw
    have hsample : (s.sweeping.senseSweep raw).sense
        = ([1, 2, 3, 4, 5, 6, 7, 8].foldl State.sweepInput (s.sweeping.convert raw)).supplySample.sense := rfl
    have hinput : (s.sweeping.senseSweep raw).sense.inputs
        = ([1, 2, 3, 4, 5, 6, 7, 8].foldl State.sweepInput (s.sweeping.convert raw)).sense.inputs := by
      rw [hsample, State.supplySample_input]
    generalize [1, 2, 3, 4, 5, 6, 7, 8].foldl State.sweepInput (s.sweeping.convert raw) = v at hrest hwin hsample hinput
    have hphase : v.sense.phase = s.sense.phase := (congrArg Sense.phase hrest :).trans (by
      show s.sweeping.sense.phase = _; rw [s.sweeping_sense])
    have htimer : v.sense.sweepTimer = s.sense.sweepTimer + 10 := (congrArg Sense.sweepTimer hrest :).trans (by
      show s.sweeping.sense.sweepTimer = _; rw [s.sweeping_sense])
    have hin : ∀ i, ((s.sweeping.sweepAll raw).deckPass s).input i = v.input i := fun i => by
      unfold State.input; rw [hkeep.sense, hinput]
    have hsup : v.supplyFaulted = ((v.input 1).faulted || (v.input 2).faulted) := rfl
    refine ⟨(s.sweeping.sweepAll raw).deckPass s, rfl, ?_, ?_, fun i h x y hx hy => ?_, fun h => ?_, fun h => ?_, fun w hw => ?_⟩
    · rw [hkeep.sense, hsample]
      by_cases h : v.sense.phase < 4
      · rw [v.supplySample_counts h]; exact htimer
      · cases hf : v.supplyFaulted
        · rw [v.supplySample_pushes (by omega) hf]; exact htimer
        · rw [v.supplySample_faulted (by omega) hf]; exact htimer
    · rw [hkeep.uptime]
      exact s.sweeping.senseSweep_uptime raw
    · have hz : s.sweeping.sense.inputs[i] = x := by rw [hx, s.sweeping.sense.input_succ h, s.sense.input_succ h, s.sweeping_sense]; rfl
      have hy' : y = (x.converted raw[i]).swept := by
        rw [hy, Sense.input_succ _ h, hkeep.sense, s.sweeping.senseSweep_input raw h, hz]
      obtain ⟨r1, r2, r3, -⟩ := (x.converted raw[i]).swept_rest
      rw [hy']
      refine ⟨r1, r2, ?_, ?_, ?_, fun hf => (x.converted raw[i]).swept_held hf, fun hf => ?_⟩
      · rw [r3]
        have hn := roundDiv_nearest (raw[i].toNat * (x.settings.high - x.settings.low)) (d := 4095) (by decide)
        have he : (x.converted raw[i]).scaled = x.settings.low + roundDiv (raw[i].toNat * (x.settings.high - x.settings.low)) 4095 := rfl
        rw [he, add_sub_cancel_left]
        push_cast at hn
        rwa [mul_comm 4095 (roundDiv _ _)]
      · rw [SenseInput.swept_counts]
        exact if_congr SenseInput.atRail_iff rfl rfl
      · rw [SenseInput.swept_faulted_iff, SenseInput.atRail_iff]; exact Iff.rfl
      · have := (x.converted raw[i]).swept_watched hf
        rw [r3]; exact this
    · rw [hkeep.sense, hsample, v.supplySample_counts (by omega), hphase]
    · rw [hkeep.sense, hsample]
      cases hf : v.supplyFaulted
      · rw [v.supplySample_pushes (by omega) hf]
      · rw [v.supplySample_faulted (by omega) hf]
    · have hvw : v.sense.window = w := by
        have hi : ∀ i, s.sweeping.input i = s.input i := fun i => by unfold State.input; rw [s.sweeping_sense]
        have hi' : ∀ i, (s.sweeping.senseSweep raw).sense.input i = v.input i := fun i => by unfold State.input Sense.input; rw [hinput]
        rw [hw, hwin, hin, hin, hi, hi, hi', hi', s.sweeping_sense]
      rw [hin, hin, hkeep.sense, hsample]
      refine ⟨fun h => ?_, fun h h1 h2 hl => ?_⟩
      · by_cases hp : v.sense.phase < 4
        · rw [v.supplySample_counts hp]; exact hvw
        · have hf : v.supplyFaulted = true := by
            rw [hsup]
            rcases h with h | h | h
            · omega
            · rw [h]; rfl
            · rw [h, Bool.or_true]
          rw [v.supplySample_faulted (by omega) hf]; exact hvw
      · have hf : v.supplyFaulted = false := by rw [hsup, h1, h2]; rfl
        have hlen : w.length ≤ 8 := by rw [hw]; split <;> simp [hl]
        rw [v.supplySample_pushes (by omega) hf]
        exact ⟨v.supplyPower, by rw [hvw]; exact pushSample_eq _ hlen, v.supplyPower_nearest⟩
  · intro s raw u a b c d hu ha hb hc hd
    have hin : ∀ i, s.sweeping.input i = s.input i := fun i => by unfold State.input; rw [s.sweeping_sense]
    have hsa := Sensed.of_tellReader (b := s.sweeping) (i := 3) (Sensed.of_pressureFaulted u)
    have ea : u.tellReader s.sweeping 3 State.pressureFaulted = a := (State.tellReader_eq .refl (hin 3)).trans ha.symm
    rw [ea] at hsa
    have hsb := hsa.trans (Sensed.of_tellReader (b := s.sweeping) (i := 4) (op := (State.angleHasFaulted · .hatch)) (Sensed.of_angleHasFaulted a .hatch))
    have eb : a.tellReader s.sweeping 4 (State.angleHasFaulted · .hatch) = b := (State.tellReader_eq hsa (hin 4)).trans hb.symm
    rw [eb] at hsb
    have hsc := hsb.trans (Sensed.of_tellReader (b := s.sweeping) (i := 5) (op := (State.angleHasFaulted · .platform)) (Sensed.of_angleHasFaulted b .platform))
    have ec : b.tellReader s.sweeping 5 (State.angleHasFaulted · .platform) = c := (State.tellReader_eq hsb (hin 5)).trans hc.symm
    rw [ec] at hsc
    have ed : c.tellReader s.sweeping 6 State.currentFaulted = d := (State.tellReader_eq hsc (hin 6)).trans hd.symm
    have hx : (s.sweeping.senseSweep raw).tellReaders s.sweeping = d := by
      rw [State.tellReaders_eq, ← ed, ← ec, ← eb, ← ea, hu]; rfl
    rw [← hx]
    rfl
  · rintro s i x h1 h8 rfl
    have hi : 1 ≤ i ∧ i ≤ 8 := ⟨h1, h8⟩
    have hrail : (s.input i).raw = 0 ∨ (s.input i).raw = 4095 → (s.input i).atRail = true := SenseInput.atRail_iff.mpr
    have hoff : (s.input i).raw ≠ 0 → (s.input i).raw ≠ 4095 → (s.input i).atRail = false := fun a b =>
      Bool.eq_false_iff.mpr fun e => (SenseInput.atRail_iff.mp e).elim a b
    refine ⟨fun hr h => s.railCheck_counts (hrail hr) h, fun hr hf h => s.railCheck_faults hi (hrail hr) hf h,
      fun a b hf => s.railCheck_steady (hoff a b) hf, fun a b hf => s.railCheck_clears hi (hoff a b) hf, fun h => ?_, fun h => ?_,
      fun h g => ?_, fun h g => ?_, fun h g => ?_, fun h g => ?_, fun h g => ?_, fun h g => ?_, fun h g => ?_, fun h g => ?_⟩
    · exact if_pos h
    · exact if_neg (by rw [h]; decide)
    · rw [s.highMonitor_armed h, if_neg (by omega)]
    · rw [s.highMonitor_armed h, if_pos g]
    · rw [s.highMonitor_tripped h, if_neg (by omega)]
    · rw [s.highMonitor_tripped h, if_pos g]
    · rw [s.lowMonitor_armed h, if_neg (by omega)]
    · rw [s.lowMonitor_armed h, if_pos g]
    · rw [s.lowMonitor_tripped h, if_neg (by omega)]
    · rw [s.lowMonitor_tripped h, if_pos g]

end Sys2Proof.Proofs
end

section
/-!
PROOFS. The arbiter and the bytes of a transaction (R3 to R8, R10, R19, R23): O52.
-/

namespace Sys2Proof.Machine

/-! ## The arbiter (R19) -/

theorem firstIndex_none {p : Entry → Bool} {q : List Entry} :
    firstIndex p q = none ↔ ∀ x ∈ q, x.inFlight = false → p x = false := by
  unfold firstIndex
  rw [List.findIdx?_eq_none_iff]
  refine forall₂_congr fun x _ => ?_
  cases p x <;> cases x.inFlight <;> simp

theorem firstIndex_some {p : Entry → Bool} {q : List Entry} {i : Nat} (h : firstIndex p q = some i) :
    ∃ e, q[i]? = some e ∧ p e = true ∧ e.inFlight = false
      ∧ ∀ j x, j < i → q[j]? = some x → x.inFlight = false → p x = false := by
  unfold firstIndex at h
  obtain ⟨hi, hp, hb⟩ := List.findIdx?_eq_some_iff_getElem.mp h
  rw [Bool.and_eq_true, Bool.not_eq_true'] at hp
  refine ⟨q[i], List.getElem?_eq_getElem hi, hp.1, hp.2, fun j x hj hx hf => ?_⟩
  obtain ⟨hjl, rfl⟩ := List.getElem?_eq_some_iff.mp hx
  have := hb j hj
  simpa [hf] using this

/-- The choices of the arbiter, in their order. -/
theorem arbitrate_some {now : Uptime} {q : List Entry} {i : Nat} (h : arbitrate now q = some i) :
    firstIndex (·.retry) q = some i
      ∨ firstIndex (·.retry) q = none ∧ (firstIndex (fun e => e.cls = .a) q = some i
        ∨ firstIndex (fun e => e.cls = .a) q = none ∧ (firstIndex (Entry.aged now) q = some i
          ∨ firstIndex (Entry.aged now) q = none ∧ (firstIndex (fun e => e.cls = .b) q = some i
            ∨ firstIndex (fun e => e.cls = .b) q = none ∧ firstIndex (fun e => e.cls = .c) q = some i))) := by
  unfold arbitrate at h
  simpa only [Option.orElse_eq_some] using h

theorem arbitrate_none {now : Uptime} {q : List Entry} (h : arbitrate now q = none) : ∀ x ∈ q, x.inFlight = true := by
  unfold arbitrate at h
  simp only [Option.orElse_eq_none, firstIndex_none] at h
  obtain ⟨-, ha, -, hb, hc⟩ := h
  intro x hx
  by_contra hf
  have hf := Bool.eq_false_iff.mpr hf
  have h1 := ha x hx hf
  have h2 := hb x hx hf
  have h3 := hc x hx hf
  cases hcls : x.cls <;> simp [hcls] at h1 h2 h3

theorem Entry.aged_iff {now : Uptime} {e : Entry} : e.aged now = true ↔ e.cls = .c ∧ 500 < (now - e.queued).toNat := decide_eq_true_iff

theorem Entry.aged_false {now : Uptime} {e : Entry} (h : e.aged now = false) (hc : e.cls = .c) : (now - e.queued).toNat ≤ 500 := by
  by_contra hn
  rw [Entry.aged_iff.mpr ⟨hc, by omega⟩] at h
  cases h

/-! ## The bytes of a transaction (R3 to R8) -/

theorem testBit_leNatBits (bs : List Bool) (i : Nat) : (bitmap.leNatBits bs).testBit i = (bs[i]?).getD false := by
  induction bs generalizing i with
  | nil => simp [bitmap.leNatBits]
  | cons b bs ih =>
    cases i with
    | zero => cases b <;> simp [bitmap.leNatBits, Nat.testBit_zero]
    | succ i =>
      rw [Nat.testBit_succ]
      have : ((if b = true then 1 else 0) + 2 * bitmap.leNatBits bs) / 2 = bitmap.leNatBits bs := by cases b <;> simp; omega
      show Nat.testBit (((if b = true then 1 else 0) + 2 * bitmap.leNatBits bs) / 2) i = _
      rw [this, ih]
      rfl

/-- A byte is the bitmap of its bits. -/
theorem bitmap_eq {flags : List Bool} {bits : Byte} (h : ∀ i : Fin 8, bits.getLsbD i = (flags[i.val]?).getD false) : bitmap flags = bits := by
  refine BitVec.eq_of_getLsbD_eq fun i hi => ?_
  rw [bitmap, BitVec.getLsbD_ofNat, decide_eq_true hi, Bool.true_and, testBit_leNatBits]
  exact (h ⟨i, hi⟩).symm

/-- The output of a node that a channel names, or 0 (R8). -/
def State.outputAt (s : State) (a i : Nat) : Nat :=
  ((s.channels.find? fun c => c.cfg.node = a ∧ c.cfg.index = i + 1).map fun c => min c.current c.ceiling).getD 0

section
variable {s : State} {e : Entry} {r : NodeRecord}

theorem State.carriedBy_levels (hk : e.kind = .levels) (hr : s.node e.target = some r) :
    s.carriedBy e = .levels (s.nodeOutputs e.target r.type.outputs) := by
  unfold State.carriedBy; rw [hk, hr]; rfl

theorem State.wireOf_levels (hk : e.kind = .levels) (hr : s.node e.target = some r) : s.wireOf e =
    writeBytes e.target .levels (levelBytes r.type (s.nodeOutputs e.target r.type.outputs)) := by
  unfold State.wireOf State.writeData
  rw [State.carriedBy_levels hk hr, hk, hr]
  rfl

theorem State.wireOf_lamps {t : Station} (hk : e.kind = .lamps) (ht : s.station e.target = some t) :
    s.carriedBy e = .lamps (s.lampsOf t) ∧ s.wireOf e = writeBytes e.target .lamps (lampBytes (s.lampsOf t)) := by
  have hc : s.carriedBy e = .lamps (s.lampsOf t) := by unfold State.carriedBy; rw [hk, ht]
  refine ⟨hc, ?_⟩
  unfold State.wireOf State.writeData
  rw [hc, hk]
  rfl

end

theorem writeBytes_eq (target : Nat) (kind : TxKind) (data : List Byte) {body : List Byte}
    (h : body = BitVec.ofNat 8 target :: BitVec.ofNat 8 kind.code :: data) : writeBytes target kind data = body ++ [crc8 body] := by
  rw [h]
  have : headByte false target = BitVec.ofNat 8 target := congrArg (BitVec.ofNat 8) (Nat.zero_add target)
  unfold writeBytes
  rw [this]

theorem writeBytes_release : writeBytes 0 .release [] = [0x00, 0x08, 0xEF] := by decide +kernel

theorem changeAt_append (f : Entry → Entry) (before : List Entry) (e : Entry) (after_ : List Entry) :
    changeAt before.length f (before ++ e :: after_) = before ++ f e :: after_ := by
  unfold changeAt
  induction before with
  | nil => rfl
  | cons x xs ih => exact congrArg (x :: ·) ih

section
variable {s : State}

theorem exec_openTransaction (h : s.bus.state = .idle) : exec (.openTransaction true true) s = .next
    (if s.bus.pendingRelease then
        s.open_ (writeBytes 0 .release []) .none fun b => { b with pendingRelease := false, releaseOpen := true }
      else (arbitrate s.uptime s.bus.queue).elim s fun i => (s.bus.queue[i]?).elim s fun e =>
        s.open_ (s.wireOf e) (s.carriedBy e) fun b => { b with queue := changeAt i (fun e => { e with inFlight := true }) b.queue }) := by
  show execOpenTransaction true true s = _
  unfold execOpenTransaction
  rw [if_neg (by rw [h]; decide)]
  cases arbitrate s.uptime s.bus.queue with
  | none => rfl
  | some i =>
    dsimp only [Option.elim]
    cases s.bus.queue[i]? <;> rfl

end

end Sys2Proof.Machine

namespace Sys2Proof.Proofs

open Sys2Proof.Machine

/-- Settles O52: the arbiter's choices in their order, and the bytes of each kind of entry. -/
theorem transactionOpens : Obligations.TransactionOpens := by
  refine ⟨fun s => ⟨fun a b h => ?_, fun h hp => ?_, fun h hp hq => ?_, fun before e after_ h hp hq ha => ?_⟩, fun now q => ⟨fun i h => ?_, arbitrate_none⟩⟩
  · exact congrArg Host.Outcome.next (if_pos h)
  · rw [exec_openTransaction h, if_pos hp, writeBytes_release]; rfl
  · rw [exec_openTransaction h, if_neg (by rw [hp]; decide), hq]; rfl
  · refine ⟨s.wireOf e, s.carriedBy e, ?_, fun hk => ?_, fun hk => ?_, fun hk body hb => ?_, fun a n hk hn body hb => ?_,
      fun r hk hr ht => ?_, fun r hk hr ht => ?_, fun r hk hr ht => ?_, fun t hk ht => ?_, fun hk ht => ?_⟩
    · rw [exec_openTransaction h, if_neg (by rw [hp]; decide), ha]
      have he : s.bus.queue[before.length]? = some e := by rw [hq, List.getElem?_append_right (Nat.le_refl _), Nat.sub_self]; rfl
      dsimp only [Option.elim]
      rw [he]
      have hc := changeAt_append (fun e => { e with inFlight := true }) before e after_
      rw [← hq] at hc
      exact congrArg (fun q => Host.Outcome.next (s.onBus fun b => { b with
        state := .own, openedAt := s.uptime, wire := s.wireOf e, carried := s.carriedBy e, flightRate := b.settings.rate, queue := q })) hc
    · unfold State.wireOf; rw [hk]; rfl
    · unfold State.wireOf; rw [hk]; rfl
    · unfold State.wireOf State.writeData
      rw [hk]
      refine writeBytes_eq e.target .setup _ ?_
      rw [hb]; cases s.bus.settings.fallback <;> rfl
    · unfold State.wireOf State.writeData
      rw [hk, hn]
      exact writeBytes_eq e.target .assign _ hb
    · refine ⟨fun i => s.outputAt e.target i, fun i => rfl, ?_, fun body hb => ?_⟩
      · rw [State.carriedBy_levels hk hr, ht]; rfl
      · rw [State.wireOf_levels hk hr, ht]
        exact writeBytes_eq e.target .levels _ hb
    · refine ⟨fun i => s.outputAt e.target i, fun i => rfl, ?_, fun body hb => ?_⟩
      · rw [State.carriedBy_levels hk hr, ht]; rfl
      · rw [State.wireOf_levels hk hr, ht]
        exact writeBytes_eq e.target .levels _ hb
    · refine ⟨fun i => s.outputAt e.target i, fun i => rfl, ?_, fun bits body hbits hb => ?_⟩
      · rw [State.carriedBy_levels hk hr, ht]; rfl
      · have hm : bitmap ((s.nodeOutputs e.target 8).map fun p => decide (p.2 = 1000)) = bits := bitmap_eq fun i => (hbits i).trans (by
          fin_cases i <;> rfl)
        rw [State.wireOf_levels hk hr, ht]
        refine writeBytes_eq e.target .levels _ ?_
        rw [hb, ← hm]; rfl
    · obtain ⟨h1, h2⟩ := State.wireOf_lamps hk ht
      refine ⟨h1, fun code body hc hb => ?_⟩
      have hcode : ∀ i : Fin 8, code i = (s.lampsOf t)[i].code := fun i => by rw [hc i]; cases (s.lampsOf t)[i] <;> rfl
      rw [h2]
      refine writeBytes_eq e.target .lamps _ ?_
      rw [hb]
      simp only [hcode]
      rfl
    · unfold State.wireOf State.writeData
      rw [hk, ht]
      exact writeBytes_release
  · rcases arbitrate_some h with h1 | ⟨n1, h2 | ⟨n2, h3 | ⟨n3, h4 | ⟨n4, h5⟩⟩⟩⟩
    · obtain ⟨e, he, hp, hf, hb⟩ := firstIndex_some h1
      have hno : ¬ e.retry = false := by rw [hp]; decide
      exact ⟨e, he, hf, fun h => absurd h hno, fun h => absurd h hno, fun h => absurd h hno, fun h => absurd h hno,
        fun j x hj hx hxf hr hc => absurd (hb j x hj hx hxf) (by rw [hr, hp]; decide)⟩
    · obtain ⟨e, he, hp, hf, hb⟩ := firstIndex_some h2
      have hp : e.cls = .a := of_decide_eq_true hp
      exact ⟨e, he, hf, fun _ => firstIndex_none.mp n1, fun _ h => absurd hp h,
        fun _ h => (by rcases h with h | ⟨h, -⟩ <;> rw [hp] at h <;> cases h), fun _ h => (by rw [hp] at h; cases h),
        fun j x hj hx hxf hr hc => absurd (hb j x hj hx hxf) (by rw [hc, hp]; decide)⟩
    · obtain ⟨e, he, hp, hf, hb⟩ := firstIndex_some h3
      obtain ⟨hcls, hage⟩ := Entry.aged_iff.mp hp
      have hret : e.retry = false := firstIndex_none.mp n1 e (List.mem_of_getElem? he) hf
      exact ⟨e, he, hf, fun _ => firstIndex_none.mp n1, fun _ _ x hx hxf => of_decide_eq_false (firstIndex_none.mp n2 x hx hxf),
        fun _ h => (by rcases h with h | ⟨-, h⟩; · rw [hcls] at h; cases h
                       · omega), fun _ _ h => absurd hage (by omega),
        fun j x hj hx hxf hr hc => ⟨hret, hcls, hage, Entry.aged_false (hb j x hj hx hxf) (hc.trans hcls)⟩⟩
    · obtain ⟨e, he, hp, hf, hb⟩ := firstIndex_some h4
      have hp : e.cls = .b := of_decide_eq_true hp
      exact ⟨e, he, hf, fun _ => firstIndex_none.mp n1, fun _ _ x hx hxf => of_decide_eq_false (firstIndex_none.mp n2 x hx hxf),
        fun _ _ x hx hxf hc => Entry.aged_false (firstIndex_none.mp n3 x hx hxf) hc, fun _ h => (by rw [hp] at h; cases h),
        fun j x hj hx hxf hr hc => absurd (hb j x hj hx hxf) (by rw [hc, hp]; decide)⟩
    · obtain ⟨e, he, hp, hf, hb⟩ := firstIndex_some h5
      have hp : e.cls = .c := of_decide_eq_true hp
      exact ⟨e, he, hf, fun _ => firstIndex_none.mp n1, fun _ _ x hx hxf => of_decide_eq_false (firstIndex_none.mp n2 x hx hxf),
        fun _ _ x hx hxf hc => Entry.aged_false (firstIndex_none.mp n3 x hx hxf) hc,
        fun _ _ _ x hx hxf => of_decide_eq_false (firstIndex_none.mp n4 x hx hxf),
        fun j x hj hx hxf hr hc => absurd (hb j x hj hx hxf) (by rw [hc, hp]; decide)⟩

end Sys2Proof.Proofs
end

section
/-!
PROOFS. The end of a transaction, other parties, RECOVERY and key reports (R10 to R16, R20 to R22, R33, R34): O53, O54, O55.
-/

namespace Sys2Proof.Machine

/-! ## The end of a transaction to an ACTIVE record (R16, R20, R33, R34) -/

/-- The bus when its transaction has ended (R10, R20). -/
def Bus.ended (b : Bus) (e : Entry) (now : Uptime) : Bus :=
  { b with
    state := .idle, wire := [], carried := .none, releaseOpen := false
    queue := b.queue.filter (fun x => !x.inFlight)
      ++ (if e.followUp then [{ e with inFlight := false, retry := false, followUp := false, queued := now }] else []) }

/-- A transaction in flight, asked for by the channel engine or the ownership unit, to an ACTIVE record that no enrolment holds. -/
structure State.Flies (s : State) (e : Entry) (r : NodeRecord) : Prop where
  flying : s.bus.flying = some e
  enrol : e.enrol = false
  node : s.node e.target = some r
  active : r.state = .active
  hold : r.enrolHold = false
  kind : e.kind = .levels ∨ e.kind = .lamps

section
variable {s : State} {e : Entry} {r : NodeRecord}

theorem State.Flies.addr (h : s.Flies e r) : r.addr = e.target := (tableGet_eq_some_imp NodeRecord.addr h.node).2

theorem State.Flies.not_release (h : s.Flies e r) : e.kind ≠ .release := by rcases h.kind with k | k <;> rw [k] <;> decide

theorem State.Flies.applyStep (h : s.Flies e r) (t : State) (o : TxOutcome) (d : Delivered) : t.applyStep r e.kind o d = t := by
  unfold State.applyStep
  rw [h.active]
  rcases h.kind with k | k <;> rw [k]

theorem State.Flies.outcome (h : s.Flies e r) (o : TxOutcome) (d : Delivered) :
    s.nodeOutcome e.kind e.target o d =
      if o.isFailure = true then (if o = .done then s.seen e.target else s).missed r o else if o = .done then s.seen e.target else s := by
  unfold State.nodeOutcome
  rw [h.node]
  dsimp only
  rw [if_neg (by rw [h.hold, h.active]; rintro (h | h) <;> cases h), h.applyStep, h.applyStep]

theorem retireEntry_flying {b : Bus} (now : Uptime) (h : b.flying = some e) : retireEntry now b.queue = (b.ended e now).queue := by
  unfold Bus.flying at h
  unfold retireEntry
  rw [h]
  dsimp only [Bus.ended]
  split
  · rfl
  · rw [List.append_nil]

/-- The end of a transaction that leaves the bus to its close. -/
theorem State.Flies.ends (h : s.Flies e r) {o : TxOutcome} {d : Delivered} {u : State}
    (hu : (s.nodeOutcome e.kind e.target o d).deliverValues e.target o s.bus.carried = u) (hb : u.bus = s.bus) (ht : u.uptime = s.uptime) :
    s.endTransaction o d = { u with bus := s.bus.ended e s.uptime } := by
  have hd : s.deliver e o d s.bus.carried = u := by
    unfold State.deliver
    dsimp only
    rw [if_neg (fun g => h.not_release g.1), if_neg (by rw [h.enrol]; decide), hu]
  unfold State.endTransaction
  rw [h.flying]
  dsimp only
  rw [hd]
  have hx : ({ u.bus.close with queue := retireEntry u.uptime u.bus.queue } : Bus) = s.bus.ended e s.uptime := by
    rw [hb, ht, retireEntry_flying _ h.flying]; rfl
  exact congrArg (fun b => { u with bus := b }) hx

/-- A record that has been seen (R33). -/
def State.seenNodes (s : State) (a : Nat) : List NodeRecord := s.nodes.map fun n =>
  if n.addr = a then { n with lastSeen := s.uptime, misses := if n.state = .active then 0 else n.misses } else n

theorem State.Flies.done_levels (h : s.Flies e r) {outs : List (Nat × Nat)} (hc : s.bus.carried = .levels outs) :
    s.endTransaction .done .nothing = { s with
      nodes := s.seenNodes e.target
      channels := s.channels.map fun c => if c.cfg.node = e.target then
        (match outs.find? (fun p => p.1 == c.cfg.index) with | some p => { c with lastSent := some p.2 } | none => c) else c
      bus := s.bus.ended e s.uptime } := by
  have hu : (s.nodeOutcome e.kind e.target .done .nothing).deliverValues e.target .done s.bus.carried
      = (s.seen e.target).levelsSent e.target outs := by
    rw [h.outcome, hc]; rfl
  exact (h.ends hu rfl rfl).trans rfl

theorem State.Flies.done_lamps (h : s.Flies e r) {lamps : Vector Lamp 8} (hc : s.bus.carried = .lamps lamps) :
    s.endTransaction .done .nothing = { s with
      nodes := s.seenNodes e.target
      stations := s.stations.map fun t => if t.addr = e.target then { t with delivered := some lamps } else t
      bus := s.bus.ended e s.uptime } := by
  have hu : (s.nodeOutcome e.kind e.target .done .nothing).deliverValues e.target .done s.bus.carried
      = (s.seen e.target).onStation e.target fun t => { t with delivered := some lamps } := by
    rw [h.outcome, hc]; rfl
  exact (h.ends hu rfl rfl).trans rfl

theorem State.Flies.failed (h : s.Flies e r) {o : TxOutcome} (ho : o.isFailure = true) (c : Carried) :
    (s.nodeOutcome e.kind e.target o .nothing).deliverValues e.target o c = s.missed r o := by
  have hd : ¬ o = .done := fun g => by rw [g] at ho; cases ho
  rw [h.outcome, if_pos ho, if_neg hd]
  exact if_neg hd

theorem State.Flies.missed (h : s.Flies e r) {o : TxOutcome} (ho : o.isFailure = true) (hm : r.misses < 2) :
    s.endTransaction o .nothing = { s with
      nodes := s.nodes.map fun n => if n.addr = e.target then { n with misses := r.misses + 1 } else n
      bus := s.bus.ended e s.uptime } := by
  have hu := h.failed ho s.bus.carried
  rw [State.missed, if_pos h.active, if_neg (by omega)] at hu
  exact (h.ends hu rfl rfl).trans (by rw [h.addr]; rfl)

theorem State.Flies.lost (h : s.Flies e r) {o : TxOutcome} (ho : o.isFailure = true) (hm : 2 ≤ r.misses) (ht : r.type ≠ .station) :
    s.endTransaction o .nothing = { s with
      nodes := s.nodes.map fun n => if n.addr = r.addr then
        { n with state := .lost, misses := 3, returnFlag := true, pollTimer := none
                 retryTimer := some (s.uptime + 1000), held := 0 } else n
      channels := s.channels.map fun c => if c.cfg.node = r.addr ∧ c.cfg.kind = .blind then { c with moving := false } else c
      link := s.link.post ⟨.nodeLost, r.addr, [BitVec.ofNat 8 o.code], s.uptime⟩
      bus := s.bus.ended e s.uptime } := by
  have hu := h.failed ho s.bus.carried
  rw [State.missed, if_pos h.active, if_pos (by omega), State.enterLost] at hu
  rw [if_neg ht] at hu
  exact (h.ends hu rfl rfl).trans rfl

end

end Sys2Proof.Machine

namespace Sys2Proof.Proofs

open Sys2Proof.Machine

/-- Settles O53: the outcome reaches the record, the values their block, and the entry leaves or rejoins. -/
theorem transactionsEnd : Obligations.TransactionsEnd := by
  intro s e r b hown hfly henrol htarget hnode hactive hhold hb
  have hb : b = s.bus.ended e s.uptime := hb
  have hflies : e.kind = .levels ∨ e.kind = .lamps → s.Flies e r := fun h => ⟨hfly, henrol, hnode, hactive, hhold, h⟩
  have hread : e.kind = .levels ∨ e.kind = .lamps → e.kind.isRead = false := fun h => by rcases h with h | h <;> rw [h] <;> rfl
  have hexec : ∀ (a : TargetAnswer) (o : TxOutcome), s.outcomeOf e.kind e.target a = (o, .nothing) →
      exec (.transactionEnd a) s = .next ((s.endTransaction o .nothing).deckPass s) := fun a o ho => by
    refine State.deckEvent_eq ?_
    unfold State.transactionEnd
    rw [if_neg (not_not.mpr hown), hfly]
    dsimp only
    rw [ho]
  have ht : e.target ≠ 0 := by omega
  rw [hb]
  refine ⟨fun outs reply hk hc => ?_, fun lamps reply hk hc => ?_, fun i code reply hk hi => ?_, fun hm hk u hu hf => ?_,
    fun hm hty hk u hu hf => ?_⟩
  · rw [hexec _ .done (by simp [State.outcomeOf, ht, hread (.inl hk)]), (hflies (.inl hk)).done_levels hc]
    rfl
  · rw [hexec _ .done (by simp [State.outcomeOf, ht, hread (.inr hk)]), (hflies (.inr hk)).done_lamps hc]
    rfl
  · obtain ⟨o, ho, hcode, hx⟩ : ∃ o : TxOutcome, o.isFailure = true ∧ o.code = code
        ∧ exec i s = .next ((s.endTransaction o .nothing).deckPass s) := by
      rcases hi with ⟨rfl, x, y, rfl⟩ | ⟨rfl, y, rfl⟩ | ⟨rfl, rfl⟩ | ⟨rfl, rfl⟩
      · exact ⟨.noAckHead, rfl, rfl, hexec _ _ (by simp [State.outcomeOf, ht])⟩
      · exact ⟨.noAckData, rfl, rfl, hexec _ _ (by simp [State.outcomeOf, ht])⟩
      · exact ⟨.checkFail, rfl, rfl, hexec _ _ (by simp [State.outcomeOf, ht, hread hk])⟩
      · exact ⟨.timeoutByte, rfl, rfl, State.deckEvent_eq (if_pos hown)⟩
    rw [hx, ← hcode]
    exact ⟨fun hm => by rw [(hflies hk).missed ho hm], fun hm hty => by rw [(hflies hk).lost ho hm hty]⟩
  all_goals
    have heq : u = { s with uptime := u.uptime } := hu.trans ((s.atMoment_eq _).trans (by rw [hu]))
    have hx : exec .transactionTimeout s = .next ((u.endTransaction .timeoutTransaction .nothing).deckPass s) := by
      rw [hu]; exact State.deckEvent_eq (if_pos hown)
    have hfu : u.Flies e r := by rw [heq]; exact ⟨hfly, henrol, hnode, hactive, hhold, hk⟩
    have hbus : u.bus.ended e u.uptime = s.bus.ended e s.uptime := by
      rw [heq, Bus.ended, Bus.ended, hf]; rfl
    have hnodes : u.nodes = s.nodes := by rw [heq]
    have hchannels : u.channels = s.channels := by rw [heq]
    have hlink : u.link = s.link := by rw [heq]
  · rw [hx, hfu.missed rfl hm, hbus, hnodes]
  · rw [hx, hfu.lost rfl hm hty, hbus, hnodes, hchannels, hlink]
    rfl

end Sys2Proof.Proofs
end

section
/-!
PROOFS. Other parties on the bus, RECOVERY and key reports (R10 to R15, R21, R22, R164): O54, O55.
-/

namespace Sys2Proof.Machine

/-! ## What the stops of the ownership unit leave -/

/-- Nothing has changed but the deck, its owners, the allocator and what it changes, and the notices. -/
def DeckOnly (s t : State) : Prop := ∃ a cs bs lt l h m p w ho po wo, t = { s with
  alloc := a, channels := cs, bindings := bs, lastTake := lt, link := l, hpu := h, hatch := m, platform := p, windlass := w
  hatchOwner := ho, platformOwner := po, windlassOwner := wo }

namespace DeckOnly

variable {s t u : State}

theorem refl : DeckOnly s s := ⟨_, _, _, _, _, _, _, _, _, _, _, _, rfl⟩

theorem trans (h : DeckOnly s t) (g : DeckOnly t u) : DeckOnly s u := by
  obtain ⟨_, _, _, _, _, _, _, _, _, _, _, _, rfl⟩ := h
  obtain ⟨_, _, _, _, _, _, _, _, _, _, _, _, rfl⟩ := g
  exact ⟨_, _, _, _, _, _, _, _, _, _, _, _, rfl⟩

theorem of_allocated (h : Allocated s t) : DeckOnly s t := by
  obtain ⟨_, _, _, _, _, _, rfl⟩ := h.frame
  exact ⟨_, _, _, _, _, _, _, _, _, _, _, _, rfl⟩

variable (s)

theorem of_onHpu (f : Hpu → Hpu) : DeckOnly s (s.onHpu f) := ⟨_, _, _, _, _, _, _, _, _, _, _, _, rfl⟩

theorem of_onMover (m : MoverId) (f : Mover → Mover) : DeckOnly s (s.onMover m f) := by
  cases m <;> exact ⟨_, _, _, _, _, _, _, _, _, _, _, _, rfl⟩

theorem of_onOwner (r : Resource) (f : OwnerRecord → OwnerRecord) : DeckOnly s (s.onOwner r f) := by
  cases r <;> exact ⟨_, _, _, _, _, _, _, _, _, _, _, _, rfl⟩

theorem of_returnToRest (m : MoverId) (c : Cause) : DeckOnly s (s.returnToRest m c) := by
  cases m <;> exact ⟨_, _, _, _, _, _, _, _, _, _, _, _, rfl⟩

theorem of_dropIdleStart : DeckOnly s s.dropIdleStart := by
  unfold State.dropIdleStart State.hpuOff
  split
  · exact (of_onHpu s _).trans (.of_allocated (.of_releaseGrant _ _))
  · exact .refl

theorem of_moverStop (m : MoverId) (c : Cause) : DeckOnly s (s.moverStop m c) := by
  rcases s.moverStop_cases m c with ⟨-, e⟩ | ⟨-, e⟩ | ⟨-, -, e⟩ <;> rw [e]
  · exact of_onMover s m _
  · exact ((of_onHpu s fun h => h.withdraw m).trans (of_returnToRest _ m c)).trans (of_dropIdleStart _)
  · exact .refl

theorem of_stopResource (r : Resource) (c : Cause) : DeckOnly s (s.stopResource r c) := by
  cases r
  · exact of_moverStop s .hatch c
  · exact of_moverStop s .platform c
  · show DeckOnly s (s.windlassStop c)
    rcases s.windlassStop_cases c with ⟨-, e⟩ | ⟨-, e⟩ <;> rw [e]
    · exact ⟨_, _, _, _, _, _, _, _, _, _, _, _, rfl⟩
    · exact .refl

theorem of_deliverStop (r : Resource) (c : Cause) : DeckOnly s (s.deliverStop r c) := (of_onOwner s r _).trans (of_stopResource _ r c)

theorem of_stopOwned (mine : Owner → Bool) (c : Cause) : DeckOnly s (s.stopOwned mine c) := by
  have one : ∀ (u : State) (r : Resource), DeckOnly u (u.stopStep mine c r) := fun u r => by
    unfold State.stopStep
    split
    · exact of_deliverStop u r c
    · exact .refl
  exact ((one s .hatch).trans (one _ .platform)).trans (one _ .windlass)

end DeckOnly

/-! ## Entry to RECOVERY (R14) -/

/-- An outcome with no reply data, by the record's step (R30, R31, R35, R36). -/
theorem State.applyStep_nothing (s : State) (r : NodeRecord) (k : TxKind) (o : TxOutcome) :
    s.applyStep r k o .nothing = s.startRetry r.addr ∨ (o = .done ∧ s.applyStep r k o .nothing = s.askBringUpRead r.addr)
      ∨ s.applyStep r k o .nothing = s.leaveSetup r.addr ∨ s.applyStep r k o .nothing = s := by
  unfold State.applyStep
  split
  iterate 3 (rename_i h; cases h)
  iterate 3 exact .inl rfl
  · split
    · rename_i h; exact .inr (.inl ⟨h, rfl⟩)
    · exact .inr (.inr (.inl rfl))
  · rename_i h; cases h
  · exact .inr (.inr (.inl rfl))
  · rename_i h; cases h
  · exact .inr (.inr (.inr rfl))

/-- A state with its node records and the pending mark of the bus replaced. -/
def State.unheard (s : State) (ns : List NodeRecord) (p : Bool) : State := { s with nodes := ns, bus := { s.bus with pendingRelease := p } }

/-- An outcome BUS_FAULT changes node records and the pending mark alone, with no enrolment running (R14, R23, R31). -/
theorem State.deliver_busFault {s : State} (e : Entry) (h : s.enrolment = none) :
    ∃ ns p, s.deliver e .busFault .nothing .none = s.unheard ns p := by
  have hnode : ∃ ns, s.nodeOutcome e.kind e.target .busFault .nothing = s.unheard ns s.bus.pendingRelease := by
    unfold State.nodeOutcome
    split
    · exact ⟨s.nodes, rfl⟩
    · rename_i r _
      dsimp only
      split
      · exact ⟨s.nodes, rfl⟩
      · rw [if_neg (show ¬ TxOutcome.busFault.isFailure = true by decide), if_neg (show ¬ TxOutcome.busFault = .done by decide)]
        rcases s.applyStep_nothing r e.kind .busFault with h | ⟨h, -⟩ | h | h
        · exact ⟨_, h⟩
        · cases h
        · exact ⟨_, h⟩
        · exact ⟨s.nodes, h⟩
  have hout : ∃ ns, (if e.enrol then s.enrolOutcome .busFault .nothing else s.nodeOutcome e.kind e.target .busFault .nothing)
      = s.unheard ns s.bus.pendingRelease := by
    split
    · refine ⟨s.nodes, ?_⟩
      unfold State.enrolOutcome
      rw [h]; rfl
    · exact hnode
  obtain ⟨ns, hout⟩ := hout
  unfold State.deliver
  dsimp only
  rw [hout]
  split
  · exact ⟨ns, true, rfl⟩
  · exact ⟨ns, s.bus.pendingRelease, rfl⟩

theorem State.deliver_busFaults (q : List Entry) {s : State} (h : s.enrolment = none) :
    ∃ ns p, q.foldl (fun s e => s.deliver e .busFault .nothing .none) s = s.unheard ns p := by
  induction q generalizing s with
  | nil => exact ⟨s.nodes, s.bus.pendingRelease, rfl⟩
  | cons e q ih =>
    obtain ⟨ns, p, he⟩ := s.deliver_busFault e h
    obtain ⟨ns', p', hq⟩ := ih (s := s.unheard ns p) h
    exact ⟨ns', p', by rw [List.foldl_cons, he, hq]; rfl⟩

/-- The part at its entry to RECOVERY, before the stops. -/
theorem State.enterRecovery_eq {s : State} (c : RecoveryCause) (h : s.enrolment = none) : ∃ ns p, s.enterRecovery c =
    State.stationsUnheard { s with
      nodes := ns, bus := { s.bus.recover (s.uptime + 100) with pendingRelease := p }
      link := s.link.post ⟨.busFault, 127, [BitVec.ofNat 8 c.code], s.uptime⟩ } := by
  obtain ⟨ns, p, hq⟩ := State.deliver_busFaults (s.bus.queue.filter (·.inFlight) ++ s.bus.queue.filter fun e => !e.inFlight)
    (s := s.onBus fun b => b.recover (s.after 100)) h
  refine ⟨ns, p, ?_⟩
  unfold State.enterRecovery
  dsimp only
  rw [hq]
  rfl

/-- What follows an operation in RECOVERY leaves the bus there, its queue empty. -/
theorem State.deckPass_recovery {s : State} (b : State) (hr : s.bus.state = .recovery) (hq : s.bus.queue = []) :
    ∃ p, (s.deckPass b).bus = { s.bus with pendingRelease := p } := by
  have hw : s.watchInterlock.bus = s.bus := by
    obtain ⟨_, _, h⟩ := s.watchInterlock_frame
    rw [h]
  by_cases hd : s.watchInterlock.mode = .stopping ∧ s.watchInterlock.drained = true
  · have hc : s.watchInterlock.configured.bus = s.bus := hw
    have hbc : s.watchInterlock.configured.busToConfig.bus = { s.bus with pendingRelease := true } := by
      unfold State.busToConfig
      dsimp only
      rw [if_neg (by rw [hc, hq]; decide), State.queueRelease, if_pos (by rw [State.onBus_bus, hc]; exact hr)]
      show ({ { s.watchInterlock.configured.bus with
        queue := (s.watchInterlock.configured.bus.queue.filter fun e : Entry => e.inFlight).map fun e : Entry => { e with followUp := false } }
          with pendingRelease := true } : Bus) = _
      rw [hc, hq]
      rfl
    rw [State.deckPass_drained b hd.1 hd.2, State.enterConfig_eq, State.lampPass_recovery b (by rw [hbc]; exact hr)]
    exact ⟨true, hbc⟩
  · rw [State.deckPass_undrained b (by by_cases h : s.watchInterlock.mode = .stopping <;> simp_all),
      State.lampPass_recovery b (by rw [hw]; exact hr), hw]
    exact ⟨s.bus.pendingRelease, rfl⟩

/-- What the entry to RECOVERY leaves (R14, R15, R164). -/
structure State.Recovers (s t : State) (c : RecoveryCause) : Prop where
  state : t.bus.state = .recovery
  queue : t.bus.queue = []
  runs : t.bus.recoveryRuns = 0
  timer : t.bus.recoveryTimer = some (t.uptime + 100)
  notices : s.link.notices.length < 32 →
    (s.link.notices ++ [⟨.busFault, 127, [BitVec.ofNat 8 c.code], t.uptime⟩]) <+: t.link.notices
  windlass : ∀ a, s.windlassOwner.owner = .station a → s.windlassOwner.stopDelivered = false → s.windlass.underWay = true →
    t.windlass.state = .stopping ∧ t.windlass.stopCause = some .stationLost ∧ t.windlass.contactorClosed = false
  mover : ∀ m a, (s.ownerOf (moverResource m)).owner = .station a → (s.ownerOf (moverResource m)).stopDelivered = false →
    (s.mover m).state = .moving → (t.mover m).state = .settling ∧ (t.mover m).stopCause = some .stationLost
      ∧ (t.mover m).raise = false ∧ (t.mover m).lower = false

theorem State.enterRecovery_recovers {s : State} (c : RecoveryCause) (b : State) (h : s.enrolment = none) :
    s.Recovers ((s.enterRecovery c).deckPass b) c := by
  obtain ⟨ns, p, he⟩ := State.enterRecovery_eq c h
  rw [he]
  generalize hv : ({ s with
    nodes := ns, bus := { s.bus.recover (s.uptime + 100) with pendingRelease := p }
    link := s.link.post ⟨.busFault, 127, [BitVec.ofNat 8 c.code], s.uptime⟩ } : State) = v
  have hmov : ∀ m, v.mover m = s.mover m := fun m => by rw [← hv]; cases m <;> rfl
  have hown : ∀ r, v.ownerOf r = s.ownerOf r := fun r => by rw [← hv]; cases r <;> rfl
  have hwind : v.windlass = s.windlass := by rw [← hv]
  have hbus : v.bus = { s.bus.recover (s.uptime + 100) with pendingRelease := p } := by rw [← hv]
  have hvup : v.uptime = s.uptime := by rw [← hv]
  have hlink : v.link = s.link.post ⟨.busFault, 127, [BitVec.ofNat 8 c.code], s.uptime⟩ := by rw [← hv]
  have hmade := v.stopOwned_made Owner.isStation .stationLost
  have hubus : (v.stopOwned Owner.isStation .stationLost).bus = v.bus := by
    obtain ⟨_, _, _, _, _, _, _, _, _, _, _, _, e⟩ := DeckOnly.of_stopOwned v Owner.isStation .stationLost
    rw [e]
  show s.Recovers ((v.stopOwned Owner.isStation .stationLost).deckPass b) c
  generalize v.stopOwned Owner.isStation .stationLost = u at *
  have howed : ∀ r a, (s.ownerOf r).owner = .station a → (s.ownerOf r).stopDelivered = false → v.Owed Owner.isStation r := fun r a h1 h2 => by
    rw [State.Owed, hown r, h1, h2]; exact ⟨nofun, rfl, rfl⟩
  have hup : (u.deckPass b).uptime = s.uptime := (u.deckPass_uptime b).trans (hmade.uptime.trans hvup)
  rw [hbus] at hubus
  obtain ⟨p', hdb⟩ := State.deckPass_recovery (s := u) b (by rw [hubus]; rfl) (by rw [hubus]; rfl)
  rw [hubus] at hdb
  refine ⟨by rw [hdb]; rfl, by rw [hdb]; rfl, by rw [hdb]; rfl, by rw [hdb, hup]; rfl, fun hl => ?_, fun a h1 h2 hw => ?_, fun m a h1 h2 hm => ?_⟩
  · have g := (hmade.notified.trans (.of_deckPass u b)).told.1
    rw [hlink, Link.post_room _ hl] at g
    rw [hup]
    exact g
  · have g : u.windlass.StoppedAt v.uptime .stationLost :=
      ((hmade.halted .windlass (mem_resources _) (howed .windlass a h1 h2)).2 rfl).2.1 (by show v.windlass.underWay = true; rwa [hwind])
    rw [State.deckPass_windlass]
    obtain ⟨a1, a2, a3, a4, -⟩ := g
    exact ⟨a1, a2, by simp [Windlass.contactorClosed, a3, a4]⟩
  · obtain ⟨g, -⟩ := ((hmade.halted _ (mem_resources _) (howed _ a h1 h2)).1 m rfl).1 (by rwa [State.mover_onOwner, hmov])
    rw [State.mover_deckPass _ _ (by rw [g.1]; decide)]
    obtain ⟨a1, a2, a3, a4, -⟩ := g
    exact ⟨a1, a2, a3, a4⟩

/-! ## Key reports (R21, R22) -/

theorem keyEvents?_of_map {evs : List Byte} {es : List KeyEvent} (h : evs.map keyEvent? = es.map some) : keyEvents? evs = some es := by
  unfold keyEvents?
  induction evs generalizing es with
  | nil =>
    cases es with
    | nil => rfl
    | cons => simp at h
  | cons b bs ih =>
    cases es with
    | nil => simp at h
    | cons e es =>
      rw [List.map_cons, List.map_cons, List.cons.injEq] at h
      rw [List.mapM_cons, h.1, ih h.2]
      rfl

/-- The report of a body of R21 with its check byte. -/
theorem reportOf_body {addr held chk : Byte} {evs : List Byte} {es : List KeyEvent} (hl : evs.length ≤ 4) (h1 : 1 ≤ addr.toNat)
    (h2 : addr.toNat ≤ 119) (hes : evs.map keyEvent? = es.map some) :
    reportOf (([0x07, addr, held, BitVec.ofNat 8 evs.length] ++ evs) ++ [chk])
      = if chk = crc8 (0x7F :: ([0x07, addr, held, BitVec.ofNat 8 evs.length] ++ evs)) then some (addr.toNat, held, es) else none := by
  have hn : (BitVec.ofNat 8 evs.length).toNat = evs.length := by
    rw [BitVec.toNat_ofNat]; omega
  have hd : (0x07 :: addr :: held :: BitVec.ofNat 8 evs.length :: (evs ++ [chk])).dropLast
      = 0x07 :: addr :: held :: BitVec.ofNat 8 evs.length :: evs :=
    List.dropLast_concat (l₁ := 0x07 :: addr :: held :: BitVec.ofNat 8 evs.length :: evs)
  simp only [List.cons_append, List.nil_append, reportOf]
  rw [hd, List.getLast?_concat, hn, List.take_left, keyEvents?_of_map hes]
  refine if_congr ?_ rfl rfl
  simp [hl, h1, h2]

/-- A key report in IDLE, or in OTHER from a head 0x7F, is taken or discarded. -/
theorem State.keyReport_body {s : State} {addr held chk : Byte} {evs : List Byte} {es : List KeyEvent}
    (hb : s.bus.state = .idle ∨ (s.bus.state = .other ∧ s.bus.otherHead = some 0x7F)) (hl : evs.length ≤ 4) (h1 : 1 ≤ addr.toNat)
    (h2 : addr.toNat ≤ 119) (hes : evs.map keyEvent? = es.map some) :
    s.keyReport (([0x07, addr, held, BitVec.ofNat 8 evs.length] ++ evs) ++ [chk])
      = if chk = crc8 (0x7F :: ([0x07, addr, held, BitVec.ofNat 8 evs.length] ++ evs)) then s.otherDone.report addr.toNat held es
        else s.otherDone := by
  unfold State.keyReport
  rw [if_pos hb]
  dsimp only
  rw [reportOf_body hl h1 h2 hes]
  by_cases hc : chk = crc8 (0x7F :: ([0x07, addr, held, BitVec.ofNat 8 evs.length] ++ evs))
  · rw [if_pos hc, if_pos hc]
  · rw [if_neg hc, if_neg hc]

/-- Two changes of one record, in turn. -/
theorem State.onNode_onNode (s : State) (a : Nat) {f : NodeRecord → NodeRecord} (g : NodeRecord → NodeRecord) (hf : ∀ n, (f n).addr = n.addr) :
    (s.onNode a f).onNode a g = s.onNode a (g ∘ f) := by
  unfold State.onNode tableModify
  refine congrArg (fun ns => ({ s with nodes := ns } : State)) ?_
  rw [List.map_map]
  refine List.map_congr_left fun n _ => ?_
  by_cases h : n.addr = a <;> simp [h, hf]

section
variable {s : State} {a : Nat} {held : Byte} {es : List KeyEvent} {r : NodeRecord}

theorem State.report_other (h : s.node a = some r) (hk : r.type ≠ .keypad) (ht : r.type ≠ .station) : s.report a held es = s := by
  unfold State.report
  rw [h]
  exact if_pos ⟨hk, ht⟩

theorem State.report_seen (h : s.node a = some r) (hk : r.type = .keypad ∨ r.type = .station) (ha : r.state ≠ .active) :
    s.report a held es = s.seen a := by
  unfold State.report
  rw [h]
  exact (if_neg (by rcases hk with hk | hk <;> simp [hk])).trans (if_neg ha)

theorem State.report_taken (h : s.node a = some r) (hk : r.type = .keypad ∨ r.type = .station) (ha : r.state = .active) :
    s.report a held es = (s.seen a).takeKeys r held es := by
  unfold State.report
  rw [h]
  exact (if_neg (by rcases hk with hk | hk <;> simp [hk])).trans (if_pos ha)

end

end Sys2Proof.Machine

namespace Sys2Proof.Proofs

open Sys2Proof.Machine

/-- Settles O54: the entry to RECOVERY, the stops it makes, and what follows a deck operation. -/
theorem othersAndRecovery : Obligations.OthersAndRecovery := by
  refine ⟨fun s head => ⟨fun h => ?_, fun h => ?_, fun h => ?_, fun h => ?_, fun h => ?_, fun h => ?_⟩,
    fun s => ⟨fun i cause hr he hi => ?_, fun h => ?_, fun e he => ⟨?_, fun a b h => ?_⟩, fun h a b => ?_⟩⟩
  · exact congrArg Host.Outcome.next (if_neg (not_not.mpr h))
  · exact congrArg Host.Outcome.next (if_pos h)
  · exact congrArg Host.Outcome.next (if_pos h)
  · exact congrArg Host.Outcome.next (if_neg h)
  · exact congrArg Host.Outcome.next (if_pos h)
  · exact congrArg Host.Outcome.next (if_neg h)
  · obtain ⟨x, c, hx, rfl⟩ : ∃ x c, exec i s = .next ((State.enterRecovery { s with uptime := x } c).deckPass s) ∧ c.code = cause := by
      rcases hi with ⟨rfl, rfl⟩ | ⟨rfl, rfl⟩ | ⟨rfl, rfl⟩ | ⟨rfl, rfl, h⟩
      · exact ⟨s.uptime, .rckLow, State.deckEvent_eq (if_neg hr), rfl⟩
      · exact ⟨s.uptime, .rdaLow, State.deckEvent_eq (if_neg hr), rfl⟩
      · exact ⟨s.uptime, .bothLow, State.deckEvent_eq (if_neg hr), rfl⟩
      · refine ⟨(s.atMoment (later s.bus.openedAt 20)).uptime, .overrun, State.deckEvent_eq ((if_pos h).trans ?_), rfl⟩
        rw [← s.atMoment_eq]
    obtain ⟨h1, h2, h3, h4, h5, h6, h7⟩ := State.enterRecovery_recovers (s := { s with uptime := x }) c s he
    exact ⟨_, hx, h1, h2, h3, h4, h5, h6, fun m => by cases m; exacts [h7 .hatch, h7 .platform]⟩
  · exact State.deckEvent_eq (if_neg h)
  · show execRecoveryRun true true s = _
    unfold execRecoveryRun
    rw [he]
    dsimp only
    rw [s.atMoment_eq e]
    rfl
  · show execRecoveryRun a b s = _
    unfold execRecoveryRun
    rw [he]
    dsimp only
    rw [s.atMoment_eq e]
    exact congrArg Host.Outcome.next (if_neg (by rcases h with rfl | rfl <;> simp))
  · show execRecoveryRun a b s = _
    unfold execRecoveryRun
    rw [h]

/-- Settles O55: a report with a good check byte reaches its record. -/
theorem keyReportTaken : Obligations.KeyReportTaken := by
  rintro s u addr held chk evs es body hb hl h1 h2 rfl hes hu
  have hbody := State.keyReport_body (chk := chk) (held := held) hb hl h1 h2 hes
  have hu : s.otherDone = u := hu ▸ rfl
  rw [hu] at hbody
  have hnode : u.node addr.toNat = s.node addr.toNat := hu ▸ rfl
  have hns : u.nodes = s.nodes := hu ▸ rfl
  have hup : u.uptime = s.uptime := hu ▸ rfl
  rw [← hnode, ← hns, ← hup]
  refine ⟨fun hc => ?_, fun hc => State.deckEvent_eq (hbody.trans (if_neg hc))⟩
  have hbody := hbody.trans (if_pos hc)
  refine ⟨fun r hr => ?_, fun hr => State.deckEvent_eq (hbody.trans (by unfold State.report; rw [hr]))⟩
  have hra : r.addr = addr.toNat := (tableGet_eq_some_imp NodeRecord.addr hr).2
  refine ⟨fun ht ha => State.deckEvent_eq (hbody.trans ?_), fun ht ha => State.deckEvent_eq (hbody.trans ?_),
    fun ht ha => State.deckEvent_eq (hbody.trans (State.report_seen hr ht ha)), fun hk ht => State.deckEvent_eq (hbody.trans (State.report_other hr hk ht))⟩
  · rw [State.report_taken hr (.inl ht) ha, State.takeKeys, ht]
    dsimp only
    rw [hra, State.seen, State.onNode_onNode _ _ _ (by intro; rfl)]
    rfl
  · rw [State.report_taken hr (.inr ht) ha, State.takeKeys, ht]
    dsimp only
    rw [hra, State.seen, State.onNode_onNode _ _ _ (by intro; rfl)]
    rfl

end Sys2Proof.Proofs
end

section
/-!
PROOFS. The enrolment operation (R40 to R43): O59.
-/

namespace Sys2Proof.Machine

/-! ## The transaction of an enrolment, and of another record (R16, R20) -/

/-- The end of a transaction that carried no values. -/
theorem State.transactionEnd_plain {s v : State} {x : Entry} {a : TargetAnswer} {o : TxOutcome} {d : Delivered} (hown : s.bus.state = .own)
    (hfly : s.bus.flying = some x) (ho : s.outcomeOf x.kind x.target a = (o, d)) (hk : x.kind ≠ .release) (hc : s.bus.carried = .none)
    (hv : (if x.enrol then s.enrolOutcome o d else s.nodeOutcome x.kind x.target o d) = v) :
    s.transactionEnd a = v.onBus fun b =>
      { b with state := .idle, wire := [], carried := .none, releaseOpen := false, queue := retireEntry v.uptime b.queue } := by
  have hvalues : v.deliverValues x.target o .none = v := by
    unfold State.deliverValues; split <;> rfl
  have hd : s.deliver x o d s.bus.carried = v := by
    unfold State.deliver
    dsimp only
    rw [hv, hc, if_neg fun h => hk h.1, hvalues]
  unfold State.transactionEnd
  rw [if_neg (not_not.mpr hown), hfly]
  dsimp only
  rw [ho]
  unfold State.endTransaction
  dsimp only
  rw [hfly]
  dsimp only
  rw [hd]
  rfl

/-! ## What an outcome of the operation's own transactions does (R41, R42) -/

section
variable {s : State} {e : Enrolment} (he : s.enrolment = some e)
include he

theorem State.enrolOutcome_found (hp : e.phase = .search) {ty : NodeType} (serial : Serial) (fw : Byte × Byte) (ht : ty = e.type) :
    s.enrolOutcome .done (.identify ty serial fw)
      = State.enrolAsk { s with enrolment := some { e with phase := .assign, serial := serial, reported := ty.code } } := by
  unfold State.enrolOutcome
  rw [he]
  dsimp only
  rw [hp]
  exact if_pos ht

theorem State.enrolOutcome_otherType (hp : e.phase = .search) {ty : NodeType} (serial : Serial) (fw : Byte × Byte) (ht : ty ≠ e.type) :
    s.enrolOutcome .done (.identify ty serial fw) = s.enrolFail { e with reported := ty.code } .typeMismatch := by
  unfold State.enrolOutcome
  rw [he]
  dsimp only
  rw [hp]
  exact if_neg ht

theorem State.enrolOutcome_unfound (hp : e.phase = .search) (o : TxOutcome) :
    s.enrolOutcome o .nothing = s.enrolFail e (searchFailure o) := by
  unfold State.enrolOutcome
  rw [he]
  dsimp only
  rw [hp]

theorem State.enrolOutcome_assigned (hp : e.phase = .assign) :
    s.enrolOutcome .done .nothing = State.enrolAsk { s with enrolment := some { e with phase := .confirm } } := by
  unfold State.enrolOutcome
  rw [he]
  dsimp only
  rw [hp]
  exact if_pos rfl

theorem State.enrolOutcome_unassigned (hp : e.phase = .assign) {o : TxOutcome} (ho : o ≠ .done) :
    s.enrolOutcome o .nothing = s.enrolFail e .noConfirm := by
  unfold State.enrolOutcome
  rw [he]
  dsimp only
  rw [hp]
  exact if_neg ho

theorem State.enrolOutcome_confirmed (hp : e.phase = .confirm) {ty : NodeType} {serial : Serial} (fw : Byte × Byte)
    (ht : ty = e.type ∧ serial = e.serial) :
    s.enrolOutcome .done (.identify ty serial fw) = s.enrolUpdate { e with reported := ty.code, firmware := some fw } := by
  unfold State.enrolOutcome
  rw [he]
  dsimp only
  rw [hp]
  exact if_pos ht

theorem State.enrolOutcome_contradicted (hp : e.phase = .confirm) {ty : NodeType} {serial : Serial} (fw : Byte × Byte)
    (ht : ¬ (ty = e.type ∧ serial = e.serial)) :
    s.enrolOutcome .done (.identify ty serial fw) = s.enrolFail { e with reported := ty.code, firmware := some fw } .noConfirm := by
  unfold State.enrolOutcome
  rw [he]
  dsimp only
  rw [hp]
  exact if_neg ht

theorem State.enrolOutcome_unconfirmed (hp : e.phase = .confirm) (o : TxOutcome) :
    s.enrolOutcome o .nothing = s.enrolFail e .noConfirm := by
  unfold State.enrolOutcome
  rw [he]
  dsimp only
  rw [hp]

end

/-! ## ENROL_NODE (R40) -/

section
variable {s : State} {tag : Byte} {a code : Nat} {ty : NodeType}

/-- ENROL_NODE of an address and a type in range: BUSY, IN_USE, FULL or the operation's beginning. -/
theorem execEnrolNode_eq (h1 : 1 ≤ a) (h2 : a ≤ 119) (ht : nodeType? code = some ty) :
    exec (.enrolNode tag a code) s = answered 0x16 tag
      (if s.enrolment.isSome ∨ s.saving then s.refuse .busy
       else if (s.node a).any (fun r => r.state = .active ∨ r.type ≠ ty) then s.refuse .inUse
       else if (s.node a).isNone ∧ 48 ≤ s.nodes.length then s.refuse .full
       else (State.enrolAsk { s.onNode a (fun r => { r with enrolHold := true, retryTimer := none }) with
          enrolment := some { addr := a, type := ty } }).accept) := by
  show execEnrolNode tag a code s = _
  unfold execEnrolNode
  rw [ht]
  exact congrArg (answered 0x16 tag) (if_neg (by omega))

theorem State.idle_iff : ¬ (s.enrolment.isSome = true ∨ s.saving = true) ↔ s.enrolment = none ∧ s.store.state ≠ .saving := by
  simp [State.saving]

end

end Sys2Proof.Machine

namespace Sys2Proof.Proofs

open Sys2Proof.Machine

/-- Settles O59: what each outcome does is that of an asking, of a failure or of the update of the table. -/
theorem enrolmentRuns : Obligations.EnrolmentRuns := by
  refine ⟨fun s tag a code ty h1 h2 ht => ?_, fun s => ?_, fun s e he => ⟨fun hp => ?_, fun hp => ?_, fun hp => ?_⟩,
    fun s v x answer o d hown hfly ho hk hc hv hv' => ?_⟩
  · have hx := execEnrolNode_eq (s := s) (tag := tag) h1 h2 ht
    refine ⟨fun he hs hn => ?_, fun h => ?_, fun r he hs hn hr => ?_, fun he hs hn hl => ?_⟩
    · refine ⟨_, ?_, State.enrolAsk_asked
        { s with nodes := s.nodes.map fun n => if n.addr = a then { n with enrolHold := true, retryTimer := none } else n }
        { addr := a, type := ty } nofun⟩
      rw [hx, if_neg (State.idle_iff.mpr ⟨he, hs⟩)]
      rcases hn with ⟨hn, hl⟩ | ⟨r, hn, hr, hty⟩
      · rw [hn, if_neg nofun, if_neg (fun h => by have := h.2; omega)]
        rfl
      · rw [hn, if_neg (by simp [hr, hty]), if_neg nofun]
        rfl
    · rw [hx, if_pos (by simpa [State.saving] using h)]
      rfl
    · rw [hx, if_neg (State.idle_iff.mpr ⟨he, hs⟩), hn, if_pos (by simpa using hr)]
      rfl
    · rw [hx, if_neg (State.idle_iff.mpr ⟨he, hs⟩), hn, if_neg nofun, if_pos ⟨rfl, hl⟩]
      rfl
  · refine ⟨fun e n he hp hr => ?_, fun e n he hp hr => ?_, fun h => ?_, fun e he hp hs => ?_, fun e he h => ?_, fun he => ?_⟩
    · refine ⟨_, ?_, State.enrolAsk_asked (s.atMoment n) { e with retryTimer := none } hp⟩
      show execEnrolRetryExpiry s = _
      unfold execEnrolRetryExpiry
      rw [he, Option.bind_some, hr]
      refine congrArg (fun u : State => Host.Outcome.next u.enrolAsk) ?_
      rw [s.atMoment_eq n, State.onEnrolment, he]
      rfl
    · show execEnrolRetryExpiry s = _
      unfold execEnrolRetryExpiry
      rw [he, Option.bind_some, hr]
      dsimp only
      rw [s.atMoment_eq n, State.onEnrolment, he]
      unfold State.enrolAsk
      dsimp only [Option.map_some]
      unfold State.queueEnrolment
      dsimp only
      rw [hp]
      rfl
    · show execEnrolRetryExpiry s = _
      unfold execEnrolRetryExpiry
      rw [h]
    · refine ⟨_, ?_, State.enrolCommit_enrolled s e⟩
      show execEnrolDeferredUpdate s = _
      unfold execEnrolDeferredUpdate
      rw [he]
      exact congrArg Host.Outcome.next (if_pos ⟨hp, by simpa [State.saving] using hs⟩)
    · show execEnrolDeferredUpdate s = _
      unfold execEnrolDeferredUpdate
      rw [he]
      refine congrArg Host.Outcome.next (if_neg fun hn => ?_)
      rcases h with h | h
      · exact h hn.1
      · exact hn.2 (by simp [State.saving, h])
    · show execEnrolDeferredUpdate s = _
      unfold execEnrolDeferredUpdate
      rw [he]
  · have fails : ∀ o, s.EnrolFailed (s.enrolOutcome o .nothing) e.addr (searchFailure o).code e.reported := fun o => by
      rw [State.enrolOutcome_unfound he hp]
      exact s.enrolFail_failed e _
    refine ⟨fun ty serial fw ht => ?_, fun ty serial fw ht => ?_, fails .noAckHead, fails .checkFail, fails .noAckData, fails .timeoutByte,
      fails .timeoutTransaction, fails .busFault⟩
    · rw [State.enrolOutcome_found he hp serial fw ht]
      exact s.enrolAsk_asked _ nofun
    · rw [State.enrolOutcome_otherType he hp serial fw ht]
      exact s.enrolFail_failed { e with reported := ty.code } .typeMismatch
  · refine ⟨?_, fun o ho => ?_⟩
    · rw [State.enrolOutcome_assigned he hp]
      exact s.enrolAsk_asked _ nofun
    · rw [State.enrolOutcome_unassigned he hp ho]
      exact s.enrolFail_failed e .noConfirm
  · refine ⟨fun ty serial fw h1 h2 => ?_, fun ty serial fw h => ?_, fun o _ => ?_⟩
    · rw [State.enrolOutcome_confirmed he hp fw ⟨h1, h2⟩]
      refine ⟨fun hs => ?_, fun hs => if_pos (by simp [State.saving, hs])⟩
      rw [State.enrolUpdate, if_neg (by simpa [State.saving] using hs)]
      exact s.enrolCommit_enrolled { e with reported := ty.code, firmware := some fw }
    · rw [State.enrolOutcome_contradicted he hp fw (by rintro ⟨g, g'⟩; exact h.elim (· g) (· g'))]
      exact s.enrolFail_failed { e with reported := ty.code, firmware := some fw } .noConfirm
    · rw [State.enrolOutcome_unconfirmed he hp]
      exact s.enrolFail_failed e .noConfirm
  · refine State.deckEvent_eq (State.transactionEnd_plain hown hfly ho hk hc ?_)
    cases h : x.enrol
    · exact (hv' h).symm
    · exact (hv h).symm

end Sys2Proof.Proofs
end

section
/-!
PROOFS. The timers, the bring-up, the polls and the loss of a node (R17, R28 to R38, R57 to R59, R164): O57.
-/

namespace Sys2Proof.Machine

/-! ## A request that joins the queue, is absorbed, or is refused (R17, R18) -/

/-- No entry of the queue absorbs a request. -/
def State.Unasked (s : State) (k : TxKind) (a : Nat) : Prop := k.merges = true → ∀ x ∈ s.bus.queue, ¬ (x.kind = k ∧ x.target = a)

/-- The entry of a request that joins the queue. -/
def State.entry (s : State) (k : TxKind) (a : Nat) : Entry := ⟨s.txClass k a, k, a, none, s.uptime, false, false, false, false⟩

/-- A request has joined the queue. -/
def State.joined (s : State) (k : TxKind) (a : Nat) : State := s.onBus fun b => { b with queue := b.queue ++ [s.entry k a] }

section
variable {s : State} {k : TxKind} {a : Nat}

theorem State.Unasked.not_any (h : s.Unasked k a) : ¬ (k.merges = true ∧ (s.bus.queue.any fun e => e.isFor k a) = true) := by
  rintro ⟨hk, hq⟩
  obtain ⟨x, hx, hf⟩ := List.any_eq_true.mp hq
  exact h hk x hx (Entry.isFor_iff.mp hf)

theorem State.takes_of_mode (hm : s.mode ≠ .config) : ¬ ¬ s.modeTakes k false = true := by simp [State.modeTakes, hm]

theorem State.queueTx_joins (hm : s.mode ≠ .config) (hq : s.QueueRoom) (hn : s.Unasked k a) : s.queueTx k a = (s.joined k a, .taken) := by
  unfold State.queueTx
  rw [if_neg hq.1, if_neg (State.takes_of_mode hm), if_neg hn.not_any, if_neg (by have := hq.2; omega)]
  rfl

theorem State.queueTx_refused (hm : s.mode ≠ .config) (h : s.bus.state = .recovery ∨ (s.Unasked k a ∧ 16 ≤ s.bus.queue.length)) :
    ∃ x, x ≠ .taken ∧ s.queueTx k a = (s, x) := by
  unfold State.queueTx
  by_cases hr : s.bus.state = .recovery
  · exact ⟨.refusedRecovery, nofun, if_pos hr⟩
  · obtain ⟨hn, hl⟩ := h.resolve_left hr
    rw [if_neg hr, if_neg (State.takes_of_mode hm), if_neg hn.not_any, if_pos hl]
    exact ⟨.refusedFull, nofun, rfl⟩

/-- A STATUS that waits absorbs another unchanged. -/
theorem State.queueTx_absorbed (hm : s.mode ≠ .config) (hr : s.bus.state ≠ .recovery) (h : ∃ x ∈ s.bus.queue, x.kind = .status ∧ x.target = a) :
    s.queueTx .status a = (s, .taken) := by
  obtain ⟨x, hx, hf⟩ := h
  have hq : (s.bus.queue.map fun e => if e.isFor .status a then e.absorb else e) = s.bus.queue := by
    refine (List.map_congr_left fun e _ => ?_).trans (List.map_id _)
    split
    · rename_i hf
      exact if_neg fun h => h.2 (Entry.isFor_iff.mp hf).1
    · rfl
  unfold State.queueTx
  rw [if_neg hr, if_neg (State.takes_of_mode hm), if_pos ⟨rfl, List.any_eq_true.mpr ⟨x, hx, Entry.isFor_iff.mpr hf⟩⟩]
  refine congrArg (·, QueueAnswer.taken) ?_
  exact congrArg (fun q => s.onBus fun b => { b with queue := q }) hq

theorem State.joined_of_class {cls : TxClass} (h : s.txClass k a = cls) :
    s.joined k a = s.onBus fun b => { b with queue := b.queue ++ [⟨cls, k, a, none, s.uptime, false, false, false, false⟩] } := by
  subst h; rfl

theorem State.askIdentify_joins (hm : s.mode ≠ .config) (hq : s.QueueRoom) : s.askIdentify a = s.joined .identify a := by
  unfold State.askIdentify
  rw [State.queueTx_joins (k := .identify) hm hq nofun]

theorem State.askIdentify_refused (hm : s.mode ≠ .config) (hl : 16 ≤ s.bus.queue.length) : s.askIdentify a = s.startRetry a := by
  obtain ⟨x, hx, h⟩ := State.queueTx_refused (k := .identify) (a := a) hm (.inr ⟨nofun, hl⟩)
  unfold State.askIdentify
  rw [h]
  cases x
  · exact absurd rfl hx
  all_goals rfl

end

/-! ## A record of an address, in a table in order (R26) -/

section
variable {s : State} {a : Nat} {r : NodeRecord}

/-- A change of the one record of an address. -/
theorem State.onNode_congr (hs : s.Ordered) (hr : s.node a = some r) {f g : NodeRecord → NodeRecord} (h : f r = g r) :
    s.onNode a f = s.onNode a g := by
  refine congrArg (fun ns => ({ s with nodes := ns } : State)) (List.map_congr_left fun n hn => ?_)
  by_cases ha : n.addr = a
  · have hn := tableGet_of_mem NodeRecord.addr hs.1 hn
    rw [ha] at hn
    have e : n = r := Option.some_inj.mp (hn.symm.trans hr)
    subst e
    rw [if_pos ha, if_pos ha, h]
  · rw [if_neg ha, if_neg ha]

theorem State.node_addr (hr : s.node a = some r) : r.addr = a := (tableGet_eq_some_imp NodeRecord.addr hr).2

theorem State.node_onNode (hr : s.node a = some r) {f : NodeRecord → NodeRecord} (hf : ∀ n, (f n).addr = n.addr) :
    (s.onNode a f).node a = some (f r) := (tableGet_tableModify_self NodeRecord.addr hf).trans (congrArg (Option.map f) hr)

/-! ## The outcome of a transaction to a record (R30 to R36) -/

theorem State.nodeOutcome_done (hr : s.node a = some r) (hh : r.enrolHold = false) (hd : r.state ≠ .declared) (k : TxKind) (d : Delivered) :
    s.nodeOutcome k a .done d = (s.seen a).applyStep r k .done d := by
  unfold State.nodeOutcome
  rw [hr]
  dsimp only
  rw [if_neg (by simp [hh, hd])]
  rfl

/-- Out of ACTIVE a failure is no miss. -/
theorem State.nodeOutcome_failed (hr : s.node a = some r) (hh : r.enrolHold = false) (hd : r.state ≠ .declared) (ha : r.state ≠ .active)
    (k : TxKind) {o : TxOutcome} (ho : o ≠ .done) : s.nodeOutcome k a o .nothing = s.applyStep r k o .nothing := by
  unfold State.nodeOutcome
  rw [hr]
  dsimp only
  rw [if_neg (by simp [hh, hd]), if_neg ho, State.missed, if_neg ha]
  split <;> rfl

/-- A record in IDENTIFY, LOST or MISMATCH. -/
theorem NodeState.sought_cases {x : NodeState} (h : x = .identify ∨ x = .lost ∨ x = .mismatch) : x ≠ .declared ∧ x ≠ .active := by
  rcases h with h | h | h <;> subst h <;> exact ⟨nofun, nofun⟩

theorem State.applyStep_identified (h : r.state = .identify ∨ r.state = .lost ∨ r.state = .mismatch) (o : TxOutcome) (ty : NodeType)
    (serial : Serial) (fw : Byte × Byte) : s.applyStep r .identify o (.identify ty serial fw) = s.identified r ty serial fw := by
  unfold State.applyStep
  rcases h with h | h | h <;> rw [h]

theorem State.applyStep_unidentified (h : r.state = .identify ∨ r.state = .lost ∨ r.state = .mismatch) (o : TxOutcome) :
    s.applyStep r .identify o .nothing = s.startRetry r.addr := by
  unfold State.applyStep
  rcases h with h | h | h <;> rw [h]

theorem State.applyStep_setup (h : r.state = .setup .awaitSetup) (o : TxOutcome) :
    s.applyStep r .setup o .nothing = if o = .done then s.askBringUpRead r.addr else s.leaveSetup r.addr := by
  unfold State.applyStep
  rw [h]

theorem State.applyStep_read (h : r.state = .setup .awaitStatus) (o : TxOutcome) (d : NodeStatus) :
    s.applyStep r .status o (.status d) = s.enterActive r d := by
  unfold State.applyStep
  rw [h]

theorem State.applyStep_unread (h : r.state = .setup .awaitStatus) (o : TxOutcome) : s.applyStep r .status o .nothing = s.leaveSetup r.addr := by
  unfold State.applyStep
  rw [h]

theorem State.applyStep_polled (h : r.state = .active) (o : TxOutcome) (d : NodeStatus) :
    s.applyStep r .status o (.status d) = s.polled r d := by
  unfold State.applyStep
  rw [h]

theorem State.applyStep_active (h : r.state = .active) (k : TxKind) (o : TxOutcome) : s.applyStep r k o .nothing = s := by
  unfold State.applyStep
  rw [h]
  cases k <;> rfl

end

/-! ## The steps of SETUP (R31) -/

section
variable {s : State} {a : Nat} {r : NodeRecord}

theorem State.txClass_status (hr : s.node a = some r) : s.txClass .status a = if r.type = .station then .a else .c := by
  unfold State.txClass
  rw [hr]
  simp

theorem State.enterSetup_joins (hm : s.mode ≠ .config) (hq : s.QueueRoom) :
    s.enterSetup a = (s.onNode a fun n => { n with state := .setup .awaitSetup, retryTimer := none }).joined .setup a := by
  unfold State.enterSetup
  dsimp only
  rw [State.queueTx_joins (k := .setup) (by exact hm) (by exact hq) nofun]

theorem State.askBringUpRead_taken {u v : State} (hu : s.onNode a (fun n => { n with state := .setup .awaitStatus }) = u)
    (h : u.queueTx .status a = (v, .taken)) : s.askBringUpRead a = v := by
  unfold State.askBringUpRead
  dsimp only
  rw [hu, h]

theorem State.askBringUpRead_refused {u : State} {x : QueueAnswer} (hu : s.onNode a (fun n => { n with state := .setup .awaitStatus }) = u)
    (hx : x ≠ .taken) (h : u.queueTx .status a = (u, x)) : s.askBringUpRead a = u.leaveSetup a := by
  unfold State.askBringUpRead
  dsimp only
  rw [hu, h]
  cases x
  · exact absurd rfl hx
  all_goals rfl

/-- A record of SETUP that has been seen and waits for its bring-up read. -/
def State.awaits (s : State) (a : Nat) : State := s.onNode a fun n => { n with lastSeen := s.uptime, state := .setup .awaitStatus }

theorem State.seen_awaits (hs : s.Ordered) (hr : s.node a = some r) (ha : r.state ≠ .active) :
    (s.seen a).onNode a (fun n => { n with state := .setup .awaitStatus }) = s.awaits a := by
  refine (s.onNode_onNode a _ (by intro; rfl)).trans (State.onNode_congr hs hr ?_)
  dsimp only [Function.comp_apply]
  rw [if_neg ha]

theorem State.setup_done (hr : s.node a = some r) (hh : r.enrolHold = false) (h : r.state = .setup .awaitSetup) :
    s.nodeOutcome .setup a .done .nothing = (s.seen a).askBringUpRead a := by
  rw [State.nodeOutcome_done hr hh (by rw [h]; nofun), State.applyStep_setup h, if_pos rfl, State.node_addr hr]

/-- What an outcome of SETUP's two steps leaves where it fails (R31). -/
theorem State.setup_failed (hr : s.node a = some r) (hh : r.enrolHold = false) {k : TxKind}
    (h : (r.state = .setup .awaitSetup ∧ k = .setup) ∨ (r.state = .setup .awaitStatus ∧ k = .status)) {o : TxOutcome} (ho : o ≠ .done) :
    s.nodeOutcome k a o .nothing = s.leaveSetup a := by
  rcases h with ⟨h, rfl⟩ | ⟨h, rfl⟩
  · rw [State.nodeOutcome_failed hr hh (by rw [h]; nofun) (by rw [h]; nofun) _ ho, State.applyStep_setup h, if_neg ho, State.node_addr hr]
  · rw [State.nodeOutcome_failed hr hh (by rw [h]; nofun) (by rw [h]; nofun) _ ho, State.applyStep_unread h, State.node_addr hr]

end

/-! ## The reply to IDENTIFY (R29, R36) -/

section
variable {s : State} {a : Nat} {r : NodeRecord} {ty : NodeType} {serial : Serial} (hs : s.Ordered) (hr : s.node a = some r)
  (hh : r.enrolHold = false) (h : r.state = .identify ∨ r.state = .lost ∨ r.state = .mismatch)
include hs hr hh h

theorem State.identify_agrees (hm : s.mode ≠ .config) (hq : s.QueueRoom) (fw : Byte × Byte)
    (ht : ty = r.type ∧ (r.serial = 0 ∨ r.serial = serial)) : s.nodeOutcome .identify a .done (.identify ty serial fw)
      = (s.onNode a fun n => { n with
          lastSeen := s.uptime, serial := serial, firmware := some fw, state := .setup .awaitSetup, retryTimer := none }).joined .setup a := by
  obtain ⟨hd, ha⟩ := NodeState.sought_cases h
  rw [State.nodeOutcome_done hr hh hd, State.applyStep_identified h, State.identified, if_pos (by simpa [NodeRecord.agrees] using ht),
    State.node_addr hr, State.enterSetup_joins (by exact hm) (by exact hq)]
  refine congrArg (fun u : State => u.joined .setup a) ?_
  rw [State.seen, State.onNode_onNode _ _ _ (by intro; rfl), State.onNode_onNode _ _ _ (by intro; rfl)]
  refine State.onNode_congr hs hr ?_
  dsimp only [Function.comp_apply]
  rw [if_neg ha]

theorem State.identify_disagrees (fw : Byte × Byte) (ht : ¬ (ty = r.type ∧ (r.serial = 0 ∨ r.serial = serial))) :
    s.nodeOutcome .identify a .done (.identify ty serial fw) = { s.onNode a (fun n => { n with
        lastSeen := s.uptime, state := .mismatch, retryTimer := some (s.uptime + 5000) }) with
      link := if r.state = .mismatch then s.link
              else s.link.post ⟨.nodeMismatch, a, BitVec.ofNat 8 ty.code :: leBytes 4 serial.toNat, s.uptime⟩ } := by
  obtain ⟨hd, ha⟩ := NodeState.sought_cases h
  have hu : ((s.seen a).onNode a fun r => { r with state := .mismatch }).startRetry a = s.onNode a (fun n => { n with
      lastSeen := s.uptime, state := .mismatch, retryTimer := some (s.uptime + 5000) }) := by
    rw [State.startRetry, State.seen, State.onNode_onNode _ _ _ (by intro; rfl), State.onNode_onNode _ _ _ (by intro; rfl)]
    refine State.onNode_congr hs hr ?_
    dsimp only [Function.comp_apply]
    rw [if_neg ha]
    rfl
  rw [State.nodeOutcome_done hr hh hd, State.applyStep_identified h, State.identified, if_neg (by simpa [NodeRecord.agrees] using ht),
    State.node_addr hr, hu]
  dsimp only
  by_cases hx : r.state = .mismatch
  · rw [if_pos hx, if_pos hx]; rfl
  · rw [if_neg hx, if_neg hx]; rfl

end

/-! ## The bring-up read (R32, R57 to R59) -/

/-- What a DIMMER4's, a SWITCH8's or a BLIND2's reply says: its levels, and what it leaves of the fault bits and the channels. -/
def State.Reads (s : State) (a : Nat) (r : NodeRecord) (d : NodeStatus) (levels : List Nat) (faults : Option (BitVec 4))
    (chs : List Channel) : Prop :=
  (∃ f, d = .dimmer levels f ∧ faults = some f ∧ chs = s.channels)
    ∨ (∃ b : Byte, d = .switch b ∧ levels = (List.range 8).map (fun i => if b.getLsbD i then 1000 else 0)
      ∧ faults = r.faultBits ∧ chs = s.channels)
    ∨ (∃ mv : Byte, d = .blind levels mv ∧ faults = r.faultBits ∧ chs = s.channels.map fun c =>
      if c.cfg.node = a ∧ c.cfg.kind = .blind then
        { c with reported := (match levels[c.cfg.index - 1]? with | some v => some v | none => c.reported)
                 moving := mv.getLsbD (c.cfg.index - 1) }
      else c)

/-- A record as it enters ACTIVE. -/
def NodeRecord.active (n : NodeRecord) (now : Uptime) : NodeRecord :=
  { n with state := .active, misses := 0, retryTimer := none, lastSeen := now
           pollTimer := some (now + (if n.type = .station then 50 else 250)) }

/-- What is left of a record's bring-up when it enters ACTIVE. -/
def NodeRecord.brought (n : NodeRecord) : NodeRecord := { n with adoptionPending := false, returnFlag := false }

theorem later_pollPeriod (e : Uptime) (ty : NodeType) : later e ty.pollPeriod = e + (if ty = .station then 50 else 250) := by cases ty <;> rfl

theorem later_retryPeriod (e : Uptime) (x : NodeState) : later e x.retryPeriod = e + (if x = .mismatch then 5000 else 1000) := by
  cases x <;> rfl

/-- A state with its channel table replaced. -/
def State.withChannels (s : State) (cs : List Channel) : State := { s with channels := cs }

theorem blindReport_eq (s : State) (a : Nat) (levels : List Nat) (mv : Byte) : s.blindReport a levels mv = s.withChannels
    (s.channels.map fun c => if c.cfg.node = a ∧ c.cfg.kind = .blind then
      { c with reported := (match levels[c.cfg.index - 1]? with | some v => some v | none => c.reported)
               moving := mv.getLsbD (c.cfg.index - 1) }
    else c) := by
  refine congrArg s.withChannels (List.map_congr_left fun c _ => ?_)
  split
  · cases levels[c.cfg.index - 1]? <;> rfl
  · rfl

theorem State.read_done {s : State} {a : Nat} {r : NodeRecord} (hr : s.node a = some r) (hh : r.enrolHold = false)
    (h : r.state = .setup .awaitStatus) (d : NodeStatus) : s.nodeOutcome .status a .done (.status d) = (s.seen a).enterActive r d := by
  rw [State.nodeOutcome_done hr hh (by rw [h]; nofun), State.applyStep_read h]

theorem State.takeStatus_dimmer (s : State) (a : Nat) (levels : List Nat) (f : BitVec 4) :
    s.takeStatus a (.dimmer levels f) = s.onNode a fun n => { n with faultBits := some f } := rfl

theorem State.takeStatus_switch (s : State) (a : Nat) (b : Byte) : s.takeStatus a (.switch b) = s := rfl

theorem State.takeStatus_keys (s : State) (a : Nat) (held : Byte) (events : List KeyEvent) : s.takeStatus a (.keys held events) = s := rfl

theorem State.takeStatus_blind (s : State) (a : Nat) (levels : List Nat) (mv : Byte) : s.takeStatus a (.blind levels mv) = s.withChannels
    (s.channels.map fun c => if c.cfg.node = a ∧ c.cfg.kind = .blind then
      { c with reported := (match levels[c.cfg.index - 1]? with | some v => some v | none => c.reported)
               moving := mv.getLsbD (c.cfg.index - 1) }
    else c) := blindReport_eq s a levels mv

theorem State.adopt_eq {s : State} (hm : s.mode ≠ .config) (a : Nat) (levels : List Nat) : s.adopt a levels = s.withChannels
    (s.channels.map fun c => if c.cfg.node = a ∧ c.untouched = true then
      match levels[c.cfg.index - 1]? with
      | some v => { c with current := v, target := v, lastSent := some v, reported := if c.cfg.kind = .blind then some v else c.reported }
      | none => c
    else c) := if_neg hm

theorem State.bringUpFlags_uptime (s : State) (r : NodeRecord) (d : NodeStatus) : (s.bringUpFlags r d).uptime = s.uptime := by
  obtain ⟨cs, hadopt⟩ : ∃ cs, s.adopt r.addr d.levels = s.withChannels cs := by
    unfold State.adopt
    split
    · exact ⟨s.channels, rfl⟩
    · exact ⟨_, rfl⟩
  unfold State.bringUpFlags
  rw [hadopt]
  cases r.adoptionPending <;> cases r.returnFlag <;> rfl

section
variable {s : State} {a : Nat} {r : NodeRecord} (hs : s.Ordered) (hr : s.node a = some r) (hh : r.enrolHold = false)
  (h : r.state = .setup .awaitStatus)
include hs hr

theorem State.seen_enters : ((s.seen a).onNode a fun n =>
      { n with state := .active, misses := 0, retryTimer := none, pollTimer := some ((s.seen a).after n.type.pollPeriod) })
    = s.onNode a (·.active s.uptime) := by
  refine (s.onNode_onNode a _ (by intro; rfl)).trans (State.onNode_congr hs hr ?_)
  have hp : (s.seen a).after r.type.pollPeriod = s.uptime + (if r.type = .station then 50 else 250) := later_pollPeriod _ _
  dsimp only [Function.comp_apply, NodeRecord.active]
  rw [hp]

include hh h

section
variable {d : NodeStatus} {levels : List Nat} {faults : Option (BitVec 4)} {chs : List Channel} (hd : s.Reads a r d levels faults chs)
include hd

/-- A node with outputs that enters ACTIVE, before its flags act. -/
theorem State.read_outputs : s.nodeOutcome .status a .done (.status d)
      = State.bringUpFlags ((s.onNode a fun n => { n.active s.uptime with faultBits := faults }).withChannels chs) r d
    ∧ d.levels = levels := by
  have hra := State.node_addr hr
  have hfaults : s.onNode a (fun n => { n.active s.uptime with faultBits := r.faultBits }) = s.onNode a (·.active s.uptime) :=
    State.onNode_congr hs hr rfl
  rw [State.read_done hr hh h]
  rcases hd with ⟨f, rfl, rfl, rfl⟩ | ⟨b, rfl, rfl, rfl, rfl⟩ | ⟨mv, rfl, rfl, rfl⟩
  · refine ⟨?_, rfl⟩
    unfold State.enterActive
    dsimp only
    rw [hra, State.seen_enters hs hr, State.takeStatus_dimmer, State.onNode_onNode _ _ _ (by intro; rfl)]
    rfl
  · refine ⟨?_, rfl⟩
    unfold State.enterActive
    dsimp only
    rw [hra, State.seen_enters hs hr, State.takeStatus_switch, hfaults]
    rfl
  · refine ⟨?_, rfl⟩
    unfold State.enterActive
    dsimp only
    rw [hra, State.seen_enters hs hr, State.takeStatus_blind, hfaults]
    rfl

theorem State.read_adopted (hm : s.mode ≠ .config) (ha : r.adoptionPending = true) (hf : r.returnFlag = false) :
    s.nodeOutcome .status a .done (.status d) = (s.onNode a fun n => { (n.active s.uptime).brought with faultBits := faults }).withChannels
      (chs.map fun c => if c.cfg.node = a ∧ c.untouched = true then
        match levels[c.cfg.index - 1]? with
        | some v => { c with current := v, target := v, lastSent := some v, reported := if c.cfg.kind = .blind then some v else c.reported }
        | none => c
      else c) := by
  obtain ⟨hx, hl⟩ := State.read_outputs hs hr hh h hd
  have hn : (s.onNode a fun n => { n.active s.uptime with faultBits := faults }).onNode a (fun n => { n with adoptionPending := false })
      = s.onNode a fun n => { (n.active s.uptime).brought with faultBits := faults } :=
    (s.onNode_onNode a _ (by intro; rfl)).trans (State.onNode_congr hs hr (by simp [NodeRecord.brought, NodeRecord.active, hf]))
  rw [hx, State.bringUpFlags, if_pos ha, if_neg (by rw [hf]; nofun), hl, State.node_addr hr, State.adopt_eq (by exact hm)]
  exact (congrArg (fun u : State => u.withChannels (chs.map fun c => if c.cfg.node = a ∧ c.untouched = true then
    match levels[c.cfg.index - 1]? with
    | some v => { c with current := v, target := v, lastSent := some v, reported := if c.cfg.kind = .blind then some v else c.reported }
    | none => c
  else c)) hn :)

theorem State.read_returned (ha : r.adoptionPending = false) (hf : r.returnFlag = true) :
    s.nodeOutcome .status a .done (.status d) =
      { (s.onNode a fun n => { (n.active s.uptime).brought with faultBits := faults }).withChannels
          (chs.map fun c => if c.cfg.node = a then { c with lastSent := none } else c) with
        link := s.link.post ⟨.nodeBack, a, [], s.uptime⟩ } := by
  obtain ⟨hx, hl⟩ := State.read_outputs hs hr hh h hd
  have hn : (s.onNode a fun n => { n.active s.uptime with faultBits := faults }).onNode a (fun n => { n with returnFlag := false })
      = s.onNode a fun n => { (n.active s.uptime).brought with faultBits := faults } :=
    (s.onNode_onNode a _ (by intro; rfl)).trans (State.onNode_congr hs hr (by simp [NodeRecord.brought, NodeRecord.active, ha]))
  rw [hx, State.bringUpFlags, ha, hf, State.node_addr hr]
  exact (congrArg (fun u : State => { u.withChannels (chs.map fun c => if c.cfg.node = a then { c with lastSent := none } else c) with
    link := s.link.post ⟨.nodeBack, a, [], s.uptime⟩ }) hn :)

theorem State.read_plain (ha : r.adoptionPending = false) (hf : r.returnFlag = false) :
    s.nodeOutcome .status a .done (.status d) =
      (s.onNode a fun n => { (n.active s.uptime).brought with faultBits := faults }).withChannels chs := by
  obtain ⟨hx, hl⟩ := State.read_outputs hs hr hh h hd
  have hn : (s.onNode a fun n => { n.active s.uptime with faultBits := faults })
      = s.onNode a fun n => { (n.active s.uptime).brought with faultBits := faults } :=
    State.onNode_congr hs hr (by simp [NodeRecord.brought, NodeRecord.active, ha, hf])
  rw [hx, State.bringUpFlags, ha, hf]
  exact (congrArg (fun u : State => u.withChannels chs) hn :)

end

/-- The record of a keypad or a station as its bring-up read leaves it (R32). -/
def State.keyed (s : State) (a : Nat) (r : NodeRecord) (held : Byte) : State := s.onNode a fun n =>
  { (n.active s.uptime).brought with held := held, confirmTime := if r.type = .station then s.uptime else r.confirmTime }

/-- A keypad or a station that enters ACTIVE, before the ownership unit is told. -/
theorem State.read_keys (ha : r.adoptionPending = false) (held : Byte) (events : List KeyEvent) {u : State}
    (h0 : r.returnFlag = false → u = s.keyed a r held)
    (h1 : r.returnFlag = true → u = { (s.keyed a r held).withChannels
        (s.channels.map fun c => if c.cfg.node = a then { c with lastSent := none } else c) with
      link := s.link.post ⟨.nodeBack, a, [], s.uptime⟩ }) :
    s.nodeOutcome .status a .done (.status (.keys held events))
      = if r.type = .station then (u.stationUpdate a 0 held []).stationActive a else u := by
  have hra := State.node_addr hr
  have hu : ((s.onNode a (·.active s.uptime)).bringUpFlags r (.keys held events)).onNode a (fun n =>
      { n with held := held, confirmTime := if n.type = .station then s.uptime else n.confirmTime }) = u := by
    unfold State.bringUpFlags
    dsimp only
    rw [ha]
    cases hf : r.returnFlag
    · rw [h0 hf]
      refine (s.onNode_onNode a _ (by intro; rfl)).trans (State.onNode_congr hs hr ?_)
      simp [NodeRecord.brought, NodeRecord.active, ha, hf]
    · rw [h1 hf, hra]
      have hn : ((s.onNode a (·.active s.uptime)).onNode a fun n => { n with returnFlag := false }).onNode a (fun n =>
          { n with held := held, confirmTime := if n.type = .station then s.uptime else n.confirmTime }) = s.keyed a r held := by
        rw [State.onNode_onNode _ _ _ (by intro; rfl), State.onNode_onNode _ _ _ (by intro; rfl)]
        refine State.onNode_congr hs hr ?_
        simp [NodeRecord.brought, NodeRecord.active, ha]
      exact (congrArg (fun u : State => { u.withChannels (s.channels.map fun c =>
        if c.cfg.node = a then { c with lastSent := none } else c) with link := s.link.post ⟨.nodeBack, a, [], s.uptime⟩ }) hn :)
  rw [State.read_done hr hh h]
  unfold State.enterActive
  dsimp only
  rw [hra, State.seen_enters hs hr, State.takeStatus_keys, State.bringUpFlags_uptime, ← hu]
  rfl

end

/-! ## Polls, and the loss of a station (R33, R34, R38, R164) -/

section
variable {s : State} {a : Nat} {r : NodeRecord}

/-- An ACTIVE record that has been seen. -/
def State.heard (s : State) (a : Nat) : State := s.onNode a fun n => { n with lastSeen := s.uptime, misses := 0 }

theorem State.poll_done (hs : s.Ordered) (hr : s.node a = some r) (hh : r.enrolHold = false) (h : r.state = .active) (d : NodeStatus) :
    s.nodeOutcome .status a .done (.status d) = (s.heard a).polled r d := by
  have hn : s.seen a = s.heard a := State.onNode_congr hs hr (by rw [if_pos h])
  rw [State.nodeOutcome_done hr hh (by rw [h]; nofun), State.applyStep_polled h, hn]

/-- The part when a station's loss has stopped its motions, before NODE_LOST. -/
def State.unmanned (s : State) (a : Nat) : State :=
  State.stationLost ((s.onNode a fun n => { n with
    state := .lost, misses := 3, returnFlag := true, pollTimer := none, retryTimer := some (s.uptime + 1000), held := 0 }).nodeLeft a) a

theorem State.polled_keypad (ht : r.type = .keypad) (held : Byte) (events : List KeyEvent) :
    s.polled r (.keys held events) = (s.onNode r.addr fun n => { n with held := held }).offerKeys r.addr events := by
  show s.takeKeys r held events = _
  unfold State.takeKeys
  rw [ht]

theorem State.polled_station (ht : r.type = .station) (held : Byte) (events : List KeyEvent) : s.polled r (.keys held events)
    = (s.onNode r.addr fun n => { n with held := held, confirmTime := s.uptime }).stationKeys r.addr r.held held events := by
  show s.takeKeys r held events = _
  unfold State.takeKeys
  rw [ht]

theorem State.third_miss (hr : s.node a = some r) (hh : r.enrolHold = false) (h : r.state = .active) (ht : r.type = .station)
    (hm : r.misses = 2) (k : TxKind) {o : TxOutcome} (ho : o ≠ .done) (hb : o ≠ .busFault) :
    s.nodeOutcome k a o .nothing = (s.unmanned a).post .nodeLost a (leBytes 1 o.code) := by
  have hf : o.isFailure = true := by
    unfold TxOutcome.isFailure
    split
    · exact absurd rfl ho
    · exact absurd rfl hb
    · rfl
  unfold State.nodeOutcome
  rw [hr]
  dsimp only
  rw [if_neg (by simp [hh, h]), if_pos hf, if_neg ho, State.applyStep_active h, State.missed, if_pos h, if_pos (by omega), State.enterLost, if_pos ht, State.node_addr hr]
  rfl

/-- A stop that has been delivered has reached its resource. -/
theorem State.Halted.reached {t : State} {q : Resource} {c : Cause} (h : (s.onOwner q OwnerRecord.told).Halted t q c) : s.StopReached t q c := by
  have hup : (s.onOwner q OwnerRecord.told).uptime = s.uptime := by cases q <;> rfl
  have hown : (s.onOwner q OwnerRecord.told).ownerOf q = { s.ownerOf q with stopDelivered := true } := State.ownerOf_onOwner _ _ _
  refine ⟨fun m hq => ?_, fun hq => ?_⟩
  · obtain ⟨h1, h2, h3⟩ := h.1 m hq
    rw [State.mover_onOwner, hown] at h1 h3
    rw [State.mover_onOwner] at h2
    rw [hup] at h1
    exact ⟨h1, fun g => by obtain ⟨g1, g2⟩ := h2 g; rw [g1]; exact ⟨rfl, rfl, g2⟩, h3⟩
  · subst hq
    exact h.2 rfl

theorem State.StopsMade.reached {t : State} {rs : List Resource} {mine : Owner → Bool} {c : Cause} (h : s.StopsMade t rs mine c)
    {q : Resource} (hq : q ∈ rs) (ho : s.Owed mine q) : s.StopReached t q c := (h.halted q hq ho).reached

theorem State.unmanned_uptime (s : State) (a : Nat) : (s.unmanned a).uptime = s.uptime := (State.stopOwned_made _ _ _).uptime

theorem State.unmanned_nodes (s : State) (a : Nat) : (s.unmanned a).nodes = (s.onNode a fun n => { n with
    state := .lost, misses := 3, returnFlag := true, pollTimer := none, retryTimer := some (s.uptime + 1000), held := 0 }).nodes := by
  obtain ⟨_, _, _, _, _, _, _, _, _, _, _, _, e⟩ := DeckOnly.of_stopOwned ((s.onNode a fun n => { n with
    state := .lost, misses := 3, returnFlag := true, pollTimer := none, retryTimer := some (s.uptime + 1000), held := 0 }).nodeLeft a)
    (fun o => o = .station a) .stationLost
  rw [State.unmanned, State.stationLost, e]
  rfl

theorem State.unmanned_stops (s : State) (a : Nat) (q : Resource) :
    ((s.ownerOf q).owner ≠ .station a ∨ (s.ownerOf q).stopDelivered = true → s.Untouched (s.unmanned a) q)
      ∧ ((s.ownerOf q).owner = .station a → (s.ownerOf q).stopDelivered = false → s.StopReached (s.unmanned a) q .stationLost) := by
  have h := State.stopOwned_made ((s.onNode a fun n => { n with
    state := .lost, misses := 3, returnFlag := true, pollTimer := none, retryTimer := some (s.uptime + 1000), held := 0 }).nodeLeft a)
    (fun o => o = .station a) .stationLost
  refine ⟨fun hn => ?_, fun h1 h2 => ?_⟩
  · have g := h.untouched q (.inr fun ho => by
      obtain ⟨-, h1, h2⟩ := ho
      cases q <;> exact hn.elim (· (of_decide_eq_true h1)) fun h => nomatch h.symm.trans h2)
    cases q <;> exact g
  · have g := h.reached (mem_resources q) (by
      cases q <;> exact ⟨fun g => (nomatch (h1.symm.trans g : Owner.station a = .none)), decide_eq_true h1, h2⟩)
    cases q <;> exact g

end

end Sys2Proof.Machine

namespace Sys2Proof.Proofs

open Sys2Proof.Machine

/-- Settles O57: each timer, reply and step of a record, by the lemma that says what it does. -/
theorem nodeBringUp : Obligations.NodeBringUp := by
  refine ⟨fun s a => ⟨fun h => ?_, fun h => ?_, fun r e hr hm hb => ?_⟩,
    fun s a r ty serial fw hs hr hh h => ⟨fun ht hser hm hb hl => ?_, fun ht => ?_⟩,
    fun s a r hs hr hh hm upd hupd back hback => ⟨fun o ho h => ?_, fun h => ⟨fun o ho => ?_, fun hx hb => ?_, fun hn hb hl => ?_, fun hx => ?_⟩,
      fun h => ⟨fun o ho => ?_, fun active hactive => ⟨fun d levels faults chs hd => ?_, fun held events u ha h0 h1 => ?_⟩⟩,
      fun h seen hseen => ?_⟩⟩
  · show execNodeRetryExpiry a s = _
    unfold execNodeRetryExpiry
    rw [h]
  · show execPollExpiry a s = _
    unfold execPollExpiry
    rw [h]
  · have hretry : r.retryTimer = some e → exec (.nodeRetryExpiry a) s = .next (State.askIdentify
        (State.onNode { s with uptime := (s.atMoment e).uptime } a fun n => { n with retryTimer := none }) a) := fun he => by
      show execNodeRetryExpiry a s = _
      unfold execNodeRetryExpiry
      rw [hr, Option.bind_some, he]
      exact congrArg (fun v : State => Host.Outcome.next ((v.onNode a fun n => { n with retryTimer := none }).askIdentify a)) (s.atMoment_eq e)
    have hpoll : r.pollTimer = some e → exec (.pollExpiry a) s = .next (State.askTx
        (State.onNode { s with uptime := (s.atMoment e).uptime } a fun n => { n with
          pollTimer := some (e + (if n.type = .station then 50 else 250)) }) .status a) := fun he => by
      show execPollExpiry a s = _
      unfold execPollExpiry
      rw [hr, Option.bind_some, he]
      simp only [later_pollPeriod]
      exact congrArg (fun v : State => Host.Outcome.next ((v.onNode a fun n => { n with
        pollTimer := some (e + (if n.type = .station then 50 else 250)) }).askTx .status a)) (s.atMoment_eq e)
    refine ⟨fun he hl => ?_, fun he hl => ?_, fun he hl hn => ?_, fun he hn => ?_⟩
    · rw [hretry he, State.askIdentify_joins (by exact hm) (by exact ⟨hb, hl⟩), s.atMoment_eq e]
      rfl
    · rw [hretry he, State.askIdentify_refused (by exact hm) (by exact hl), State.startRetry, State.onNode_onNode _ _ _ (by intro; rfl),
        s.atMoment_eq e]
      refine congrArg (fun f => Host.Outcome.next (State.onNode { s with uptime := (s.atMoment e).uptime } a f)) (funext fun n => ?_)
      exact congrArg (fun p => { n with retryTimer := some p }) (later_retryPeriod _ n.state)
    · have hcls := State.txClass_status (State.node_onNode (s := { s with uptime := (s.atMoment e).uptime })
        (f := fun n => { n with pollTimer := some (e + (if n.type = .station then 50 else 250)) }) hr (by intro; rfl))
      rw [hpoll he, State.askTx, State.queueTx_joins (by exact hm) (by exact ⟨hb, hl⟩) (fun _ => by exact hn), State.joined_of_class hcls,
        s.atMoment_eq e]
      rfl
    · have hx : State.askTx (State.onNode { s with uptime := (s.atMoment e).uptime } a fun n => { n with
          pollTimer := some (e + (if n.type = .station then 50 else 250)) }) .status a
          = State.onNode { s with uptime := (s.atMoment e).uptime } a fun n => { n with
            pollTimer := some (e + (if n.type = .station then 50 else 250)) } := by
        unfold State.askTx
        by_cases hx : ∃ x ∈ s.bus.queue, x.kind = .status ∧ x.target = a
        · rw [State.queueTx_absorbed (by exact hm) (by exact hb) (by exact hx)]
        · obtain ⟨y, -, hq⟩ := State.queueTx_refused (s := State.onNode { s with uptime := (s.atMoment e).uptime } a fun n => { n with
            pollTimer := some (e + (if n.type = .station then 50 else 250)) }) (k := .status) (a := a) (by exact hm)
            (.inr ⟨fun _ x hm h => hx ⟨x, hm, h⟩, hn.resolve_left hx⟩)
          rw [hq]
      rw [hpoll he, hx, s.atMoment_eq e]
      rfl
  · exact State.identify_agrees hs hr hh h hm ⟨hb, hl⟩ fw ⟨ht, hser⟩
  · exact State.identify_disagrees hs hr hh h fw (by
      rintro ⟨g, g'⟩
      exact ht.elim (· g) fun k => g'.elim k.1 k.2)
  all_goals
    obtain rfl : back = fun n => { n with state := if n.returnFlag then .lost else .identify, retryTimer := some (s.uptime + 1000) } := funext hback
  · obtain ⟨hd, ha⟩ := NodeState.sought_cases h
    rw [State.nodeOutcome_failed hr hh hd ha _ ho, State.applyStep_unidentified h, hupd, State.node_addr hr]
    refine State.onNode_congr hs hr ?_
    exact congrArg (fun p => { r with retryTimer := some p }) (later_retryPeriod _ r.state)
  · rw [State.setup_failed hr hh (.inl ⟨h, rfl⟩) ho, hupd]
    rfl
  · rw [State.setup_done hr hh h, State.askBringUpRead_taken (State.seen_awaits hs hr (by rw [h]; nofun))
      (State.queueTx_absorbed (by exact hm) (by exact hb) (by exact hx)), hupd]
    rfl
  · rw [State.setup_done hr hh h, State.askBringUpRead_taken (State.seen_awaits hs hr (by rw [h]; nofun))
      (State.queueTx_joins (by exact hm) (by exact ⟨hb, hl⟩) (fun _ => by exact hn)), hupd,
      State.joined_of_class (State.txClass_status (s := s.awaits a) (State.node_onNode hr (by intro; rfl)))]
    rfl
  · obtain ⟨x, hx, hq⟩ := State.queueTx_refused (s := s.awaits a) (k := .status) (a := a) (by exact hm) (hx.imp_right fun h => ⟨fun _ => h.1, h.2⟩)
    rw [State.setup_done hr hh h, State.askBringUpRead_refused (State.seen_awaits hs hr (by rw [h]; nofun)) hx hq, hupd]
    exact s.onNode_onNode a _ (by intro; rfl)
  · rw [State.setup_failed hr hh (.inr ⟨h, rfl⟩) ho, hupd]
    rfl
  · obtain rfl : active = fun n => { (n.active s.uptime).brought with
        pollTimer := some (s.uptime + (if r.type = .station then 50 else 250)) } := funext hactive
    have hnodes : s.onNode a (fun n => { (n.active s.uptime).brought with
        pollTimer := some (s.uptime + (if r.type = .station then 50 else 250)), faultBits := faults })
      = s.onNode a fun n => { (n.active s.uptime).brought with faultBits := faults } := State.onNode_congr hs hr rfl
    rw [hupd]
    refine ⟨fun ha hf => ?_, fun ha hf => ?_, fun ha hf => ?_⟩
    · rw [State.read_adopted hs hr hh h hd hm ha hf, ← hnodes]
      rfl
    · rw [State.read_returned hs hr hh h hd ha hf, ← hnodes]
      rfl
    · rw [State.read_plain hs hr hh h hd ha hf, ← hnodes]
      rfl
  · obtain rfl : active = fun n => { (n.active s.uptime).brought with
        pollTimer := some (s.uptime + (if r.type = .station then 50 else 250)) } := funext hactive
    have hnodes : s.onNode a (fun n => { (n.active s.uptime).brought with
        pollTimer := some (s.uptime + (if r.type = .station then 50 else 250)), held := held
        confirmTime := if r.type = .station then s.uptime else r.confirmTime }) = s.keyed a r held := State.onNode_congr hs hr rfl
    rw [hupd] at h0 h1
    have hx := State.read_keys hs hr hh h ha held events (u := u) (fun hf => (h0 hf).trans hnodes)
      (fun hf => (h1 hf).trans (congrArg (fun v : State => { v.withChannels (s.channels.map fun c =>
        if c.cfg.node = a then { c with lastSent := none } else c) with link := s.link.post ⟨.nodeBack, a, [], s.uptime⟩ }) hnodes :))
    exact ⟨fun ht => hx.trans (if_neg ht), fun ht => hx.trans (if_pos ht)⟩
  · obtain rfl : seen = fun n => { n with lastSeen := s.uptime, misses := 0 } := funext hseen
    have hra := State.node_addr hr
    have hpoll : ∀ d, s.nodeOutcome .status a .done (.status d) = (s.heard a).polled r d := State.poll_done hs hr hh h
    refine ⟨fun levels f => ?_, fun b => ?_, fun levels mv => ?_, fun held events ht => ?_, fun held events ht => ?_,
      fun k o ht hmis ho hb => ⟨s.unmanned a, ?_, ?_, fun b hb => ?_, fun q => s.unmanned_stops a q⟩⟩
    · rw [hpoll, hupd]
      show (s.heard a).takeStatus r.addr (.dimmer levels f) = _
      rw [hra, State.takeStatus_dimmer]
      exact s.onNode_onNode a _ (by intro; rfl)
    · rw [hpoll, hupd]
      rfl
    · rw [hpoll, hupd]
      show (s.heard a).takeStatus r.addr (.blind levels mv) = _
      rw [hra, State.takeStatus_blind]
      rfl
    · rw [hpoll, hupd, State.polled_keypad ht, hra, State.heard, State.onNode_onNode _ _ _ (by intro; rfl)]
      rfl
    · rw [hpoll, hupd, State.polled_station ht, hra, State.heard, State.onNode_onNode _ _ _ (by intro; rfl)]
      rfl
    · rw [State.third_miss hr hh h ht hmis k ho hb, State.post, State.unmanned_uptime]
      rfl
    · rw [State.node, State.unmanned_nodes]
      exact State.node_onNode hr (by intro; rfl)
    · rw [State.node, State.unmanned_nodes]
      exact tableGet_tableModify_other NodeRecord.addr (by intro; rfl) hb

end Sys2Proof.Proofs
end

section
/-!
PROOFS. The control stations: stops, confirmations, the test for a new motion, jogs and lamps (R129, R149, R162 to R169): O56.
-/

namespace Sys2Proof.Machine

/-! ## Stops (R163, R165) -/

/-- A stop the unit delivers reaches its resource, and no other. -/
theorem State.deliverStop_reached (s : State) (r : Resource) (c : Cause) : s.StopReached (s.deliverStop r c) r c :=
  State.Halted.reached (State.stopResource_halted (s.onOwner r OwnerRecord.told) r c)

theorem State.deliverStop_untouched (s : State) {r q : Resource} (c : Cause) (h : q ≠ r) : s.Untouched (s.deliverStop r c) q := by
  refine State.Untouched.trans (t := s.onOwner r OwnerRecord.told) ⟨s.ownerOf_onOwner_ne h _, fun m _ => s.mover_onOwner r _ m, fun _ => ?_⟩
    (State.stopResource_untouched _ c h)
  cases r <;> rfl

theorem Owner.isStation_iff {o : Owner} : o.isStation = true ↔ ∃ a, o = .station a := by
  cases o <;> simp [Owner.isStation]

theorem State.stopAll_made (s : State) : s.StopsMade s.stopAll resources (fun _ => true) .stationStop := s.stopOwned_made _ _

/-! ## Confirmations (R163) -/

section
variable {s : State} {addr : Nat} {held : Byte} {r : Resource}

theorem State.confirmRecord_other (h : (s.ownerOf r).owner ≠ .station addr ∨ (s.ownerOf r).stopDelivered = true) :
    s.confirmRecord addr held r = s :=
  if_neg fun g => h.elim (· g.1) fun h => by rw [h] at g; exact nomatch g.2

theorem State.confirmRecord_held (h1 : (s.ownerOf r).owner = .station addr) (h2 : (s.ownerOf r).stopDelivered = false)
    (h7 : holds held 7 = true) {k : Nat} (hk : (s.ownerOf r).key = some k) (hh : holds held k = true) :
    s.confirmRecord addr held r = s.onOwner r fun o => { o with confirm := some (s.uptime + 150) } :=
  (if_pos ⟨h1, h2⟩).trans (if_pos ⟨h7, by rw [hk]; exact hh⟩)

theorem State.confirmRecord_released (h1 : (s.ownerOf r).owner = .station addr) (h2 : (s.ownerOf r).stopDelivered = false)
    (h : holds held 7 = false ∨ ∀ k, (s.ownerOf r).key = some k → holds held k = false) :
    s.confirmRecord addr held r = s.deliverStop r .released := by
  refine (if_pos ⟨h1, h2⟩).trans (if_neg ?_)
  rintro ⟨h7, hk⟩
  rcases h with h | h
  · rw [h] at h7; cases h7
  · cases ho : (s.ownerOf r).key with
    | none => rw [ho] at hk; cases hk
    | some k => rw [ho] at hk; exact nomatch (h k ho).symm.trans hk

end

/-! ## The test for a new motion (R162) -/

theorem State.onStation_onStation (s : State) (a : Nat) {f : Station → Station} (g : Station → Station) (hf : ∀ t, (f t).addr = t.addr) :
    (s.onStation a f).onStation a g = s.onStation a (g ∘ f) := by
  unfold State.onStation tableModify
  refine congrArg (fun ts => ({ s with stations := ts } : State)) ?_
  rw [List.map_map]
  refine List.map_congr_left fun t _ => ?_
  by_cases h : t.addr = a <;> simp [h, hf]

/-- A station whose keys of a list have been spent DENIED. -/
def Station.deny (t : Station) (ks : List Nat) : Station :=
  { t with spent := ks.foldl (fun v k => v.setIfInBounds (k - 1) (some .denied)) t.spent }

theorem State.spends_eq (s : State) (addr : Nat) (ks : List Nat) :
    ks.foldl (fun s k => s.spend addr k .denied) s = s.onStation addr (·.deny ks) := by
  induction ks generalizing s with
  | nil =>
    refine congrArg (fun ts => ({ s with stations := ts } : State)) ((List.map_id _).symm.trans (List.map_congr_left fun t _ => ?_))
    split <;> rfl
  | cons k ks ih =>
    rw [List.foldl_cons, ih, State.spend, State.onStation_onStation _ _ _ (by intro; rfl)]
    rfl

theorem mem_motionKeys {n : Nat} : n ∈ motionKeys ↔ 1 ≤ n ∧ n ≤ 6 := by
  simp only [motionKeys, List.mem_cons, List.not_mem_nil, or_false]
  omega

theorem Station.mark_deny (t : Station) {ks : List Nat} (hk : ∀ k ∈ ks, k ∈ motionKeys) {n : Nat} (hn : n ∈ motionKeys) :
    (t.deny ks).mark n = if n ∈ ks then some .denied else t.mark n := by
  induction ks generalizing t with
  | nil => rfl
  | cons k ks ih =>
    have hone : (Station.deny t [k]).mark n = if n = k then some .denied else t.mark n := by
      have h1 := mem_motionKeys.mp hn
      have h2 := mem_motionKeys.mp (hk k List.mem_cons_self)
      by_cases h : n = k
      · subst h
        rw [if_pos rfl, Station.mark, Station.deny]
        dsimp only [List.foldl]
        rw [Vector.getElem?_setIfInBounds_self_of_lt (by omega)]
        rfl
      · rw [if_neg h, Station.mark, Station.deny]
        dsimp only [List.foldl]
        rw [Vector.getElem?_setIfInBounds_ne (by omega)]
        rfl
    have hcons : t.deny (k :: ks) = (t.deny [k]).deny ks := rfl
    rw [hcons, ih _ fun x hx => hk x (List.mem_cons_of_mem _ hx), hone]
    by_cases h1 : n ∈ ks
    · rw [if_pos h1, if_pos (List.mem_cons_of_mem _ h1)]
    · rw [if_neg h1]
      exact if_congr (by simp [h1]) rfl rfl

section
variable {s : State} {addr : Nat} {held : Byte} {t : Station} (ht : s.station addr = some t)
include ht

theorem State.acquire_off (h : ¬ (s.mode = .run ∧ holds held 7 = true ∧ holds held 8 = false)) : s.acquire addr held = s := by
  unfold State.acquire
  rw [ht]
  exact if_neg h

section
variable (hr : s.mode = .run) (h7 : holds held 7 = true) (h8 : holds held 8 = false)
include hr h7 h8

theorem State.acquire_none (h : t.heldMapped held = []) : s.acquire addr held = s := by
  unfold State.acquire
  rw [ht]
  dsimp only
  rw [if_pos ⟨hr, h7, h8⟩, h]

theorem State.acquire_spent {k : Nat} (h : t.heldMapped held = [k]) (hk : t.mark k ≠ none) : s.acquire addr held = s := by
  obtain ⟨m, hm⟩ := Option.ne_none_iff_exists'.mp hk
  unfold State.acquire
  rw [ht]
  dsimp only
  rw [if_pos ⟨hr, h7, h8⟩, h]
  dsimp only
  rw [hm]

theorem State.acquire_one {k : Nat} {r : Resource} {d : Direction} (h : t.heldMapped held = [k]) (hk : t.mark k = none)
    (hf : (t.function k).motion = some (r, d)) : s.acquire addr held = s.attempt addr k r d := by
  unfold State.acquire
  rw [ht]
  dsimp only
  rw [if_pos ⟨hr, h7, h8⟩, h]
  dsimp only
  rw [hk, hf]

theorem State.acquire_many {k j : Nat} {ks : List Nat} (h : t.heldMapped held = k :: j :: ks) :
    s.acquire addr held = s.onStation addr (·.deny ((k :: j :: ks).filter fun k => t.mark k = none)) := by
  unfold State.acquire
  rw [ht]
  dsimp only
  rw [if_pos ⟨hr, h7, h8⟩, h]
  exact s.spends_eq addr _

end

end

section
variable {s u : State} {addr k : Nat} {r : Resource} {d : Direction}

theorem State.attempt_owned (h : (s.ownerOf r).owner ≠ .none) : s.attempt addr k r d = s.spend addr k .denied := if_pos h

theorem State.attempt_ok (h : (s.ownerOf r).owner = .none) (hj : s.jog r d = (u, .ok)) : s.attempt addr k r d = State.spend
    (u.onOwner r fun _ => { owner := .station addr, dir := some d, acquired := some u.uptime, key := some k
                            confirm := some (u.uptime + 150) }) addr k .used := by
  unfold State.attempt
  rw [if_neg (not_not.mpr h), hj]
  rfl

theorem State.attempt_atEnd (h : (s.ownerOf r).owner = .none) (hj : s.jog r d = (u, .atEnd)) : s.attempt addr k r d = u.spend addr k .used := by
  unfold State.attempt
  rw [if_neg (not_not.mpr h), hj]

theorem State.attempt_refused (h : (s.ownerOf r).owner = .none) {st : Status} (hj : s.jog r d = (u, .refused st)) :
    s.attempt addr k r d = u.spend addr k .denied := by
  unfold State.attempt
  rw [if_neg (not_not.mpr h), hj]

end

/-! ## The update of a station (R162, R165) -/

theorem Station.release_eq (t : Station) (held : Byte) :
    t.release held = { t with spent := Vector.ofFn fun i => if holds held (i.val + 1) then t.spent[i.val] else none } := by
  refine congrArg (fun v => ({ t with spent := v } : Station)) (Vector.ext fun i hi => ?_)
  rw [Vector.getElem_mapIdx, Vector.getElem_ofFn]

theorem pressesStop_iff {old new : Byte} {events : List KeyEvent} :
    pressesStop old new events = true ↔ (∃ e ∈ events, e.key = 8 ∧ e.edge = .press) ∨ (holds new 8 = true ∧ holds old 8 = false) := by
  simp [pressesStop]

theorem Station.handsOn_eq (t : Station) (e : KeyEvent) : t.handsOn e = decide (1 ≤ e.key ∧ e.key ≤ 6 ∧ t.map[e.key - 1]? = some .none) := by
  unfold Station.handsOn Station.function
  refine decide_eq_decide.mpr (and_congr_right fun h1 => and_congr_right fun h2 => ?_)
  rw [Vector.getElem?_eq_getElem (by omega)]
  simp

/-! ## A jog of the windlass (R149) -/

/-- Whether a jog of the windlass is at its end. -/
def State.rodeEnds (s : State) (dir : RodeDir) : Bool :=
  match dir with
  | .payOut => s.windlass.rodeValid && s.windlass.atMaxRode
  | .heave => s.windlass.homeSw

section
variable {s : State} {dir : RodeDir}

theorem State.rodeEnds_iff : s.rodeEnds dir = true ↔
    (dir = .payOut ∧ s.windlass.rodeValid = true
        ∧ s.windlass.toCounts s.windlass.settings.maxRode - s.windlass.toCounts s.windlass.settings.stopBand ≤ s.windlass.count.toInt)
      ∨ (dir = .heave ∧ s.windlass.homeSw = true) := by
  cases dir
  · simp [State.rodeEnds, Windlass.atMaxRode, Windlass.position]
  · simp [State.rodeEnds]

theorem State.windlassJog_faulted (h : s.windlass.state = .fault) : s.windlassJog dir = (s, .refused .faulted) := if_pos h

theorem State.windlassJog_atEnd (h : s.windlass.state ≠ .fault) (he : s.rodeEnds dir = true) : s.windlassJog dir = (s, .atEnd) :=
  (if_neg h).trans (if_pos (by cases dir <;> exact he))

theorem State.windlassJog_runs (h : s.windlass.state ≠ .fault) (he : ¬ s.rodeEnds dir = true) {t : State} {a : Option Status}
    (ha : s.acceptRun { kind := .jog, dir := dir } = (t, a)) : s.windlassJog dir = (t, a.elim .ok .refused) := by
  unfold State.windlassJog
  dsimp only
  rw [if_neg h, if_neg (by cases dir <;> exact he), ha]
  cases a <;> rfl

theorem State.begun_waits {a : State} {r : Run} (hw : a.windlass = s.windlass) (h : s.deadband r.dir ≠ 0) :
    s.begun a r = a.onWindlass fun w => { w with state := .starting, run := some r } := by
  unfold State.begun
  rw [if_neg h, if_neg h, if_neg h, ← hw]
  rfl

theorem State.begun_closes {a : State} {r : Run} (h : s.deadband r.dir = 0) : s.begun a r = a.onWindlass fun w =>
    { w with state := .starting, run := some r, payOut := decide (r.dir = .payOut), heave := decide (r.dir = .heave)
             brakeTimer := some (s.uptime + 100) } := by
  unfold State.begun
  rw [if_pos h, if_pos h, if_pos h]
  rfl

end

/-! ## A jog of a mover (R129) -/

section
variable {s : State} {m : MoverId} {dir : Direction}

theorem Mover.inDeckBand_iff (r : Mover) (x : Int) : r.inDeckBand x = true ↔ ¬ x < r.settings.deck - 10 ∧ ¬ r.settings.deck + 10 < x := by
  rw [show r.inDeckBand x = true ↔ r.settings.deck - 10 ≤ x ∧ x ≤ r.settings.deck + 10 from decide_eq_true_iff, not_lt, not_lt]

theorem State.moverJog_faulted (h : (s.mover m).state = .fault) : s.moverJog m dir = (s, .refused .faulted) := if_pos h

/-- A platform between its ends whose angle does not say on which side of the deck it is. -/
def State.Astray (s : State) (m : MoverId) : Prop :=
  m = .platform ∧ s.platform.position = .between ∧ (s.angleFaulted .platform = true ∨ s.platform.inDeckBand (s.angle .platform) = true)

theorem State.moverJog_astray (h : (s.mover m).state ≠ .fault) (hb : s.Astray m) : s.moverJog m dir = (s, .refused .notReady) :=
  (if_neg h).trans (if_pos hb)

theorem State.moverJog_atEnd (h : (s.mover m).state ≠ .fault) (hb : ¬ s.Astray m) (hg : s.jogGoal m dir = none) :
    s.moverJog m dir = (s, .atEnd) := by
  unfold State.Astray at hb
  unfold State.moverJog
  rw [if_neg h, if_neg hb, hg]

theorem State.moverJog_starts (h : (s.mover m).state ≠ .fault) (hb : ¬ s.Astray m) {g : Position} (hg : s.jogGoal m dir = some g)
    {t : State} {a : Option Status} (ha : s.startMotion m .jog dir g = (t, a)) : s.moverJog m dir = (t, a.elim .ok .refused) := by
  unfold State.Astray at hb
  unfold State.moverJog
  rw [if_neg h, if_neg hb, hg]
  dsimp only
  rw [ha]
  cases a <;> rfl

theorem Position.of_platform {p : Position} (h : p ≠ .opened ∧ p ≠ .closed) : p = .stowed ∨ p = .submerged ∨ p = .atDeck ∨ p = .between := by
  obtain ⟨h1, h2⟩ := h
  cases p
  case opened => exact absurd rfl h1
  case closed => exact absurd rfl h2
  all_goals simp

theorem State.jogGoal_opening : s.jogGoal .hatch .opening = if s.hatch.position = .opened then none else some .opened := rfl

theorem State.jogGoal_closing : s.jogGoal .hatch .closing = if s.hatch.position = .closed then none else some .closed := rfl

theorem State.jogGoal_up {p : Position} (h : s.platform.position = p) : s.jogGoal .platform .up =
    if p = .stowed then none else if p = .submerged ∨ (p = .between ∧ s.angle .platform < s.platform.settings.deck - 10) then some .atDeck
    else some .stowed := by
  unfold State.jogGoal
  rw [show (s.mover .platform).position = p from h]
  cases p
  case between => simp [Direction.raises]
  all_goals rfl

theorem State.jogGoal_down {p : Position} (h : s.platform.position = p) : s.jogGoal .platform .down =
    if p = .submerged then none else if p = .stowed ∨ (p = .between ∧ ¬ s.angle .platform < s.platform.settings.deck - 10) then some .atDeck
    else some .submerged := by
  unfold State.jogGoal
  rw [show (s.mover .platform).position = p from h]
  cases p
  case between =>
    by_cases hb : s.angle .platform < s.platform.settings.deck - 10 <;> simp [Direction.raises, hb]
  all_goals rfl

section
variable {below above : Prop} {goal : Option Position} (hbelow : below ↔ s.angle .platform < s.platform.settings.deck - 10)
  (hside : s.platform.position = .between → below ∨ above) (hpos : s.platform.position ≠ .opened ∧ s.platform.position ≠ .closed)
include hbelow hside hpos

/-- The end of a platform jog UP, by the table of R129. -/
theorem State.jogGoal_up_eq (h1 : s.platform.position = .stowed → goal = none)
    (h2 : s.platform.position = .submerged ∨ (s.platform.position = .between ∧ below) → goal = some .atDeck)
    (h3 : s.platform.position = .atDeck ∨ (s.platform.position = .between ∧ above) → goal = some .stowed) : s.jogGoal .platform .up = goal := by
  rw [State.jogGoal_up rfl]
  split
  · rename_i h; exact (h1 h).symm
  · rename_i hs
    split
    · rename_i h; exact (h2 (h.imp_right fun g => ⟨g.1, hbelow.mpr g.2⟩)).symm
    · rename_i h
      refine (h3 ?_).symm
      rcases Position.of_platform (hpos) with hp | hp | hp | hp
      · exact absurd hp hs
      · exact absurd (.inl hp) h
      · exact .inl hp
      · exact .inr ⟨hp, (hside hp).resolve_left fun g => h (.inr ⟨hp, hbelow.mp g⟩)⟩

/-- The end of a platform jog DOWN, by the table of R129. -/
theorem State.jogGoal_down_eq (h1 : s.platform.position = .submerged → goal = none)
    (h2 : s.platform.position = .stowed ∨ (s.platform.position = .between ∧ above) → goal = some .atDeck)
    (h3 : s.platform.position = .atDeck ∨ (s.platform.position = .between ∧ below) → goal = some .submerged) :
    s.jogGoal .platform .down = goal := by
  rw [State.jogGoal_down rfl]
  split
  · rename_i h; exact (h1 h).symm
  · rename_i hs
    split
    · rename_i h
      exact (h2 (h.imp_right fun g => ⟨g.1, (hside g.1).resolve_left fun k => g.2 (hbelow.mp k)⟩)).symm
    · rename_i h
      refine (h3 ?_).symm
      rcases Position.of_platform (hpos) with hp | hp | hp | hp
      · exact absurd (.inl hp) h
      · exact absurd hp hs
      · exact .inl hp
      · exact .inr ⟨hp, hbelow.mpr (not_not.mp fun g => h (.inr ⟨hp, g⟩))⟩

end

end

/-! ## Lamps (R168, R169) -/

section
variable (s : State) (t : Station)

theorem State.lampsOf_key {i : Nat} (h : i < 6) : (s.lampsOf t)[i] = s.keyLamp t.map[i] t.spent[i] := by
  unfold State.lampsOf
  rw [Vector.getElem_ofFn]
  exact dif_pos h

theorem State.lampsOf_seventh : (s.lampsOf t)[6] = if s.stationOwns t.addr then .steady else .off := by
  unfold State.lampsOf
  rw [Vector.getElem_ofFn]
  rfl

theorem State.lampsOf_eighth : (s.lampsOf t)[7] = if s.anyOwned then .slow else .off := by
  unfold State.lampsOf
  rw [Vector.getElem_ofFn]
  rfl

theorem State.stationOwns_iff (a : Nat) : s.stationOwns a = true ↔ ∃ r, (s.ownerOf r).owner = .station a := by
  simp only [State.stationOwns, decide_eq_true_iff]
  exact ⟨fun h => h.elim (⟨.hatch, ·⟩) fun h => h.elim (⟨.platform, ·⟩) (⟨.windlass, ·⟩),
    fun ⟨r, h⟩ => by cases r; exacts [.inl h, .inr (.inl h), .inr (.inr h)]⟩

theorem State.anyOwned_iff : s.anyOwned = true ↔ ∃ r, (s.ownerOf r).owner ≠ .none := by
  simp only [State.anyOwned, decide_eq_true_iff]
  exact ⟨fun h => h.elim (⟨.hatch, ·⟩) fun h => h.elim (⟨.platform, ·⟩) (⟨.windlass, ·⟩),
    fun ⟨r, h⟩ => by cases r; exacts [.inl h, .inr (.inl h), .inr (.inr h)]⟩

theorem State.resourceFault_iff (r : Resource) : s.resourceFault r = true ↔ (r = .hatch ∧ s.hatch.state = .fault)
    ∨ (r = .platform ∧ s.platform.state = .fault) ∨ (r = .windlass ∧ s.windlass.state = .fault) := by
  cases r <;> simp [State.resourceFault]

theorem State.restsAtEnd_iff (f : KeyFunction) : s.restsAtEnd f = true ↔
    (f = .hatchOpen ∧ s.hatch.state = .atRest ∧ s.hatch.position = .opened)
      ∨ (f = .hatchClose ∧ s.hatch.state = .atRest ∧ s.hatch.position = .closed)
      ∨ (f = .platformUp ∧ s.platform.state = .atRest ∧ s.platform.position = .stowed)
      ∨ (f = .platformDown ∧ s.platform.state = .atRest ∧ s.platform.position = .submerged)
      ∨ (f = .anchorOut ∧ s.windlass.state = .idle ∧ s.windlass.rodeValid = true
        ∧ s.windlass.toCounts s.windlass.settings.maxRode - s.windlass.toCounts s.windlass.settings.stopBand ≤ s.windlass.count.toInt)
      ∨ (f = .anchorIn ∧ s.windlass.state = .idle ∧ s.windlass.homeSw = true) := by
  cases f <;> simp [State.restsAtEnd, Windlass.atMaxRode, Windlass.position]

theorem State.keyLamp_none {f : KeyFunction} (mark : Option SpentMark) (h : f.motion = none) : s.keyLamp f mark = .off := by
  unfold State.keyLamp
  rw [h]

theorem State.keyLamp_of {f : KeyFunction} {r : Resource} {d : Direction} (mark : Option SpentMark) (h : f.motion = some (r, d)) :
    s.keyLamp f mark = if mark = some .denied ∨ s.resourceFault r = true then .fast
      else if (s.ownerOf r).owner ≠ .none ∧ (s.ownerOf r).dir = some d then .slow else if s.restsAtEnd f = true then .steady else .off := by
  unfold State.keyLamp
  rw [h]

end

section
variable {s : State} {a : Nat} {t : Station}

theorem State.requestLamps_quiet (ht : s.station a = some t) (h : (∀ r, s.node a = some r → r.state ≠ .active) ∨ t.delivered = some (s.lampsOf t)) :
    s.requestLamps a = s := by
  unfold State.requestLamps
  rw [ht]
  refine if_neg fun g => ?_
  obtain ⟨g1, g2⟩ := g
  rcases h with h | h
  · cases hn : s.node a with
    | none => rw [hn] at g1; cases g1
    | some r =>
      rw [hn] at g1
      exact h r hn (of_decide_eq_true g1)
  · exact g2 h

theorem State.requestLamps_asks (ht : s.station a = some t) {r : NodeRecord} (hr : s.node a = some r) (ha : r.state = .active)
    (hd : t.delivered ≠ some (s.lampsOf t)) : s.requestLamps a = s.askTx .lamps a := by
  unfold State.requestLamps
  rw [ht]
  exact if_pos ⟨by rw [hr]; exact decide_eq_true ha, hd⟩

/-- A bus in RECOVERY, and the mode CONFIG, refuse a request (R18, R23). -/
theorem State.askTx_refused (k : TxKind) (h : s.bus.state = .recovery ∨ s.mode = .config) : s.askTx k a = s := by
  unfold State.askTx State.queueTx
  by_cases hr : s.bus.state = .recovery
  · rw [if_pos hr]
  · rw [if_neg hr, if_pos (by simp [State.modeTakes, h.resolve_left hr])]

end

/-! ## The expiry of a confirmation (R163) -/

section
variable {s : State} {r : Resource} {e : Uptime} (he : (s.ownerOf r).confirm = some e)
include he

theorem exec_confirmExpiry : exec (.confirmExpiry r) s
    = .next ((State.confirmLapse { s with uptime := (s.atMoment e).uptime } r).deckPass s) := by
  refine congrArg Host.Outcome.next ((State.expire_some _ he).trans ?_)
  exact congrArg (fun v : State => (v.confirmLapse r).deckPass s) (s.atMoment_eq e)

theorem exec_confirmExpiry_idle (h : (s.ownerOf r).stopDelivered = true ∨ ∀ a, (s.ownerOf r).owner ≠ .station a) :
    exec (.confirmExpiry r) s = .next ((s.atMoment e).deckPass s) := by
  have hv : State.confirmLapse { s with uptime := (s.atMoment e).uptime } r = { s with uptime := (s.atMoment e).uptime } := by
    refine if_neg ?_
    rintro ⟨g1, g2⟩
    obtain ⟨a, ha⟩ := Owner.isStation_iff.mp g1
    rcases h with h | h
    · cases r <;> exact nomatch h.symm.trans g2
    · cases r <;> exact h a ha
  rw [exec_confirmExpiry he, hv, ← s.atMoment_eq e]

theorem exec_confirmExpiry_stops {a : Nat} (h1 : (s.ownerOf r).owner = .station a) (h2 : (s.ownerOf r).stopDelivered = false) :
    ∃ u : State, exec (.confirmExpiry r) s = .next (u.deckPass s) ∧ State.StopReached { s with uptime := (s.atMoment e).uptime } u r .stationLost := by
  refine ⟨_, ?_, State.deliverStop_reached _ r _⟩
  rw [exec_confirmExpiry he]
  refine congrArg (fun v : State => Host.Outcome.next (v.deckPass s)) (if_pos ?_)
  cases r <;> exact ⟨Owner.isStation_iff.mpr ⟨a, h1⟩, h2⟩

end

end Sys2Proof.Machine

namespace Sys2Proof.Proofs

open Sys2Proof.Machine

/-- Settles O56: each part of a station's work, by the lemma that says what it does. -/
theorem stationMotions : Obligations.StationMotions := by
  refine ⟨fun s r => ⟨fun h => ?_, fun e he => ⟨exec_confirmExpiry_idle he, fun a h1 h2 => ?_⟩⟩,
    fun s addr held t ht => ⟨fun h => ?_, fun k f r d hr h7 h8 hk hf hfm hkm => ?_, fun k j ks hk => ?_, fun k j ks hr h7 h8 hk => ?_⟩,
    fun s s₁ s₂ addr old new events stops h1 hs h2 h3 => ?_,
    fun s addr held r => ⟨State.confirmRecord_other, fun h1 h2 => ⟨fun k hk h7 hh => State.confirmRecord_held h1 h2 h7 hk hh, fun h => ?_⟩⟩,
    fun s r => ⟨fun h => ?_, fun h1 h2 => ?_⟩, fun s dir atEnd hend => ?_, ?_, ?_⟩
  · exact congrArg Host.Outcome.next (State.expire_none _ h)
  · obtain ⟨u, hx, hu⟩ := exec_confirmExpiry_stops he h1 h2
    refine ⟨_, hx, fun m hm hmov => ?_, fun hw hway => ?_⟩
    · subst hm
      obtain ⟨g, ho⟩ := (hu.1 m rfl).1 (by cases m <;> exact hmov)
      rw [State.mover_deckPass _ _ (by rw [g.1]; decide), State.ownerOf_deckPass_busy s (State.drained_of_settling g.1), ho]
      obtain ⟨a1, a2, a3, a4, -⟩ := g
      exact ⟨a1, a2, a3, a4, by cases m <;> rfl⟩
    · obtain ⟨ho, g, -⟩ := hu.2 hw
      have g := g hway
      have hd : (u.deckPass s).windlassOwner = u.windlassOwner := State.ownerOf_deckPass_busy s (State.drained_of_stopping g.1) .windlass
      rw [State.deckPass_windlass, hd, ho]
      obtain ⟨a1, a2, a3, a4, -⟩ := g
      exact ⟨a1, a2, by simp [Windlass.contactorClosed, a3, a4], rfl⟩
  · by_cases hon : s.mode = .run ∧ holds held 7 = true ∧ holds held 8 = false
    · obtain ⟨hr, h7, h8⟩ := hon
      rcases h with h | h | h | h | ⟨k, hk, hkm⟩
      · exact absurd hr h
      · exact nomatch h7.symm.trans h
      · exact nomatch h8.symm.trans h
      · exact State.acquire_none ht hr h7 h8 h
      · exact State.acquire_spent ht hr h7 h8 hk hkm
    · exact State.acquire_off ht hon
  · subst hf
    rw [State.acquire_one ht hr h7 h8 hk hkm hfm]
    exact ⟨State.attempt_owned, fun ho => ⟨fun u => State.attempt_ok ho, fun u => State.attempt_atEnd ho, fun u st => State.attempt_refused ho⟩⟩
  · by_cases hon : s.mode = .run ∧ holds held 7 = true ∧ holds held 8 = false
    · obtain ⟨hr, h7, h8⟩ := hon
      rw [State.acquire_many ht hr h7 h8 hk]
      rfl
    · rw [State.acquire_off ht hon]
  · rw [State.acquire_many ht hr h7 h8 hk]
    have hin : ∀ x ∈ (k :: j :: ks).filter fun k => t.mark k = none, x ∈ motionKeys := fun x hx =>
      (List.mem_filter.mp (hk ▸ (List.mem_filter.mp hx).1 : x ∈ t.heldMapped held)).1
    refine ⟨fun b hb => tableGet_tableModify_other Station.addr (by intro; rfl) hb, _,
      (tableGet_tableModify_self Station.addr (by intro; rfl)).trans (congrArg _ ht), rfl, fun n hn => ?_⟩
    rw [Station.mark_deny t hin hn]
    refine if_congr ?_ rfl rfl
    rw [List.mem_filter, decide_eq_true_iff]
  · have hs1 : s.onStation addr (fun t => t.release new) = s₁ := by
      rw [h1]
      exact congrArg (fun f : Station → Station => s.onStation addr f) (funext fun t => t.release_eq new)
    have hs2 : (if pressesStop old new events then s₁.stopAll else s₁) = s₂ := by
      by_cases hp : pressesStop old new events = true
      · rw [if_pos hp, h2 (hs.mpr (pressesStop_iff.mp hp))]
      · rw [if_neg hp, h3 fun g => hp (pressesStop_iff.mpr (hs.mp g))]
    refine ⟨?_, fun t ht => ?_⟩
    · unfold State.stationUpdate
      dsimp only
      rw [hs1, hs2]
      rfl
    · unfold State.stationKeys State.offerKeys
      dsimp only
      rw [ht]
      refine congrArg (fun es => List.foldl _ _ es) (List.filter_congr fun e _ => ?_)
      exact t.handsOn_eq e
  · rw [State.confirmRecord_released h1 h2 h]
    exact ⟨s.deliverStop_reached r _, fun q hq => s.deliverStop_untouched _ hq⟩
  · exact s.stopAll_made.untouched r (.inr fun ho => h.elim ho.1 fun h => nomatch h.symm.trans ho.2.2)
  · exact s.stopAll_made.reached (mem_resources r) ⟨h1, rfl, h2⟩
  · rw [← State.rodeEnds_iff] at hend
    refine ⟨by cases dir <;> rfl, State.windlassJog_faulted, fun hf he => State.windlassJog_atEnd hf (hend.mp he), fun hf he h6 => ?_,
      fun hf he h6 a granted ha => ?_⟩
    · exact State.windlassJog_runs hf (mt hend.mpr he) (State.acceptRun_faulted _ h6)
    · refine ⟨fun hg => ?_, fun free hfree hg => ?_⟩
      · subst hg
        exact State.windlassJog_runs hf (mt hend.mpr he) (State.acceptRun_refused _ h6 ha)
      · subst hg
        have hx := State.windlassJog_runs hf (mt hend.mpr he) (State.acceptRun_granted { kind := .jog, dir := dir } h6 ha)
        have hd : s.deadband dir = deadbandLeft s.uptime free := by rw [s.deadband_eq, hfree]; cases dir <;> rfl
        refine ⟨fun hne hl => hx.trans ?_, fun hp => hx.trans ?_⟩
        · rw [State.begun_waits (State.startAdmission_windlass ha) (hd ▸ deadbandLeft_running hne hl)]
          rfl
        · rw [State.begun_closes (hd.trans (deadbandLeft_passed hp))]
          rfl
  · intro s m dir above below inBand goal hmd hbelow habove hband hopening hclosing hup hdown hpos
    have hastray : s.Astray m ↔ m = .platform ∧ s.platform.position = .between ∧ (s.angleFaulted .platform = true ∨ inBand) := by
      rw [State.Astray, Mover.inDeckBand_iff, hband, hbelow, habove]
    have hgoal : ¬ s.Astray m → s.jogGoal m dir = goal := fun hn => by
      have hside : m = .platform → s.platform.position = .between → below ∨ above := fun hm hp => by
        by_contra h
        exact hn (hastray.mpr ⟨hm, hp, .inr (hband.mpr (not_or.mp h))⟩)
      rcases hmd with ⟨rfl, rfl | rfl⟩ | ⟨rfl, rfl | rfl⟩
      · obtain ⟨h1, h2⟩ := hopening rfl
        rw [State.jogGoal_opening]
        split
        · rename_i h; exact (h1 h).symm
        · rename_i h; exact (h2 h).symm
      · obtain ⟨h1, h2⟩ := hclosing rfl
        rw [State.jogGoal_closing]
        split
        · rename_i h; exact (h1 h).symm
        · rename_i h; exact (h2 h).symm
      · obtain ⟨h1, h2, h3⟩ := hup rfl
        exact State.jogGoal_up_eq hbelow (hside rfl) (hpos rfl) h1 h2 h3
      · obtain ⟨h1, h2, h3⟩ := hdown rfl
        exact State.jogGoal_down_eq hbelow (hside rfl) (hpos rfl) h1 h2 h3
    refine ⟨by cases m <;> rfl, State.moverJog_faulted, fun hf hm hp hb => State.moverJog_astray hf (hastray.mpr ⟨hm, hp, hb⟩),
      fun hf hb => ?_⟩
    have hn : ¬ s.Astray m := fun h => by
      obtain ⟨hm, hp, hx⟩ := hastray.mp h
      obtain ⟨g1, g2⟩ := hb hm hp
      exact hx.elim (fun h => nomatch g1.symm.trans h) g2
    have hgoal := hgoal hn
    refine ⟨fun hg => State.moverJog_atEnd hf hn (hgoal.trans hg), fun g stow waits hg hstow hwaits => ?_⟩
    have hwaits := funext hwaits
    subst hstow hwaits
    have hstart := fun {t : State} {a : Option Status} => State.moverJog_starts (t := t) (a := a) hf hn (hgoal.trans hg)
    refine ⟨fun h => hstart (if_pos h), fun ha h3 => ⟨fun hi => hstart ((if_neg (by simp [ha, h3])).trans (if_pos (by simp [hi]))), fun hi => ?_⟩⟩
    have hask := State.startMotion_asks .jog dir g ha h3 hi
    refine ⟨fun h => ?_, fun h => ?_, fun n h hh => ?_, fun h hh => ?_, fun h => ?_, fun a granted h had => ⟨fun hgr => ?_, fun hgr => ?_⟩⟩
    · exact hstart (hask.trans (State.pump_faulted m _ h))
    · exact hstart (hask.trans (State.pump_ready m _ h))
    · exact hstart (hask.trans (State.pump_startingHeld m _ h hh))
    · exact hstart (hask.trans (State.pump_startingFree m _ h hh))
    · refine (hstart (hask.trans (State.pump_runOn m _ h))).trans ?_
      cases m <;> rfl
    · subst hgr
      exact hstart (hask.trans (State.pump_refused m _ h h3 had))
    · subst hgr
      refine (hstart (hask.trans (State.pump_off m _ h h3 had))).trans ?_
      rw [← State.startAdmission_uptime had]
      rfl
  · rintro s t lamps rfl
    refine ⟨fun i f h hf => ⟨fun hm => ?_, fun r d failed owned rests hm hfailed howned hrests => ?_⟩, fun ho => ?_, fun ho => ?_, fun ho => ?_,
      fun ho => ?_, fun a ht => ⟨State.requestLamps_quiet ht, fun r hr ha hd => ?_⟩⟩
    · rw [State.lampsOf_key s t h, hf]
      exact s.keyLamp_none _ hm
    · have hl := (s.lampsOf_key t h).trans ((congrArg (fun f => s.keyLamp f t.spent[i]) hf).trans (s.keyLamp_of t.spent[i] hm))
      have h1 : (t.spent[i] = some .denied ∨ s.resourceFault r = true) ↔ failed := by rw [s.resourceFault_iff, hfailed]
      have h2 : s.restsAtEnd f = true ↔ rests := (s.restsAtEnd_iff f).trans hrests.symm
      exact ⟨fun hx => hl.trans (if_pos (h1.mpr hx)), fun hx ho => hl.trans ((if_neg (mt h1.mp hx)).trans (if_pos (howned.mp ho))),
        fun hx ho hr => hl.trans ((if_neg (mt h1.mp hx)).trans ((if_neg (mt howned.mpr ho)).trans (if_pos (h2.mpr hr)))),
        fun hx ho hr => hl.trans ((if_neg (mt h1.mp hx)).trans ((if_neg (mt howned.mpr ho)).trans (if_neg (mt h2.mp hr))))⟩
    · rw [s.lampsOf_seventh t]
      exact if_pos ((s.stationOwns_iff _).mpr ho)
    · rw [s.lampsOf_seventh t]
      exact if_neg fun g => by obtain ⟨r, hr⟩ := (s.stationOwns_iff _).mp g; exact ho r hr
    · rw [s.lampsOf_eighth t]
      exact if_pos (s.anyOwned_iff.mpr ho)
    · rw [s.lampsOf_eighth t]
      exact if_neg fun g => by obtain ⟨r, hr⟩ := s.anyOwned_iff.mp g; exact hr (ho r)
    · rw [State.requestLamps_asks ht hr ha hd]
      refine ⟨State.askTx_refused .lamps, fun hb hm hn => ⟨fun hl => ?_, fun hl => ?_⟩⟩
      · rw [State.askTx, State.queueTx_joins hm ⟨hb, hl⟩ fun _ => hn]
        rfl
      · obtain ⟨x, -, hq⟩ := State.queueTx_refused (k := .lamps) (a := a) hm (.inr ⟨fun _ => hn, hl⟩)
        rw [State.askTx, hq]

end Sys2Proof.Proofs
end
